-- ==== Sys2Proof/Word.lean ====
section
/-! DEFINITION. The word types of the host link, and the fixed-length table the machine keeps its numbered units in. -/

namespace Sys2Proof

/-- One byte of a serial line (R1, R186). -/
abbrev Byte := BitVec 8

/-- A two-byte field of a request payload (R189). -/
abbrev Half := BitVec 16

/-- A four-byte field: a tag number, a word of the retained image (R181, R189). -/
abbrev Word := BitVec 32

/-- `n` like things, numbered from 0: the channels, decks, bridges, lanes, barriers and slots of the part. -/
abbrev Table (n : Nat) (α : Type) := Vector α n

/-- The thing numbered `i`. -/
def Table.read {n : Nat} {α : Type} (t : Table n α) (i : Fin n) : α := t.get i

/-- The table with the thing numbered `i` replaced. -/
def Table.write {n : Nat} {α : Type} (t : Table n α) (i : Fin n) (x : α) : Table n α :=
  t.set i.val x i.isLt

/-- The table with one function applied to every thing in it. -/
def Table.each {n : Nat} {α β : Type} (t : Table n α) (f : α → β) : Table n β :=
  ⟨⟨t.toList.map f⟩, by simp⟩

/-- The table of `n` copies of one thing. -/
def Table.all (n : Nat) {α : Type} (x : α) : Table n α := Vector.replicate n x

@[simp] theorem Table.read_write_same {n : Nat} {α : Type} (t : Table n α) (i : Fin n) (x : α) :
    (t.write i x).read i = x := by
  simp [Table.read, Table.write, Vector.get_eq_getElem]

@[simp] theorem Table.read_write_other {n : Nat} {α : Type} (t : Table n α) {i j : Fin n} (x : α)
    (h : i ≠ j) : (t.write i x).read j = t.read j := by
  have : i.val ≠ j.val := fun e => h (Fin.ext e)
  simp [Table.read, Table.write, Vector.get_eq_getElem, Vector.getElem_set_ne, this]

theorem Table.read_write {n : Nat} {α : Type} (t : Table n α) (i j : Fin n) (x : α) :
    (t.write i x).read j = if i = j then x else t.read j := by
  by_cases h : i = j
  · subst h; simp
  · simp [h]

@[simp] theorem Table.read_each {n : Nat} {α β : Type} (t : Table n α) (f : α → β) (i : Fin n) :
    (t.each f).read i = f (t.read i) := by
  simp [Table.read, Table.each, Vector.get_eq_getElem]

@[simp] theorem Table.read_all {n : Nat} {α : Type} (x : α) (i : Fin n) :
    (Table.all n x).read i = x := by
  simp [Table.read, Table.all, Vector.get_eq_getElem]

/-- Two tables that read alike everywhere are one table. -/
theorem Table.ext_read {n : Nat} {α : Type} {t u : Table n α} (h : ∀ i, t.read i = u.read i) : t = u := by
  apply Vector.ext
  intro i hi
  have := h ⟨i, hi⟩
  simpa [Table.read, Vector.get_eq_getElem] using this

@[simp] theorem Table.write_read_self {n : Nat} {α : Type} (t : Table n α) (i : Fin n) :
    t.write i (t.read i) = t := by
  apply Table.ext_read
  intro j
  rw [Table.read_write]
  split
  · next h => rw [h]
  · rfl

end Sys2Proof
end

