-- ==== Sys2Proof/Syntax.lean ====
section
/-! DEFINITION. The commands of the part: one constructor of Instr per row of spec/opcode_table.json.
A request row carries the fields of its payload at the widths R189 gives them, so that a value outside a field's
range can be named and be refused as its rule says; an event row carries the number of the unit it concerns. -/

namespace Sys2Proof

/-- The status byte of an accepted load-cell frame (R2). -/
inductive SampleStatus
  | ok | overrange | cellFault
  deriving DecidableEq, Repr

/-- The two end switches of a barrier (R58). -/
inductive EndSwitch
  | up | down
  deriving DecidableEq, Repr

/-- Which of a loop's two inputs are active after an event that leaves at least one active (R59, R69). -/
inductive LoopInputs
  | presence | fault | both
  deriving DecidableEq, Repr

/-- A field that holds a number or a named value: a form byte, then the number (R189). -/
structure Selector where
  form   : Byte
  number : Byte
  deriving DecidableEq, Repr

/-- The fields of CONFIG_LANE (R74). The approach loop, which is none of the kinds of thing R189 sends as 0xFF for
none, takes a form byte. -/
structure ConfigLaneFields where
  lane     : Byte
  role     : Byte
  bridge   : Byte
  front    : Byte
  rear     : Byte
  loop     : Selector
  fallback : Byte
  deriving DecidableEq, Repr

/-- The fields of CONFIG_BRIDGE_TIMING (R33). -/
structure BridgeTimingFields where
  bridge         : Byte
  period         : Byte
  zeroInterval   : Half
  urgent         : Byte
  hold           : Byte
  empty          : Byte
  captureTimeout : Byte
  deriving DecidableEq, Repr

/-- The fields of CONFIG_STREAM (R112). -/
structure ConfigStreamFields where
  stream    : Byte
  rate      : Word
  minCharge : Word
  enabled   : Byte
  deriving DecidableEq, Repr

/-- The fields of CONFIG_TIMERS (R76). -/
structure ConfigTimersFields where
  identity  : Byte
  entry     : Byte
  motion    : Byte
  query     : Byte
  aging     : Byte
  tareDays  : Half
  highWater : Byte
  deriving DecidableEq, Repr

/-- The fields of CAL_CELL (R12). -/
structure CalCellFields where
  channel : Byte
  source  : Byte
  zero    : Word
  span    : Word
  deriving DecidableEq, Repr

/-- The fields of CAL_BRIDGE (R34): two deck bytes, 0xFF for none, hold the member list of none, one or two decks. -/
structure CalBridgeFields where
  bridge   : Byte
  first    : Byte
  second   : Byte
  interval : Half
  maximum  : Word
  filter   : Byte
  window   : Byte
  band     : Word
  zrForm   : Byte
  zr       : Half
  deriving DecidableEq, Repr

/-- The fields of CAL_REFERENCE_ZERO (R35). -/
structure CalZeroFields where
  bridge : Byte
  source : Byte
  zero   : Word
  deriving DecidableEq, Repr

/-- The permit carried by a PERMIT_ANSWER of ENTRY (R136, section 12.8). -/
structure AnswerEntry where
  pfx     : Word
  length  : Byte
  account : Half
  streams : Half
  credit  : Word
  flags   : Byte
  deriving DecidableEq, Repr

/-- The fields of PERMIT_ANSWER (R136): the 20-byte payload has the entry, the 6-byte payload has none. -/
structure PermitAnswerFields where
  number : Byte
  tag    : Word
  answer : Byte
  entry  : Option AnswerEntry
  deriving DecidableEq, Repr

/-- The fields of TARE_WRITE (R159). -/
structure TareWriteFields where
  tag      : Word
  tare     : Word
  interval : Half
  bridge   : Byte
  deriving DecidableEq, Repr

/-- The thirty-nine requests of the host link (section 12.7), each with the fields its rule names, in that order. -/
inductive Request
  | identify
  | statusRead
  | reset
  | configLane (f : ConfigLaneFields)
  | configBridgeTiming (f : BridgeTimingFields)
  | configStream (f : ConfigStreamFields)
  | configTimers (f : ConfigTimersFields)
  | calDeckMap (decks : Table 16 Byte)
  | calCell (f : CalCellFields)
  | calBridge (f : CalBridgeFields)
  | calReferenceZero (f : CalZeroFields)
  | timeSet (value : Word)
  | arrival (lane : Byte) (tag : Word) (stream : Byte)
  | laneTakeover (lane : Byte)
  | laneRelease (lane : Byte)
  | laneRetry (lane : Byte)
  | laneBackout (lane : Byte)
  | barrierCommand (lane barrier command : Byte)
  | barrierReset (barrier : Byte)
  | weightRead (bridge : Selector)
  | zeroNow (bridge : Byte)
  | zeroWaive (bridge : Byte)
  | channelRead (channel : Selector)
  | channelClear (channel : Selector)
  | permitAnswer (f : PermitAnswerFields)
  | invalidate (code : Byte) (account : Half) (tag : Word)
  | creditSet (account : Half) (credit : Word) (stopped : Byte)
  | cacheRead
  | refusalRead
  | refusalClear (records overflow : Byte)
  | refusalMask (setting : Byte)
  | visitRead (kind : Byte) (operand : Word)
  | visitCancel (kind : Byte) (operand : Word)
  | tareWrite (f : TareWriteFields)
  | tareDelete (tag : Word)
  | tareRead (kind : Byte) (operand : Word)
  | ticketRead (number : Word)
  | ticketCollect (number : Word)
  | ticketBase (number : Word)
  deriving DecidableEq, Repr

/-- The commands of the part, one constructor per row of spec/opcode_table.json. A request row is the arrival of that
request's complete frame on the host link (R188); an event row is the event. -/
inductive Instr
  | identify
  | statusRead
  | reset
  | configLane (f : ConfigLaneFields)
  | configBridgeTiming (f : BridgeTimingFields)
  | configStream (f : ConfigStreamFields)
  | configTimers (f : ConfigTimersFields)
  | calDeckMap (decks : Table 16 Byte)
  | calCell (f : CalCellFields)
  | calBridge (f : CalBridgeFields)
  | calReferenceZero (f : CalZeroFields)
  | timeSet (value : Word)
  | arrival (lane : Byte) (tag : Word) (stream : Byte)
  | laneTakeover (lane : Byte)
  | laneRelease (lane : Byte)
  | laneRetry (lane : Byte)
  | laneBackout (lane : Byte)
  | barrierCommand (lane barrier command : Byte)
  | barrierReset (barrier : Byte)
  | weightRead (bridge : Selector)
  | zeroNow (bridge : Byte)
  | zeroWaive (bridge : Byte)
  | channelRead (channel : Selector)
  | channelClear (channel : Selector)
  | permitAnswer (f : PermitAnswerFields)
  | invalidate (code : Byte) (account : Half) (tag : Word)
  | creditSet (account : Half) (credit : Word) (stopped : Byte)
  | cacheRead
  | refusalRead
  | refusalClear (records overflow : Byte)
  | refusalMask (setting : Byte)
  | visitRead (kind : Byte) (operand : Word)
  | visitCancel (kind : Byte) (operand : Word)
  | tareWrite (f : TareWriteFields)
  | tareDelete (tag : Word)
  | tareRead (kind : Byte) (operand : Word)
  | ticketRead (number : Word)
  | ticketCollect (number : Word)
  | ticketBase (number : Word)
  | hostFrameReceived (kind : Byte) (payload : List Byte)
  | hostFrameGapTimeout
  | transmitFrameEnd
  | sampleArrival (channel : Fin 16) (counts : BitVec 24) (status : SampleStatus)
  | cellFrameGapTimeout (channel : Fin 16)
  | stallTimerExpiry (channel : Fin 16)
  | freshnessExpiry (deck : Fin 4)
  | zeroTimerExpiry (bridge : Fin 4)
  | captureDeadlineExpiry (bridge : Fin 4)
  | motionTimerExpiry (barrier : Fin 8)
  | identityTimerExpiry (lane : Fin 4)
  | entryTimerExpiry (lane : Fin 4)
  | agingTimerExpiry
  | queryDeadlineExpiry (slot : Fin 4)
  | clockTick
  | metrologyInputChange (closed : Bool)
  | metrologySwitchChange
  | endSwitchInputChange (barrier : Fin 8) (switch : EndSwitch) (active : Bool)
  | endSwitchChange (barrier : Fin 8) (switch : EndSwitch)
  | safetyLoopOccupied (barrier : Fin 8) (inputs : LoopInputs)
  | safetyLoopInputInactive (barrier : Fin 8)
  | safetyLoopClear (barrier : Fin 8)
  | approachLoopOccupied (loop : Fin 4) (inputs : LoopInputs)
  | approachLoopInputInactive (loop : Fin 4)
  | approachLoopClear (loop : Fin 4)
  | beamBroken (beam : Fin 8)
  | beamInputClear (beam : Fin 8)
  | beamClear (beam : Fin 8)
  | powerFailAssert
  | powerFailInputInactive
  | powerFailDeassert
  | resetInput (laneHold : Bool)
  | loadCellByteReceived (channel : Fin 16) (byte : Byte) (framingError : Bool)
  | hostLinkByteReceived (byte : Byte) (framingError : Bool)
  | mainPowerLoss
  | backupSupplyFailure
  deriving DecidableEq, Repr

/-- The presence input is active. -/
def LoopInputs.hasPresence : LoopInputs → Bool
  | .presence => true
  | .fault    => false
  | .both     => true

/-- The fault input is active. -/
def LoopInputs.hasFault : LoopInputs → Bool
  | .presence => false
  | .fault    => true
  | .both     => true

/-- The command that is the arrival of a request's frame: the request's own row of the table. -/
def Instr.ofRequest : Request → Instr
  | .identify => .identify
  | .statusRead => .statusRead
  | .reset => .reset
  | .configLane f => .configLane f
  | .configBridgeTiming f => .configBridgeTiming f
  | .configStream f => .configStream f
  | .configTimers f => .configTimers f
  | .calDeckMap decks => .calDeckMap decks
  | .calCell f => .calCell f
  | .calBridge f => .calBridge f
  | .calReferenceZero f => .calReferenceZero f
  | .timeSet value => .timeSet value
  | .arrival lane tag stream => .arrival lane tag stream
  | .laneTakeover lane => .laneTakeover lane
  | .laneRelease lane => .laneRelease lane
  | .laneRetry lane => .laneRetry lane
  | .laneBackout lane => .laneBackout lane
  | .barrierCommand lane barrier command => .barrierCommand lane barrier command
  | .barrierReset barrier => .barrierReset barrier
  | .weightRead bridge => .weightRead bridge
  | .zeroNow bridge => .zeroNow bridge
  | .zeroWaive bridge => .zeroWaive bridge
  | .channelRead channel => .channelRead channel
  | .channelClear channel => .channelClear channel
  | .permitAnswer f => .permitAnswer f
  | .invalidate code account tag => .invalidate code account tag
  | .creditSet account credit stopped => .creditSet account credit stopped
  | .cacheRead => .cacheRead
  | .refusalRead => .refusalRead
  | .refusalClear records overflow => .refusalClear records overflow
  | .refusalMask setting => .refusalMask setting
  | .visitRead kind operand => .visitRead kind operand
  | .visitCancel kind operand => .visitCancel kind operand
  | .tareWrite f => .tareWrite f
  | .tareDelete tag => .tareDelete tag
  | .tareRead kind operand => .tareRead kind operand
  | .ticketRead number => .ticketRead number
  | .ticketCollect number => .ticketCollect number
  | .ticketBase number => .ticketBase number

end Sys2Proof
end

