-- ==== Sys2Proof/Decode.lean ====
section
/-! DEFINITION. The command a table word spells. The part has no instruction words: no row of spec/opcode_table.json gives
bits, so no word spells a command. The frames of the host link, which are its encodings, are read in Machine/Codec.lean. -/

namespace Sys2Proof

/-- The command a word of the table spells: none, since no row gives bits. -/
def decodeTableWord (_nbits _w : Nat) : Option Instr := none

end Sys2Proof
end

