-- ==== Sys2Proof/Machine/Codec.lean ====
section
/-! DEFINITION. The requests as frames: the kind byte and payload of each request (section 12.7, R189), and the reading of
a received kind and payload back into a request, an unknown kind or a bad length. -/

namespace Sys2Proof.Machine

/-! ### Fields of 2 and 4 bytes, most-significant byte first (section 12.8) -/

def halfOf (a b : Byte) : Half := a ++ b
def wordOf (a b c d : Byte) : Word := a ++ b ++ c ++ d

def halfBytes (h : Half) : List Byte := [h.extractLsb' 8 8, h.extractLsb' 0 8]
def wordBytes (w : Word) : List Byte := [w.extractLsb' 24 8, w.extractLsb' 16 8, w.extractLsb' 8 8, w.extractLsb' 0 8]

/-- A selector: its form byte, then its number (R189). -/
def selectorBytes (x : Selector) : List Byte := [x.form, x.number]

/-- The kind byte of a request (section 12.7). -/
def requestKind : Request → Byte
  | .identify => 0x01
  | .statusRead => 0x02
  | .reset => 0x03
  | .configLane _ => 0x08
  | .configBridgeTiming _ => 0x09
  | .configStream _ => 0x0A
  | .configTimers _ => 0x0B
  | .calDeckMap _ => 0x10
  | .calCell _ => 0x11
  | .calBridge _ => 0x12
  | .calReferenceZero _ => 0x13
  | .timeSet _ => 0x14
  | .arrival _ _ _ => 0x18
  | .laneTakeover _ => 0x19
  | .laneRelease _ => 0x1A
  | .laneRetry _ => 0x1B
  | .laneBackout _ => 0x1C
  | .barrierCommand _ _ _ => 0x1E
  | .barrierReset _ => 0x1F
  | .weightRead _ => 0x20
  | .zeroNow _ => 0x21
  | .zeroWaive _ => 0x22
  | .channelRead _ => 0x23
  | .channelClear _ => 0x24
  | .permitAnswer _ => 0x28
  | .invalidate _ _ _ => 0x29
  | .creditSet _ _ _ => 0x2A
  | .cacheRead => 0x2B
  | .refusalRead => 0x2C
  | .refusalClear _ _ => 0x2D
  | .refusalMask _ => 0x2E
  | .visitRead _ _ => 0x30
  | .visitCancel _ _ => 0x31
  | .tareWrite _ => 0x32
  | .tareDelete _ => 0x33
  | .tareRead _ _ => 0x34
  | .ticketRead _ => 0x38
  | .ticketCollect _ => 0x39
  | .ticketBase _ => 0x3A

/-- The permit of an ENTRY answer (section 12.8, offsets 6 to 19). -/
def entryBytes : Option AnswerEntry → List Byte
  | none => []
  | some e =>
    wordBytes e.pfx ++ [e.length] ++ halfBytes e.account ++ halfBytes e.streams ++ wordBytes e.credit ++ [e.flags]

/-- The payload of a request: its fields in the order its rule names them (R189). -/
def requestPayload : Request → List Byte
  | .identify => []
  | .statusRead => []
  | .reset => []
  | .configLane f =>
    [f.lane, f.role, f.bridge, f.front, f.rear] ++ selectorBytes f.loop ++ [f.fallback]
  | .configBridgeTiming f =>
    [f.bridge, f.period] ++ halfBytes f.zeroInterval ++ [f.urgent, f.hold, f.empty, f.captureTimeout]
  | .configStream f =>
    [f.stream] ++ wordBytes f.rate ++ wordBytes f.minCharge ++ [f.enabled]
  | .configTimers f =>
    [f.identity, f.entry, f.motion, f.query, f.aging] ++ halfBytes f.tareDays ++ [f.highWater]
  | .calDeckMap decks => decks.toList
  | .calCell f =>
    [f.channel, f.source] ++ wordBytes f.zero ++ wordBytes f.span
  | .calBridge f =>
    [f.bridge, f.first, f.second] ++ halfBytes f.interval ++ wordBytes f.maximum ++ [f.filter, f.window] ++
      wordBytes f.band ++ [f.zrForm] ++ halfBytes f.zr
  | .calReferenceZero f =>
    [f.bridge, f.source] ++ wordBytes f.zero
  | .timeSet value => wordBytes value
  | .arrival lane tag stream => [lane] ++ wordBytes tag ++ [stream]
  | .laneTakeover lane => [lane]
  | .laneRelease lane => [lane]
  | .laneRetry lane => [lane]
  | .laneBackout lane => [lane]
  | .barrierCommand lane barrier command => [lane, barrier, command]
  | .barrierReset barrier => [barrier]
  | .weightRead bridge => selectorBytes bridge
  | .zeroNow bridge => [bridge]
  | .zeroWaive bridge => [bridge]
  | .channelRead channel => selectorBytes channel
  | .channelClear channel => selectorBytes channel
  | .permitAnswer f => [f.number] ++ wordBytes f.tag ++ [f.answer] ++ entryBytes f.entry
  | .invalidate code account tag => [code] ++ halfBytes account ++ wordBytes tag
  | .creditSet account credit stopped => halfBytes account ++ wordBytes credit ++ [stopped]
  | .cacheRead => []
  | .refusalRead => []
  | .refusalClear records overflow => [records, overflow]
  | .refusalMask setting => [setting]
  | .visitRead kind operand => [kind] ++ wordBytes operand
  | .visitCancel kind operand => [kind] ++ wordBytes operand
  | .tareWrite f =>
    wordBytes f.tag ++ wordBytes f.tare ++ halfBytes f.interval ++ [f.bridge]
  | .tareDelete tag => wordBytes tag
  | .tareRead kind operand => [kind] ++ wordBytes operand
  | .ticketRead number => wordBytes number
  | .ticketCollect number => wordBytes number
  | .ticketBase number => wordBytes number

/-! ### Reading a payload: nothing where the length is not the one the kind requires (R189) -/

def readIdentify : List Byte → Option Request
  | [] => some (.identify)
  | _ => none

def readStatusRead : List Byte → Option Request
  | [] => some (.statusRead)
  | _ => none

def readReset : List Byte → Option Request
  | [] => some (.reset)
  | _ => none

def readConfigLane : List Byte → Option Request
  | [x0, x1, x2, x3, x4, x5, x6, x7] => some (.configLane ⟨x0, x1, x2, x3, x4, ⟨x5, x6⟩, x7⟩)
  | _ => none

def readConfigBridgeTiming : List Byte → Option Request
  | [x0, x1, x2, x3, x4, x5, x6, x7] => some (.configBridgeTiming ⟨x0, x1, halfOf x2 x3, x4, x5, x6, x7⟩)
  | _ => none

def readConfigStream : List Byte → Option Request
  | [x0, x1, x2, x3, x4, x5, x6, x7, x8, x9] => some (.configStream ⟨x0, wordOf x1 x2 x3 x4, wordOf x5 x6 x7 x8, x9⟩)
  | _ => none

def readConfigTimers : List Byte → Option Request
  | [x0, x1, x2, x3, x4, x5, x6, x7] => some (.configTimers ⟨x0, x1, x2, x3, x4, halfOf x5 x6, x7⟩)
  | _ => none

def readCalDeckMap : List Byte → Option Request
  | [x0, x1, x2, x3, x4, x5, x6, x7, x8, x9, x10, x11, x12, x13, x14, x15] =>
    some (.calDeckMap ⟨#[x0, x1, x2, x3, x4, x5, x6, x7, x8, x9, x10, x11, x12, x13, x14, x15], rfl⟩)
  | _ => none

def readCalCell : List Byte → Option Request
  | [x0, x1, x2, x3, x4, x5, x6, x7, x8, x9] => some (.calCell ⟨x0, x1, wordOf x2 x3 x4 x5, wordOf x6 x7 x8 x9⟩)
  | _ => none

def readCalBridge : List Byte → Option Request
  | [x0, x1, x2, x3, x4, x5, x6, x7, x8, x9, x10, x11, x12, x13, x14, x15, x16, x17] =>
    some (.calBridge ⟨x0, x1, x2, halfOf x3 x4, wordOf x5 x6 x7 x8, x9, x10, wordOf x11 x12 x13 x14, x15, halfOf x16 x17⟩)
  | _ => none

def readCalReferenceZero : List Byte → Option Request
  | [x0, x1, x2, x3, x4, x5] => some (.calReferenceZero ⟨x0, x1, wordOf x2 x3 x4 x5⟩)
  | _ => none

def readTimeSet : List Byte → Option Request
  | [x0, x1, x2, x3] => some (.timeSet (wordOf x0 x1 x2 x3))
  | _ => none

def readArrival : List Byte → Option Request
  | [x0, x1, x2, x3, x4, x5] => some (.arrival x0 (wordOf x1 x2 x3 x4) x5)
  | _ => none

def readLaneTakeover : List Byte → Option Request
  | [x0] => some (.laneTakeover x0)
  | _ => none

def readLaneRelease : List Byte → Option Request
  | [x0] => some (.laneRelease x0)
  | _ => none

def readLaneRetry : List Byte → Option Request
  | [x0] => some (.laneRetry x0)
  | _ => none

def readLaneBackout : List Byte → Option Request
  | [x0] => some (.laneBackout x0)
  | _ => none

def readBarrierCommand : List Byte → Option Request
  | [x0, x1, x2] => some (.barrierCommand x0 x1 x2)
  | _ => none

def readBarrierReset : List Byte → Option Request
  | [x0] => some (.barrierReset x0)
  | _ => none

def readWeightRead : List Byte → Option Request
  | [x0, x1] => some (.weightRead ⟨x0, x1⟩)
  | _ => none

def readZeroNow : List Byte → Option Request
  | [x0] => some (.zeroNow x0)
  | _ => none

def readZeroWaive : List Byte → Option Request
  | [x0] => some (.zeroWaive x0)
  | _ => none

def readChannelRead : List Byte → Option Request
  | [x0, x1] => some (.channelRead ⟨x0, x1⟩)
  | _ => none

def readChannelClear : List Byte → Option Request
  | [x0, x1] => some (.channelClear ⟨x0, x1⟩)
  | _ => none

def readPermitAnswer : List Byte → Option Request
  | [n, t0, t1, t2, t3, a] => some (.permitAnswer ⟨n, wordOf t0 t1 t2 t3, a, none⟩)
  | [n, t0, t1, t2, t3, a, p0, p1, p2, p3, l, c0, c1, s0, s1, k0, k1, k2, k3, f] =>
    some (.permitAnswer
      ⟨n, wordOf t0 t1 t2 t3, a,
        some ⟨wordOf p0 p1 p2 p3, l, halfOf c0 c1, halfOf s0 s1, wordOf k0 k1 k2 k3, f⟩⟩)
  | _ => none

def readInvalidate : List Byte → Option Request
  | [x0, x1, x2, x3, x4, x5, x6] => some (.invalidate x0 (halfOf x1 x2) (wordOf x3 x4 x5 x6))
  | _ => none

def readCreditSet : List Byte → Option Request
  | [x0, x1, x2, x3, x4, x5, x6] => some (.creditSet (halfOf x0 x1) (wordOf x2 x3 x4 x5) x6)
  | _ => none

def readCacheRead : List Byte → Option Request
  | [] => some (.cacheRead)
  | _ => none

def readRefusalRead : List Byte → Option Request
  | [] => some (.refusalRead)
  | _ => none

def readRefusalClear : List Byte → Option Request
  | [x0, x1] => some (.refusalClear x0 x1)
  | _ => none

def readRefusalMask : List Byte → Option Request
  | [x0] => some (.refusalMask x0)
  | _ => none

def readVisitRead : List Byte → Option Request
  | [x0, x1, x2, x3, x4] => some (.visitRead x0 (wordOf x1 x2 x3 x4))
  | _ => none

def readVisitCancel : List Byte → Option Request
  | [x0, x1, x2, x3, x4] => some (.visitCancel x0 (wordOf x1 x2 x3 x4))
  | _ => none

def readTareWrite : List Byte → Option Request
  | [x0, x1, x2, x3, x4, x5, x6, x7, x8, x9, x10] =>
    some (.tareWrite ⟨wordOf x0 x1 x2 x3, wordOf x4 x5 x6 x7, halfOf x8 x9, x10⟩)
  | _ => none

def readTareDelete : List Byte → Option Request
  | [x0, x1, x2, x3] => some (.tareDelete (wordOf x0 x1 x2 x3))
  | _ => none

def readTareRead : List Byte → Option Request
  | [x0, x1, x2, x3, x4] => some (.tareRead x0 (wordOf x1 x2 x3 x4))
  | _ => none

def readTicketRead : List Byte → Option Request
  | [x0, x1, x2, x3] => some (.ticketRead (wordOf x0 x1 x2 x3))
  | _ => none

def readTicketCollect : List Byte → Option Request
  | [x0, x1, x2, x3] => some (.ticketCollect (wordOf x0 x1 x2 x3))
  | _ => none

def readTicketBase : List Byte → Option Request
  | [x0, x1, x2, x3] => some (.ticketBase (wordOf x0 x1 x2 x3))
  | _ => none

/-- The reader of a request kind: nothing for a kind that is no request's (section 12.7). -/
def readerOf (kind : Byte) : Option (List Byte → Option Request) :=
  match kind.toNat with
  | 0x01 => some readIdentify
  | 0x02 => some readStatusRead
  | 0x03 => some readReset
  | 0x08 => some readConfigLane
  | 0x09 => some readConfigBridgeTiming
  | 0x0A => some readConfigStream
  | 0x0B => some readConfigTimers
  | 0x10 => some readCalDeckMap
  | 0x11 => some readCalCell
  | 0x12 => some readCalBridge
  | 0x13 => some readCalReferenceZero
  | 0x14 => some readTimeSet
  | 0x18 => some readArrival
  | 0x19 => some readLaneTakeover
  | 0x1A => some readLaneRelease
  | 0x1B => some readLaneRetry
  | 0x1C => some readLaneBackout
  | 0x1E => some readBarrierCommand
  | 0x1F => some readBarrierReset
  | 0x20 => some readWeightRead
  | 0x21 => some readZeroNow
  | 0x22 => some readZeroWaive
  | 0x23 => some readChannelRead
  | 0x24 => some readChannelClear
  | 0x28 => some readPermitAnswer
  | 0x29 => some readInvalidate
  | 0x2A => some readCreditSet
  | 0x2B => some readCacheRead
  | 0x2C => some readRefusalRead
  | 0x2D => some readRefusalClear
  | 0x2E => some readRefusalMask
  | 0x30 => some readVisitRead
  | 0x31 => some readVisitCancel
  | 0x32 => some readTareWrite
  | 0x33 => some readTareDelete
  | 0x34 => some readTareRead
  | 0x38 => some readTicketRead
  | 0x39 => some readTicketCollect
  | 0x3A => some readTicketBase
  | _ => none

end Sys2Proof.Machine
end

