-- ==== Sys2Proof/Machine/Records.lean ====
section
/-! DEFINITION. The named values and the retained records of the part: lane configurations, site settings, calibration,
weighing records, tickets, visits and tares, and the retained contents of the backup domain as one structure (R181). -/

namespace Sys2Proof.Machine

/-- A lane, bridge or deck number, 0 to 3 (section 1.6). -/
abbrev LaneNo := Fin 4
/-- A bridge number, 0 to 3. -/
abbrev BridgeNo := Fin 4
/-- A deck number, 0 to 3. -/
abbrev DeckNo := Fin 4
/-- An approach loop number, 0 to 3. -/
abbrev LoopNo := Fin 4
/-- A barrier number, 0 to 7. -/
abbrev BarrierNo := Fin 8
/-- A deck-end beam number, 0 to 7 (R70). -/
abbrev BeamNo := Fin 8
/-- A channel number, 0 to 15. -/
abbrev ChannelNo := Fin 16
/-- A stream number, 0 to 15. -/
abbrev StreamNo := Fin 16

/-- A lane's role (R74). -/
inductive Role
  | none | inbound | outbound | bypass
  deriving DecidableEq, Repr

/-- What decides a vehicle whose query goes unanswered (R74, R140). -/
inductive Fallback
  | refuse | provisional
  deriving DecidableEq, Repr

/-- The six configuration items of a lane (R74). -/
structure LaneConfig where
  role     : Role
  bridge   : Option BridgeNo
  front    : Option BarrierNo
  rear     : Option BarrierNo
  loop     : Option LoopNo
  fallback : Fallback
  deriving DecidableEq, Repr

/-- One entry of the stream table (R112). -/
structure Stream where
  rate      : Nat
  minCharge : Nat
  enabled   : Bool
  deriving DecidableEq, Repr

/-- The CONFIG_TIMERS settings (R76): seconds, but for the tare validity in days and the mark in tickets. -/
structure SiteTimers where
  identity  : Nat
  entry     : Nat
  motion    : Nat
  query     : Nat
  aging     : Nat
  tareDays  : Nat
  highWater : Nat
  deriving DecidableEq, Repr

/-- The CONFIG_BRIDGE_TIMING settings of one bridge (R33). -/
structure BridgeTiming where
  zeroInterval   : Nat
  urgent         : Nat
  hold           : Nat
  empty          : Nat
  captureTimeout : Nat
  deriving DecidableEq, Repr

/-- A channel's calibration: its zero z, its span s and its calibrated mark (section 1.2). -/
structure ChannelCal where
  zero       : Int
  span       : Nat
  calibrated : Bool
  deriving DecidableEq, Repr

/-- A bridge's calibration (section 2.2): member decks, mark, d, Max, L, M, stability band, zr and Z0. -/
structure BridgeCal where
  members    : List DeckNo
  calibrated : Bool
  interval   : Nat
  maximum    : Nat
  filter     : Nat
  window     : Nat
  band       : Nat
  zr         : Nat
  z0         : Int
  deriving DecidableEq, Repr

/-- A weighing record (R47). -/
structure WeighingRecord where
  weight     : Int
  interval   : Nat
  bridge     : BridgeNo
  decks      : List DeckNo
  time       : Nat
  calCounter : Nat
  belowMin   : Bool
  zeroWaived : Bool
  deriving DecidableEq, Repr

/-- Which way the material went (R165). -/
inductive Direction
  | delivery | collection
  deriving DecidableEq, Repr

/-- Where a ticket's second part came from (R163). -/
inductive Source
  | secondWeighing | storedTare
  deriving DecidableEq, Repr

/-- The fields of a ticket fixed at its computation (R167). -/
structure TicketBody where
  visit          : Nat
  tag            : Word
  account        : Nat
  stream         : StreamNo
  direction      : Direction
  firstWeight    : Int
  firstInterval  : Nat
  firstBridge    : BridgeNo
  firstTime      : Nat
  secondValue    : Int
  secondInterval : Nat
  secondTime     : Nat
  source         : Source
  secondBridge   : Option BridgeNo
  net            : Int
  ticketInterval : Nat
  rate           : Nat
  minCharge      : Nat
  charge         : Nat
  provisional    : Bool
  belowMin       : Bool
  zeroWaived     : Bool
  deriving DecidableEq, Repr

/-- A ticket of the journal: its body, the fields set at issue, and its collected mark (R167, R174). -/
structure Ticket where
  body       : TicketBody
  number     : Nat
  timeUnset  : Bool
  issueTime  : Nat
  calCounter : Nat
  collected  : Bool
  deriving DecidableEq, Repr

/-- The state of a visit (R145). -/
inductive VisitState
  | admitted | weighingIn | onSite | weighingOut | ticketPending | ticketed | exiting
  deriving DecidableEq, Repr

/-- A visit record (R145). The place of a pending ticket stands in the pending-ticket order. -/
structure Visit where
  number       : Nat
  tag          : Word
  account      : Nat
  stream       : StreamNo
  provisional  : Bool
  storedTare   : Bool
  singlePass   : Bool
  state        : VisitState
  entryLane    : LaneNo
  arrival      : Nat
  currentLane  : Option LaneNo
  first        : Option WeighingRecord
  pending      : Option TicketBody
  ticketNumber : Option Nat
  deriving DecidableEq, Repr

/-- An occupied record of the tare store (R157). -/
structure Tare where
  tag      : Word
  tare     : Int
  interval : Nat
  bridge   : Option BridgeNo
  time     : Nat
  deriving DecidableEq, Repr

/-- Item 1 of the retained contents: the ticket journal with its collected marks, the ticket counter and the
ticketing-held flag (R174, R175, R180). The journal stands oldest first. -/
structure JournalStore where
  tickets : List Ticket
  counter : Nat
  held    : Bool
  deriving DecidableEq, Repr

/-- Item 2: the visit table, in order of visit number, the visit counter and the pending-ticket order (R145, R146, R168). -/
structure VisitStore where
  records : List Visit
  counter : Nat
  order   : List Nat
  deriving DecidableEq, Repr

/-- Item 4: the site settings (R181). -/
structure SiteSettings where
  lanes   : Table 4 LaneConfig
  streams : Table 16 Stream
  timers  : SiteTimers
  deckMap : Table 16 (Option DeckNo)
  period  : Nat
  timing  : Table 4 BridgeTiming
  deriving DecidableEq, Repr

/-- Item 5: the calibration (R181). -/
structure Calibration where
  channels : Table 16 ChannelCal
  bridges  : Table 4 BridgeCal
  deriving DecidableEq, Repr

/-- The retained contents, items 1 to 8 of R181, in that order: journal, visits, tares, site settings, calibration,
calibration counter, yard clock with its unset mark, check word. -/
structure Retained where
  journal    : JournalStore
  visits     : VisitStore
  tares      : Table 128 (Option Tare)
  site       : SiteSettings
  cal        : Calibration
  calCounter : Nat
  clock      : Nat
  clockUnset : Bool
  checkWord  : Word
  deriving DecidableEq, Repr

end Sys2Proof.Machine
end

