-- ==== Sys2Proof/Config.lean ====
section
/-! DEFINITION. What an implementation fixes and what the spec leaves free, as constants without a body. -/

namespace Sys2Proof.Config

open Sys2Proof.Machine

/-- FREE VALUES (log entry 1). R181: "The packing of the items into words is internal to the backup domain". Each item of
the retained contents packs into 32-bit words by one of these; the order of the items is R181's. -/
opaque packJournal : JournalStore → List Word
/-- The packing of item 2, the visit table, visit counter and pending-ticket order. -/
opaque packVisits : VisitStore → List Word
/-- The packing of item 3, the tare store. -/
opaque packTares : Table 128 (Option Tare) → List Word
/-- The packing of item 4, the site settings. -/
opaque packSite : SiteSettings → List Word
/-- The packing of item 5, the calibration. -/
opaque packCalibration : Calibration → List Word
/-- The packing of item 6, the calibration counter. -/
opaque packCalCounter : Nat → List Word
/-- The packing of item 7, of which only the yard clock's unset mark is part of the image. -/
opaque packClockUnset : Bool → List Word

/-- FREE VALUE (log entry 2). R29, R108: at one evaluation the zero capture attempt and the grant decision "may be taken
in either order". True: the grant decision is taken first. Read at the model's own counter of evaluations. -/
opaque grantFirst : Nat → Bool

end Sys2Proof.Config
end

