-- ==== Sys2Proof/Machine/Arith.lean ====
section
/-! DEFINITION. The arithmetic of section 1.6: ranges, rounding to the nearest with ties away from zero, clamping, and the
counters that skip or wrap. -/

namespace Sys2Proof.Machine

/-- The lowest weight or money value, −2,147,483,648 (section 1.6). -/
def int32Min : Int := -2147483648

/-- The highest weight or money value, 2,147,483,647 (section 1.6). -/
def int32Max : Int := 2147483647

/-- The value lies in the signed 32-bit range of weights and money (section 1.6). -/
def inInt32 (v : Int) : Bool := int32Min ≤ v && v ≤ int32Max

/-- `a / b` rounded to the nearest whole number, ties away from zero (section 1.6, Rounding). -/
def roundDiv (a : Int) (b : Nat) : Int :=
  let q : Int := ((2 * a.natAbs + b) / (2 * b) : Nat)
  if a < 0 then -q else q

/-- A setting outside its range is taken as the nearest end of the range (R193). -/
def clampSetting (lo hi v : Nat) : Nat := if v < lo then lo else if hi < v then hi else v

/-- A 32-bit count that goes from 4,294,967,295 to 1: the calibration counter (R11), the ticket numbers (R174). -/
def succSkipZero (n : Nat) : Nat := if 4294967295 ≤ n then 1 else n + 1

/-- The yard clock's next value, 4,294,967,295 going to 0 (R185). -/
def succClock (n : Nat) : Nat := if 4294967295 ≤ n then 0 else n + 1

/-- The visit counter's next value, 65,535 going to 1 (R146). -/
def succVisit (n : Nat) : Nat := if 65535 ≤ n then 1 else n + 1

/-- The query counter's next value, 255 going to 1 (R133). -/
def succQuery (n : Nat) : Nat := if 255 ≤ n then 1 else n + 1

/-- One more, unless already at the limit, where it stays: sample age, stable run, backlog, reversal and repeat counts. -/
def countTo (limit n : Nat) : Nat := if limit ≤ n then n else n + 1

/-- The sum of a list of weights, formed exactly (R18, R19, R21). -/
def sumInt : List Int → Int
  | [] => 0
  | x :: xs => x + sumInt xs

/-- The newest `n` of a list that stands oldest first (R19, R24). -/
def lastOf {α : Type} (n : Nat) (xs : List α) : List α := xs.drop (xs.length - n)

/-- The largest of a list of weights, from a starting value. -/
def maxFrom (m : Int) : List Int → Int
  | [] => m
  | x :: xs => maxFrom (if m < x then x else m) xs

/-- The smallest of a list of weights, from a starting value. -/
def minFrom (m : Int) : List Int → Int
  | [] => m
  | x :: xs => minFrom (if x < m then x else m) xs

/-- The largest less the smallest of a list of bridge sums (R23). -/
def spread : List Int → Int
  | [] => 0
  | x :: xs => maxFrom x xs - minFrom x xs

/-- Do one thing for each of a list of units, in the list's order. -/
def forEach {α σ : Type} (xs : List α) (f : α → σ → σ) (s : σ) : σ := xs.foldl (fun t x => f x t) s

/-- A byte as a number less than `n`, or nothing when it is outside that range. -/
def ofByte (n : Nat) (b : Byte) : Option (Fin n) := if h : b.toNat < n then some ⟨b.toNat, h⟩ else none

end Sys2Proof.Machine
end

