-- ==== Sys2Proof/Machine/Backup.lean ====
section
/-! DEFINITION. The backup domain: the retained image, its check word, and the contents after the lost outcome
(R181, R184). -/

namespace Sys2Proof.Machine

/-- The retained image: items 1 to 7 in the order of R181, the yard clock's seconds left out. -/
def Retained.image (r : Retained) : List Word :=
  Config.packJournal r.journal ++ Config.packVisits r.visits ++ Config.packTares r.tares ++
  Config.packSite r.site ++ Config.packCalibration r.cal ++ Config.packCalCounter r.calCounter ++
  Config.packClockUnset r.clockUnset

/-- The running sum of R181: rotated left by one bit, then the word added modulo 2^32. -/
def checkSum (words : List Word) : Word := words.foldl (fun sum w => sum.rotateLeft 1 + w) 0

/-- The check word the contents call for. -/
def Retained.computedCheck (r : Retained) : Word := checkSum r.image

/-- The contents with the check word rewritten over the whole image (R181). -/
def Retained.sealed (r : Retained) : Retained := { r with checkWord := r.computedCheck }

/-- The stored check word agrees with the image (R183). -/
def Retained.intact (r : Retained) : Bool := r.computedCheck == r.checkWord

/-- A lane after the lost outcome (R100). -/
def LaneConfig.lost : LaneConfig :=
  { role := .none, bridge := none, front := none, rear := none, loop := none, fallback := .refuse }

/-- A stream after the lost outcome (R113). -/
def Stream.lost : Stream := { rate := 0, minCharge := 0, enabled := false }

/-- The CONFIG_TIMERS defaults (R76). -/
def SiteTimers.default : SiteTimers :=
  { identity := 10, entry := 30, motion := 6, query := 5, aging := 10, tareDays := 90, highWater := 200 }

/-- The CONFIG_BRIDGE_TIMING defaults (R33, R40). -/
def BridgeTiming.default : BridgeTiming :=
  { zeroInterval := 300, urgent := 4, hold := 3, empty := 10, captureTimeout := 30 }

/-- A channel's calibration after the lost outcome (R16). -/
def ChannelCal.lost : ChannelCal := { zero := 0, span := 1, calibrated := false }

/-- A bridge's calibration after the lost outcome (R40). -/
def BridgeCal.lost : BridgeCal :=
  { members := [], calibrated := false, interval := 1000, maximum := 100000, filter := 1, window := 2,
    band := 0, zr := 2, z0 := 0 }

/-- The site settings after the lost outcome (R16, R40, R76, R100, R113). -/
def SiteSettings.lost : SiteSettings :=
  { lanes := .all 4 .lost, streams := .all 16 .lost, timers := .default, deckMap := .all 16 none, period := 20,
    timing := .all 4 .default }

/-- The retained contents after the lost outcome, with the check word computed over them and stored (R184). -/
def Retained.lost : Retained :=
  Retained.sealed
    { journal := { tickets := [], counter := 1, held := true }
      visits := { records := [], counter := 1, order := [] }
      tares := .all 128 none
      site := .lost
      cal := { channels := .all 16 .lost, bridges := .all 4 .lost }
      calCounter := 0
      clock := 0
      clockUnset := true
      checkWord := 0 }

/-- The repair of one visit at the start-up check: nothing for a visit that is removed (R156, R183). -/
def Visit.repaired (v : Visit) : Option Visit :=
  match v.state with
  | .admitted      => none
  | .weighingIn    => none
  | .weighingOut   => some { v with state := .onSite, currentLane := none }
  | .exiting       => some { v with state := .ticketed, currentLane := none }
  | .onSite        => some { v with currentLane := none }
  | .ticketPending => some { v with currentLane := none }
  | .ticketed      => some { v with currentLane := none }

/-- The contents after the repairs of the retained outcome, with the check word rewritten (R183). -/
def Retained.repaired (r : Retained) : Retained :=
  Retained.sealed { r with visits := { r.visits with records := r.visits.records.filterMap Visit.repaired } }

end Sys2Proof.Machine
end

