-- ==== Sys2Proof/Machine/Frames.lean ====
section
/-! DEFINITION. The named states and reasons the part shows, and the contents of the frames it sends: reports, permit
queries and replies, each with the fields its rule names (chapter 12 gives the byte layouts, Machine/Wire.lean forms them). -/

namespace Sys2Proof.Machine

/-- The condition of a deck (section 2.1). -/
inductive DeckCondition
  | noChannels | uncalibrated | stale | over | valid
  deriving DecidableEq, Repr

/-- CHN's judgement of a channel (R7); unused is what CHANNEL_READ shows for an unused channel (R14). -/
inductive Judgement
  | uncalibrated | stale | faulted | over | good | unused
  deriving DecidableEq, Repr

/-- The state of a bridge (R23). -/
inductive BridgeState
  | notReady | calibrating | over | under | motion | stable
  deriving DecidableEq, Repr

/-- A blocking condition of a capture, which becomes the reason of a failure (R42, R45). -/
inductive Blocking
  | notReady | calibrating | over | under | motion | beam | barrier
  deriving DecidableEq, Repr

/-- Why a capture was cancelled (chapter 3, R52 to R54). -/
inductive Cancellation
  | takeover | barrierFault | powerFail
  deriving DecidableEq, Repr

/-- A refusal reason (R121). -/
inductive RefusalReason
  | alreadyOnSite | streamNotPermitted | accountStopped | credit | unknownTag | queryTimeout | noVisit
  | alreadyInLane | notTicketed | backedOut
  deriving DecidableEq, Repr

/-- A lane's last reason: of a refusal, a capture failure or a cancellation (section 5.2). -/
inductive Reason
  | refusal (r : RefusalReason)
  | capture (b : Blocking)
  | cancelled (c : Cancellation)
  deriving DecidableEq, Repr

/-- The state of a barrier (section 4.1). -/
inductive BarrierState
  | down | raising | up | lowering | fault
  deriving DecidableEq, Repr

/-- The fault reason of a barrier (section 4.1). -/
inductive FaultReason
  | none | motionTimeout | forced | switchConflict | unknownPosition
  deriving DecidableEq, Repr

/-- The seventeen states of a lane (section 5.2). -/
inductive LaneState
  | idle | awaitId | noId | admitting | siteFull | refused | awaitBridge | entering | weighing | captureFailed
  | ticketWait | leaving | backingOut | passing | laneFault | takeoverPending | manual
  deriving DecidableEq, Repr

/-- A crossing mark (R78). -/
inductive CrossingMark
  | none | seen | passed
  deriving DecidableEq, Repr

/-- A lane signal (R77). -/
inductive Signal
  | red | green
  deriving DecidableEq, Repr

/-- The state of a query slot (R132). -/
inductive SlotState
  | free | active | late
  deriving DecidableEq, Repr

/-- The event of a ZERO_EVENT report (R41). -/
inductive ZeroEvent
  | urgent | captured | limit
  deriving DecidableEq, Repr

/-- The cause of a reset (R197). -/
inductive ResetCause
  | input | request
  deriving DecidableEq, Repr

/-- The status codes of section 12.7, in their order; the reserved value 0x10 is given by no request. -/
inductive Status
  | ok | late | busy | unknownKind | badLength | outOfRange | calLocked | laneBusy | bridgeHeld | notStable | zeroRange
  | noSuchQuery | noSuchVisit | noSuchTicket | visitBusy | powerFail | sharedBarrier
  deriving DecidableEq, Repr

/-- A timer shown as seconds, STOPPED or EXPIRED (R101, R132). -/
inductive ShownTimer
  | seconds (n : Nat) | stopped | expired
  deriving DecidableEq, Repr

/-- The held identity of a lane: tag number and stream (section 5.2). -/
structure Identity where
  tag    : Word
  stream : StreamNo
  deriving DecidableEq, Repr

/-! ### Reports -/

/-- A LANE_STATE report (R77). -/
structure LaneStateReport where
  lane     : LaneNo
  left     : LaneState
  entered  : LaneState
  identity : Option Identity
  visit    : Option Nat
  reason   : Option Reason
  clock    : Nat
  deriving DecidableEq, Repr

/-- A BARRIER_FAULT report (R65). -/
structure BarrierFaultReport where
  barrier   : BarrierNo
  reason    : FaultReason
  before    : BarrierState
  upActive  : Bool
  downActive : Bool
  occupied  : Bool
  reversals : Nat
  lanes     : List LaneNo
  clock     : Nat
  deriving DecidableEq, Repr

/-- A CAPTURE_DONE report (R49). -/
structure CaptureDoneReport where
  bridge : BridgeNo
  lane   : LaneNo
  visit  : Nat
  start  : Nat
  record : WeighingRecord
  deriving DecidableEq, Repr

/-- A CAPTURE_FAILED report (R51). -/
structure CaptureFailedReport where
  bridge : BridgeNo
  lane   : LaneNo
  visit  : Nat
  reason : Blocking
  start  : Nat
  clock  : Nat
  state  : BridgeState
  gross  : Option Int
  weight : Option Int
  deriving DecidableEq, Repr

/-- A TICKET_ISSUED report (R171). -/
structure TicketIssuedReport where
  ticket      : Ticket
  currentLane : Option LaneNo
  wasPending  : Bool
  deducted    : Nat
  credit      : Option Int
  deriving DecidableEq, Repr

/-- A JOURNAL_HIGH report (R178). -/
structure JournalHighReport where
  uncollected : Nat
  mark        : Nat
  oldest      : Nat
  newest      : Nat
  clock       : Nat
  deriving DecidableEq, Repr

/-- A JOURNAL_FULL report (R179). -/
structure JournalFullReport where
  oldest  : Nat
  newest  : Nat
  pending : Nat
  clock   : Nat
  deriving DecidableEq, Repr

/-- The record a REFUSAL report carries (R127). -/
structure RefusalItem where
  record : Nat
  tag    : Word
  lane   : LaneNo
  reason : RefusalReason
  time   : Nat
  deriving DecidableEq, Repr

/-- A LATE_REFUSAL report (R139). -/
structure LateRefusalReport where
  number  : Nat
  tag     : Word
  lane    : LaneNo
  visit   : Nat
  state   : VisitState
  account : Nat
  reason  : RefusalReason
  clock   : Nat
  deriving DecidableEq, Repr

/-- A ZERO_EVENT report (R41); the candidate stands in a LIMIT report, the zero before in a CAPTURED report. -/
structure ZeroEventReport where
  bridge    : BridgeNo
  event     : ZeroEvent
  z0        : Int
  zb        : Int
  backlog   : Nat
  waived    : Bool
  clock     : Nat
  candidate : Option Int
  before    : Option Int
  deriving DecidableEq, Repr

/-- A TAKEOVER_GRANTED report (R96): `after` is the visit's state after its treatment, nothing for REMOVED, and is
read only when there was a lane visit. -/
structure TakeoverReport where
  lane      : LaneNo
  from_     : LaneState
  visit     : Option Nat
  after     : Option VisitState
  cancelled : Bool
  clock     : Nat
  deriving DecidableEq, Repr

/-- The reports, in the order of their kinds 0x40 to 0x50 (section 12.7). -/
inductive Report
  | resetDone (cause : ResetCause) (retained laneHold : Bool) (calCounter : Nat)
  | laneState (r : LaneStateReport)
  | barrierFault (r : BarrierFaultReport)
  | captureDone (r : CaptureDoneReport)
  | captureFailed (r : CaptureFailedReport)
  | ticketIssued (r : TicketIssuedReport)
  | journalHigh (r : JournalHighReport)
  | journalFull (r : JournalFullReport)
  | refusal (item : Option RefusalItem) (count : Nat) (overflow : Bool)
  | lateRefusal (r : LateRefusalReport)
  | zeroEvent (r : ZeroEventReport)
  | channelStall (channel : ChannelNo) (deck : Option DeckNo) (age clock : Nat)
  | channelFault (channel : ChannelNo) (deck : Option DeckNo) (counts : Int) (clock : Nat)
  | takeoverGranted (r : TakeoverReport)
  | backupLost
  | powerFail (clock cancelled : Nat)
  | calChanged (kind : Byte) (counter : Nat) (item : Option Nat)
  deriving DecidableEq, Repr

/-- A PERMIT_QUERY frame (R134). -/
structure QueryFrame where
  number : Nat
  tag    : Word
  lane   : LaneNo
  deriving DecidableEq, Repr

/-! ### Replies -/

/-- One channel entry of CHANNEL_READ (R14). -/
structure ChannelEntry where
  channel    : ChannelNo
  deck       : Option DeckNo
  lead       : Bool
  zero       : Int
  span       : Nat
  calibrated : Bool
  sample     : Option (Int × SampleStatus)
  age        : Nat
  weight     : Option Int
  judgement  : Judgement
  fault      : Bool
  stall      : Bool
  deriving DecidableEq, Repr

/-- One member deck of a bridge entry (R37). -/
structure MemberEntry where
  deck      : DeckNo
  condition : DeckCondition
  filtered  : Option Int
  deriving DecidableEq, Repr

/-- One bridge entry of WEIGHT_READ (R37). -/
structure BridgeEntry where
  bridge     : BridgeNo
  calibrated : Bool
  members    : List MemberEntry
  interval   : Nat
  maximum    : Nat
  zr         : Nat
  state      : BridgeState
  gross      : Option Int
  weight     : Option Int
  run        : Nat
  z0         : Int
  zb         : Int
  backlog    : Nat
  urgent     : Bool
  zeroTimer  : Nat
  waived     : Bool
  limit      : Bool
  holder     : Option LaneNo
  waiting    : List LaneNo
  capture    : Option (LaneNo × Nat)
  deriving DecidableEq, Repr

/-- One barrier entry (R73). -/
structure BarrierEntry where
  barrier      : BarrierNo
  state        : BarrierState
  pendingLower : Bool
  reason       : FaultReason
  reversals    : Nat
  upActive     : Bool
  downActive   : Bool
  occupied     : Bool
  presence     : Bool
  fault        : Bool
  lanes        : List LaneNo
  deriving DecidableEq, Repr

/-- One approach loop entry (R73). -/
structure LoopEntry where
  loop     : LoopNo
  occupied : Bool
  presence : Bool
  fault    : Bool
  lanes    : List LaneNo
  deriving DecidableEq, Repr

/-- One beam entry (R73). -/
structure BeamEntry where
  beam   : BeamNo
  bridge : BridgeNo
  side   : Nat
  broken : Bool
  deriving DecidableEq, Repr

/-- One lane entry (R101). -/
structure LaneEntry where
  lane       : LaneNo
  config     : LaneConfig
  state      : LaneState
  identity   : Option Identity
  visit      : Option Nat
  signal     : Signal
  idTimer    : ShownTimer
  entryTimer : ShownTimer
  frontMark  : CrossingMark
  rearMark   : CrossingMark
  entered    : Bool
  query      : Option Nat
  lastReason : Option Reason
  deriving DecidableEq, Repr

/-- What a query slot entry shows of a slot that is not FREE (R132). -/
structure SlotDetail where
  number      : Nat
  tag         : Word
  stream      : StreamNo
  deadline    : ShownTimer
  noInstall   : Bool
  answerHeld  : Bool
  provisional : Option Nat
  deriving DecidableEq, Repr

/-- One query slot entry (R132): a FREE slot's entry carries its state alone. -/
structure SlotEntry where
  state  : SlotState
  detail : Option SlotDetail
  deriving DecidableEq, Repr

/-- The STATUS_READ reply (R195). -/
structure StatusReply where
  clock          : Nat
  clockUnset     : Bool
  laneHold       : Bool
  reportCount    : Nat
  requestCount   : Nat
  visits         : Nat
  pendingTickets : Nat
  tickets        : Nat
  uncollected    : Nat
  oldest         : Option Nat
  newest         : Option Nat
  ticketCounter  : Nat
  lanes          : List LaneEntry
  slots          : List SlotEntry
  barriers       : List BarrierEntry
  loops          : List LoopEntry
  beams          : List BeamEntry
  deriving DecidableEq, Repr

/-- One item of CACHE_READ (R125). -/
structure CacheItem where
  slot       : Nat
  pfx        : Word
  length     : Nat
  account    : Nat
  streams    : Half
  credit     : Int
  stopped    : Bool
  storedTare : Bool
  tareRefresh : Bool
  bucket     : Nat
  deriving DecidableEq, Repr

/-- One record of REFUSAL_READ (R128). -/
structure RefusalEntry where
  record    : Nat
  tag       : Word
  lane      : LaneNo
  reason    : RefusalReason
  firstTime : Nat
  lastTime  : Nat
  repeats   : Nat
  deriving DecidableEq, Repr

/-- One summary of VISIT_READ ALL (R155). -/
structure VisitSummary where
  number      : Nat
  tag         : Word
  account     : Nat
  stream      : StreamNo
  state       : VisitState
  provisional : Bool
  storedTare  : Bool
  singlePass  : Bool
  currentLane : Option LaneNo
  deriving DecidableEq, Repr

/-- One record of TARE_READ (R161). -/
structure TareEntry where
  record : Nat
  tare   : Tare
  valid  : Bool
  deriving DecidableEq, Repr

/-- The outcome of an admission (section 7.3) or of an answer (R137, R141). -/
inductive AdmitOutcome
  | admitted (visit : Nat)
  | siteFull
  | query (number : Nat)
  | refused (reason : RefusalReason)
  | held
  deriving DecidableEq, Repr

/-- The granularity an INVALIDATE was performed at (R142). -/
inductive Granularity
  | all | account | covering | none
  deriving DecidableEq, Repr

/-- The outcome of TARE_WRITE (R159). -/
inductive TarePlacement
  | replacedSameTag
  | new
  | displaced (tag : Word) (time : Nat)
  deriving DecidableEq, Repr

/-- The contents of a reply after its status and link-flags bytes, one constructor per kind of content. -/
inductive ReplyBody
  | empty
  | identification
  | statusReply (r : StatusReply)
  | resetAccepted
  | laneConfig (config : LaneConfig) (state : LaneState)
  | bridgeTiming (period : Nat) (timing : BridgeTiming)
  | stream (entry : Stream)
  | timers (t : SiteTimers)
  | deckMap (map : List (Option DeckNo)) (calCounter : Nat)
  | cell (channel : ChannelNo) (zero : Int) (span calCounter : Nat)
  | bridgeCal (cal : BridgeCal) (calCounter : Nat)
  | referenceZero (z0 : Int) (calCounter : Nat)
  | timeSet (before : Nat) (wasUnset : Bool)
  | arrival (state : LaneState) (visit query : Option Nat) (reason : Option Reason)
  | laneState (state : LaneState)
  | laneReleased (state : LaneState) (skipped : List BarrierNo)
  | barrier (entry : BarrierEntry)
  | weights (entries : List BridgeEntry)
  | zeroTaken (zb z0 difference : Int)
  | zeroWaived (zb z0 : Int) (backlog : Nat)
  | channels (closed : Bool) (calCounter period : Nat) (entries : List ChannelEntry)
  | stallsCleared (channels : List ChannelNo)
  | permitTimely (outcome : AdmitOutcome) (slot : Option Nat)
  | permitLate (slot visit : Option Nat) (reason : Option RefusalReason)
  | invalidated (code : Byte) (performed : Granularity) (removed : Nat)
  | creditWritten (account written : Nat)
  | cache (agingSeconds : Nat) (items : List CacheItem)
  | refusals (overflow mask pending : Bool) (lowest : Option Nat) (records : List RefusalEntry)
  | refusalsCleared (freed : Nat) (overflow : Bool)
  | refusalMask (mask pending : Bool)
  | visit (v : Visit) (place : Option Nat)
  | visitList (counter : Nat) (visits : List VisitSummary)
  | visitCancelled (number : Nat) (tag : Word) (state : VisitState) (lane : Option LaneNo) (discarded : Bool)
  | tareWritten (record : Nat) (placement : TarePlacement) (valid : Bool)
  | tareDeleted (freed : Nat)
  | tareOfTag (occupied days : Nat) (record : Option TareEntry)
  | tareList (occupied days : Nat) (records : List TareEntry) (next : Option Nat)
  | ticket (t : Ticket)
  | collected (marked uncollected : Nat) (oldest : Option Nat) (issued : Nat)
  | ticketBase (counter issued : Nat)
  deriving DecidableEq, Repr

/-- A reply: its kind byte, its status, the link-flags byte taken when it was formed, the received kind a reply of kind
0xFF repeats, and its contents (R188 to R190). -/
structure Reply where
  kind     : Byte
  status   : Status
  flags    : Byte
  received : Option Byte
  body     : ReplyBody
  deriving DecidableEq, Repr

/-- A complete received frame in the request queue, as the two checks of R189 read it. -/
inductive LinkFrame
  | request (r : Request)
  | unknownKind (kind : Byte)
  | badLength (kind : Byte)
  deriving DecidableEq, Repr

/-- A frame being sent (R191). -/
inductive TxFrame
  | reply (r : Reply)
  | busy (r : Reply)
  | query (q : QueryFrame)
  | report (r : Report)
  deriving DecidableEq, Repr

end Sys2Proof.Machine
end

