-- ==== Sys2Proof/Machine/State.lean ====
section
/-! DEFINITION. The whole state of the part as plain data, its faults and refusals, and the state right after reset. -/

namespace Sys2Proof.Machine

/-- A timer: stopped, or running with the milliseconds left. -/
abbrev Timer := Option Nat

/-- A timer that power fail can hold as expired: a lane's identity and entry timers, a query deadline (R98, R141). -/
inductive HeldTimer
  | stopped
  | running (left : Nat)
  | expired
  deriving DecidableEq, Repr

/-! ### Field lines -/

/-- The raw levels of the input lines (section 1.5), true for closed, active or light received. -/
structure Pins where
  metrologyClosed  : Bool
  upSwitch         : Table 8 Bool
  downSwitch       : Table 8 Bool
  safetyPresence   : Table 8 Bool
  safetyFault      : Table 8 Bool
  approachPresence : Table 4 Bool
  approachFault    : Table 4 Bool
  beamLight        : Table 8 Bool
  powerFail        : Bool
  laneHold         : Bool
  deriving DecidableEq, Repr

/-! ### CHN -/

/-- The receiver of a load-cell line: hunting, or collecting with the bytes so far (R1). -/
inductive CellReceiver
  | hunting
  | collecting (bytes : List Byte)
  deriving DecidableEq, Repr

/-- A latest sample (R3). -/
structure Sample where
  counts : Int
  status : SampleStatus
  deriving DecidableEq, Repr

/-- The unretained state of a channel (section 1.2). `awaited` is set from a change of its deck's set of channels to the
channel's next arrival (R9). -/
structure Channel where
  sample     : Option Sample
  age        : Nat
  fault      : Bool
  stall      : Bool
  stallTimer : Timer
  awaited    : Bool
  receiver   : CellReceiver
  deriving DecidableEq, Repr

/-- The metrology switch: its state, and the 50 ms hold of a new level (R10). -/
structure Metrology where
  closed : Bool
  hold   : Timer
  deriving DecidableEq, Repr

/-! ### WGT and ARB -/

/-- A deck (section 2.1). -/
structure Deck where
  condition : DeckCondition
  history   : List Int
  filtered  : Option Int
  freshness : Timer
  deriving DecidableEq, Repr

/-- A capture record (R42); the bridge that holds it is the bridge it belongs to. -/
structure Capture where
  visit    : Nat
  lane     : LaneNo
  start    : Nat
  timeout  : Nat
  deadline : Nat
  blocking : Blocking
  deriving DecidableEq, Repr

/-- The unretained state of a bridge (section 2.2). `sum`, `gross`, `weight`, `state` and `underlying` are of the latest
evaluation; `gross` is G as formed, also outside the weight range. -/
structure Bridge where
  zb            : Int
  window        : List Int
  sum           : Option Int
  gross         : Option Int
  weight        : Option Int
  state         : BridgeState
  underlying    : Bool
  run           : Nat
  zeroTimer     : Nat
  backlog       : Nat
  waived        : Bool
  limitReported : Bool
  capture       : Option Capture
  deriving DecidableEq, Repr

/-- The arbiter's state for a bridge (R102), waiting lanes in lane order. The listing is read from the configurations. -/
structure Grant where
  holder  : Option LaneNo
  waiting : List LaneNo
  last    : Option LaneNo
  deriving DecidableEq, Repr

/-! ### BAR -/

/-- A barrier with its filtered switches and its safety loop (section 4.1). The three filters run while set. -/
structure Barrier where
  state        : BarrierState
  pendingLower : Bool
  motionTimer  : Timer
  reason       : FaultReason
  reversals    : Nat
  upActive     : Bool
  downActive   : Bool
  upFilter     : Timer
  downFilter   : Timer
  occupied     : Bool
  clearFilter  : Timer
  deriving DecidableEq, Repr

/-- An approach loop with its 500 ms clear filter (R69). -/
structure ApproachLoop where
  occupied    : Bool
  clearFilter : Timer
  deriving DecidableEq, Repr

/-- A deck-end beam with its 200 ms clear filter (R70). -/
structure Beam where
  broken      : Bool
  clearFilter : Timer
  deriving DecidableEq, Repr

/-! ### LSQ -/

/-- The unretained state of a lane (section 5.2). `takeoverFrom` is the state at the acceptance of a takeover that still
waits, which TAKEOVER_GRANTED carries (R96). -/
structure Lane where
  state         : LaneState
  identity      : Option Identity
  visit         : Option Nat
  identityTimer : HeldTimer
  entryTimer    : HeldTimer
  frontMark     : CrossingMark
  rearMark      : CrossingMark
  entered       : Bool
  signal        : Signal
  query         : Option Nat
  lastReason    : Option Reason
  takeoverFrom  : Option LaneState
  deriving DecidableEq, Repr

/-! ### ADM -/

/-- A valid permit cache entry (R114). A free slot of the cache is `none`. -/
structure Permit where
  pfx         : Word
  length      : Nat
  account     : Nat
  streams     : Half
  credit      : Int
  stopped     : Bool
  storedTare  : Bool
  tareRefresh : Bool
  bucket      : Nat
  deriving DecidableEq, Repr

/-- An answer that decides a vehicle: a permit, or the statement that the tag is unknown (R136). -/
inductive Answer
  | entry (p : Permit)
  | unknownTag
  deriving DecidableEq, Repr

/-- A query slot (R132). -/
structure QuerySlot where
  state       : SlotState
  number      : Nat
  tag         : Word
  stream      : StreamNo
  deadline    : HeldTimer
  noInstall   : Bool
  held        : Option Answer
  provisional : Option Nat
  deriving DecidableEq, Repr

/-- A valid refusal record (R126). A free record is `none`. -/
structure RefusalRecord where
  tag       : Word
  lane      : LaneNo
  reason    : RefusalReason
  firstTime : Nat
  lastTime  : Nat
  repeats   : Nat
  deriving DecidableEq, Repr

/-- The admission unit: permit cache, aging timer, query slots and counter, refusal records and their flags. -/
structure Admission where
  cache         : Table 48 (Option Permit)
  agingTimer    : Nat
  slots         : Table 4 QuerySlot
  queryCounter  : Nat
  records       : Table 8 (Option RefusalRecord)
  overflow      : Bool
  mask          : Bool
  reportPending : Bool
  deriving DecidableEq, Repr

/-! ### BKD and LNK -/

/-- The journal's unretained marks: the journal-high condition (R178) and the full-reported mark (R179). -/
structure JournalMarks where
  high         : Bool
  fullReported : Bool
  deriving DecidableEq, Repr

/-- The power-fail input as held, and its 100 ms deassertion filter (R182). -/
structure PowerFail where
  asserted : Bool
  filter   : Timer
  deriving DecidableEq, Repr

/-- The host-link receiver: hunting, or collecting with the bytes after the start byte (R186). -/
inductive HostReceiver
  | hunting
  | collecting (bytes : List Byte)
  deriving DecidableEq, Repr

/-- The link unit (R188, R191, R192). `busyAhead` counts the BUSY replies formed before the current reply, which gives
the order in which the two are sent. -/
structure Link where
  receiver    : HostReceiver
  queue       : List LinkFrame
  current     : Option Reply
  busy        : List Reply
  busyAhead   : Nat
  sending     : Option TxFrame
  queries     : Table 4 (Option QueryFrame)
  reports     : List Report
  reportsLost : Bool
  deriving DecidableEq, Repr

/-- The whole state of the part. `pending` is the queue of commands that wait, first in first out; `powered` tells main
power from the backup supply; `evaluations` is the model's own counter, at which the free order of R29 is read. -/
structure State where
  pending     : List Instr
  powered     : Bool
  ret         : Retained
  pins        : Pins
  channels    : Table 16 Channel
  metrology   : Metrology
  decks       : Table 4 Deck
  bridges     : Table 4 Bridge
  grants      : Table 4 Grant
  barriers    : Table 8 Barrier
  loops       : Table 4 ApproachLoop
  beams       : Table 8 Beam
  lanes       : Table 4 Lane
  adm         : Admission
  siteFull    : List LaneNo
  marks       : JournalMarks
  powerFail   : PowerFail
  laneHold    : Bool
  link        : Link
  evaluations : Nat
  deriving DecidableEq, Repr

/-- The faults of a step. There is none: the spec lets every command of the table act in every state, and a step of this
part never stops. -/
inductive Fault
  deriving DecidableEq, Repr

/-- The refusals of a step. -/
inductive Refusal
  /-- A command that has no meaning in this model yet, by its mnemonic. Raised by exec's arms only (none, in this
  model); safe, since the machine stops where the part goes on. -/
  | notModelled (mnemonic : String)
  deriving DecidableEq, Repr

/-- What a meaning answers. -/
abbrev Result := Host.Outcome State Fault Refusal

/-- The levels of the input lines at State.reset (DESIGN CHOICE, log entry 3): a yard at rest. Metrology switch open,
every arm at its down switch, no loop input active, light on every beam, power good, LANE_HOLD strap open. -/
def Pins.atRest : Pins :=
  { metrologyClosed := false, upSwitch := .all 8 false, downSwitch := .all 8 true, safetyPresence := .all 8 false,
    safetyFault := .all 8 false, approachPresence := .all 4 false, approachFault := .all 4 false,
    beamLight := .all 8 true, powerFail := false, laneHold := false }

/-- The part right after its first power-up, which gives the lost outcome (section 1.6, R184), with the yard at rest:
RESET_DONE is being sent, and BACKUP_LOST waits behind it (R197). -/
def State.reset : State :=
  { pending := []
    powered := true
    ret := .lost
    pins := .atRest
    channels := .all 16
      { sample := none, age := 65535, fault := false, stall := false, stallTimer := none, awaited := false,
        receiver := .hunting }
    metrology := { closed := false, hold := none }
    decks := .all 4 { condition := .noChannels, history := [], filtered := none, freshness := none }
    bridges := .all 4
      { zb := 0, window := [], sum := none, gross := none, weight := none, state := .notReady, underlying := false,
        run := 0, zeroTimer := 300000, backlog := 4, waived := false, limitReported := false, capture := none }
    grants := .all 4 { holder := none, waiting := [], last := none }
    barriers := .all 8
      { state := .down, pendingLower := false, motionTimer := none, reason := .none, reversals := 0, upActive := false,
        downActive := true, upFilter := none, downFilter := none, occupied := false, clearFilter := none }
    loops := .all 4 { occupied := false, clearFilter := none }
    beams := .all 8 { broken := false, clearFilter := none }
    lanes := .all 4
      { state := .idle, identity := none, visit := none, identityTimer := .stopped, entryTimer := .stopped,
        frontMark := .none, rearMark := .none, entered := false, signal := .red, query := none, lastReason := none,
        takeoverFrom := none }
    adm :=
      { cache := .all 48 none, agingTimer := 10000
        slots := .all 4
          { state := .free, number := 0, tag := 0, stream := 0, deadline := .stopped, noInstall := false, held := none,
            provisional := none }
        queryCounter := 1, records := .all 8 none, overflow := false, mask := false, reportPending := false }
    siteFull := []
    marks := { high := false, fullReported := false }
    powerFail := { asserted := false, filter := none }
    laneHold := false
    link :=
      { receiver := .hunting, queue := [], current := none, busy := [], busyAhead := 0
        sending := some (.report (.resetDone .input false false 0)), queries := .all 4 none
        reports := [.backupLost], reportsLost := false }
    evaluations := 0 }

end Sys2Proof.Machine
end

