-- ==== Sys2Proof/Machine/Ops.lean ====
section
/-! DEFINITION. The named operations over State that every meaning is made of: reading a unit, changing one unit,
queueing a report, rewriting the check word, and running an event. -/

namespace Sys2Proof.Machine

/-! ### The numbered units -/

def allFour : List (Fin 4) := [0, 1, 2, 3]
def allEight : List (Fin 8) := [0, 1, 2, 3, 4, 5, 6, 7]
def allSixteen : List (Fin 16) := [0, 1, 2, 3, 4, 5, 6, 7, 8, 9, 10, 11, 12, 13, 14, 15]

/-! ### Reading -/

def State.channel (s : State) (c : ChannelNo) : Channel := s.channels.read c
def State.deck (s : State) (d : DeckNo) : Deck := s.decks.read d
def State.bridge (s : State) (b : BridgeNo) : Bridge := s.bridges.read b
def State.grant (s : State) (b : BridgeNo) : Grant := s.grants.read b
def State.barrier (s : State) (b : BarrierNo) : Barrier := s.barriers.read b
def State.loop (s : State) (a : LoopNo) : ApproachLoop := s.loops.read a
def State.beam (s : State) (m : BeamNo) : Beam := s.beams.read m
def State.lane (s : State) (l : LaneNo) : Lane := s.lanes.read l
def State.slot (s : State) (l : LaneNo) : QuerySlot := s.adm.slots.read l

/-- The configuration of a lane (R74). -/
def State.config (s : State) (l : LaneNo) : LaneConfig := s.ret.site.lanes.read l
/-- The stream table entry of a stream (R112). -/
def State.stream (s : State) (k : StreamNo) : Stream := s.ret.site.streams.read k
/-- The calibration of a channel (section 1.2). -/
def State.channelCal (s : State) (c : ChannelNo) : ChannelCal := s.ret.cal.channels.read c
/-- The calibration of a bridge (section 2.2). -/
def State.bridgeCal (s : State) (b : BridgeNo) : BridgeCal := s.ret.cal.bridges.read b
/-- The timing settings of a bridge (R33). -/
def State.timing (s : State) (b : BridgeNo) : BridgeTiming := s.ret.site.timing.read b
/-- The deck a channel is assigned to, or none for UNUSED (R8). -/
def State.deckOf (s : State) (c : ChannelNo) : Option DeckNo := s.ret.site.deckMap.read c
/-- The sample period P in milliseconds (R13). -/
def State.period (s : State) : Nat := s.ret.site.period
/-- The site-wide timer and count settings (R76). -/
def State.timers (s : State) : SiteTimers := s.ret.site.timers
/-- The power-fail input is asserted (R182). -/
def State.failing (s : State) : Bool := s.powerFail.asserted

/-- The visit of a number, if the table holds one (R145). -/
def State.visitOf (s : State) (n : Nat) : Option Visit := s.ret.visits.records.find? (fun v => v.number == n)
/-- The visit of a tag, if the table holds one (R145). -/
def State.visitOfTag (s : State) (tag : Word) : Option Visit := s.ret.visits.records.find? (fun v => v.tag == tag)

/-- The lanes whose configuration names a barrier as front or rear barrier (R59). -/
def State.lanesNaming (s : State) (b : BarrierNo) : List LaneNo :=
  allFour.filter (fun l => (s.config l).front == some b || (s.config l).rear == some b)
/-- The lanes whose configuration names an approach loop (R69). -/
def State.lanesAtLoop (s : State) (a : LoopNo) : List LaneNo := allFour.filter (fun l => (s.config l).loop == some a)
/-- The listing of a bridge: the lanes whose configuration names it (R102). -/
def State.listing (s : State) (b : BridgeNo) : List LaneNo := allFour.filter (fun l => (s.config l).bridge == some b)

/-- The state of a barrier that may be none. -/
def State.barrierIs (s : State) (b : Option BarrierNo) (st : BarrierState) : Bool :=
  match b with
  | none => false
  | some b => (s.barrier b).state == st

/-- The safety loop of a barrier that may be none is OCCUPIED. -/
def State.safetyOccupied (s : State) (b : Option BarrierNo) : Bool :=
  match b with
  | none => false
  | some b => (s.barrier b).occupied

/-- The approach loop of a lane is OCCUPIED (R69). -/
def State.approachOccupied (s : State) (l : LaneNo) : Bool :=
  match (s.config l).loop with
  | none => false
  | some a => (s.loop a).occupied

/-- The lane holds a bridge's grant (R102). -/
def State.holdsGrant (s : State) (l : LaneNo) : Bool := allFour.any (fun b => (s.grant b).holder == some l)

/-! ### Changing one unit -/

def State.onChannel (s : State) (c : ChannelNo) (f : Channel → Channel) : State :=
  { s with channels := s.channels.write c (f (s.channel c)) }
def State.onDeck (s : State) (d : DeckNo) (f : Deck → Deck) : State :=
  { s with decks := s.decks.write d (f (s.deck d)) }
def State.onBridge (s : State) (b : BridgeNo) (f : Bridge → Bridge) : State :=
  { s with bridges := s.bridges.write b (f (s.bridge b)) }
def State.onGrant (s : State) (b : BridgeNo) (f : Grant → Grant) : State :=
  { s with grants := s.grants.write b (f (s.grant b)) }
def State.onBarrier (s : State) (b : BarrierNo) (f : Barrier → Barrier) : State :=
  { s with barriers := s.barriers.write b (f (s.barrier b)) }
def State.onLoop (s : State) (a : LoopNo) (f : ApproachLoop → ApproachLoop) : State :=
  { s with loops := s.loops.write a (f (s.loop a)) }
def State.onBeam (s : State) (m : BeamNo) (f : Beam → Beam) : State :=
  { s with beams := s.beams.write m (f (s.beam m)) }
def State.onLane (s : State) (l : LaneNo) (f : Lane → Lane) : State :=
  { s with lanes := s.lanes.write l (f (s.lane l)) }
def State.onAdm (s : State) (f : Admission → Admission) : State := { s with adm := f s.adm }
def State.onSlot (s : State) (l : LaneNo) (f : QuerySlot → QuerySlot) : State :=
  s.onAdm (fun a => { a with slots := a.slots.write l (f (a.slots.read l)) })
def State.onLink (s : State) (f : Link → Link) : State := { s with link := f s.link }
def State.onPins (s : State) (f : Pins → Pins) : State := { s with pins := f s.pins }
def State.onRet (s : State) (f : Retained → Retained) : State := { s with ret := f s.ret }
def State.onSite (s : State) (f : SiteSettings → SiteSettings) : State :=
  s.onRet (fun r => { r with site := f r.site })
def State.onVisits (s : State) (f : VisitStore → VisitStore) : State :=
  s.onRet (fun r => { r with visits := f r.visits })
def State.onJournal (s : State) (f : JournalStore → JournalStore) : State :=
  s.onRet (fun r => { r with journal := f r.journal })
def State.onBridgeCal (s : State) (b : BridgeNo) (f : BridgeCal → BridgeCal) : State :=
  s.onRet (fun r => { r with cal := { r.cal with bridges := r.cal.bridges.write b (f (r.cal.bridges.read b)) } })

/-- Change the visit of a number, if the table holds one. -/
def State.onVisit (s : State) (n : Nat) (f : Visit → Visit) : State :=
  s.onVisits (fun t => { t with records := t.records.map (fun v => if v.number = n then f v else v) })

/-! ### Reports and the check word -/

/-- A full report queue drops the report and sets the reports-lost flag (R192). -/
def Link.queueReport (k : Link) (r : Report) : Link :=
  if k.reports.length < 32 then { k with reports := k.reports ++ [r] } else { k with reportsLost := true }

/-- Queue a report (R192). -/
def State.report (s : State) (r : Report) : State := s.onLink (fun k => k.queueReport r)

/-- Rewrite the check word over the whole image, at the end of an event that changes retained contents (R181). -/
def State.seal (s : State) : State := s.onRet Retained.sealed

/-! ### Output and events -/

/-- The next frame among those waiting, and the link without it where it leaves as it is chosen (R191): replies in the
order they were formed, then permit queries in lane order, then the oldest report. -/
def Link.choose (k : Link) : Link :=
  match k.current, k.busy with
  | some r, [] => { k with sending := some (.reply r) }
  | some r, q :: _ => if 0 < k.busyAhead then { k with sending := some (.busy q) } else { k with sending := some (.reply r) }
  | none, q :: _ => { k with sending := some (.busy q) }
  | none, [] =>
    match allFour.findSome? (fun l => k.queries.read l) with
    | some q => { k with sending := some (.query q) }
    | none =>
      match k.reports with
      | [] => { k with sending := none }
      | r :: rest => { k with sending := some (.report r), reports := rest }

/-- An idle transmitter chooses the next frame at the end of the event (R191; DESIGN CHOICE, log entry 8). -/
def State.transmit (s : State) : State :=
  if s.link.sending.isNone then s.onLink Link.choose else s

/-- An event of the running part: nothing happens while main power is off (R182). -/
def State.run (s : State) (f : State → State) : Result :=
  .next (if s.powered then (f s).transmit else s)

/-- An event whose line level changes whether or not the part runs; its effect follows while main power is on. -/
def State.runPins (s : State) (pins : Pins → Pins) (f : State → State) : Result :=
  .next (if s.powered then (f (s.onPins pins)).transmit else s.onPins pins)

end Sys2Proof.Machine
end

