-- ==== Sys2Proof/Machine/Barriers.lean ====
section
/-! DEFINITION. The barrier itself (R57, R60 to R66, R72): its drives, its commands, its reversal, its switches and its
faults, each as a function of one barrier. -/

namespace Sys2Proof.Machine

/-- The raise drive output (R57). -/
def Barrier.raiseDrive (b : Barrier) : Bool := b.state == .raising

/-- The lower drive output (R57). -/
def Barrier.lowerDrive (b : Barrier) : Bool := b.state == .lowering

/-- The barrier is in motion (R95). -/
def Barrier.moving (b : Barrier) : Bool := b.state == .raising || b.state == .lowering

/-- The RAISE command (R60); `time` is the motion time in milliseconds. -/
def Barrier.raise (time : Nat) (b : Barrier) : Barrier :=
  match b.state with
  | .down     => { b with state := .raising, motionTimer := some time }
  | .lowering => { b with state := .raising, motionTimer := some time, pendingLower := false }
  | .up       => { b with pendingLower := false }
  | .raising  => b
  | .fault    => b

/-- The start of a lowering (R61, R63, R64). -/
def Barrier.startLowering (time : Nat) (b : Barrier) : Barrier :=
  { b with state := .lowering, pendingLower := false, motionTimer := some time }

/-- The LOWER command (R61). -/
def Barrier.lower (time : Nat) (b : Barrier) : Barrier :=
  match b.state with
  | .up       => if b.occupied then { b with pendingLower := true } else b.startLowering time
  | .raising  => { b with pendingLower := true }
  | .down     => b
  | .lowering => b
  | .fault    => b

/-- The safety loop becomes OCCUPIED: a LOWERING barrier reverses (R62). -/
def Barrier.loopOccupied (time : Nat) (b : Barrier) : Barrier :=
  let b := { b with occupied := true, clearFilter := none }
  match b.state with
  | .lowering =>
    { b with state := .raising, pendingLower := true, motionTimer := some time, reversals := countTo 65535 b.reversals }
  | .down     => b
  | .raising  => b
  | .up       => b
  | .fault    => b

/-- The safety loop becomes CLEAR: an UP barrier with pending-lower set goes to LOWERING (R63). -/
def Barrier.loopClear (time : Nat) (b : Barrier) : Barrier :=
  let b := { b with occupied := false, clearFilter := none }
  if b.state = .up ∧ b.pendingLower = true then b.startLowering time else b

/-- The arrival at UP, going on to LOWERING at once when pending-lower is set with the loop CLEAR (R64). -/
def Barrier.arriveUp (time : Nat) (b : Barrier) : Barrier :=
  let b := { b with state := .up, motionTimer := none }
  if b.pendingLower = true ∧ b.occupied = false then b.startLowering time else b

/-- The arrival at DOWN (R64). -/
def Barrier.arriveDown (b : Barrier) : Barrier := { b with state := .down, motionTimer := none }

/-- Entry to FAULT (R65). -/
def Barrier.enterFault (reason : FaultReason) (b : Barrier) : Barrier :=
  { b with state := .fault, motionTimer := none, pendingLower := false, reason := reason }

/-- The state and fault reason the two switches show (R66, R72). -/
def positionOf (upActive downActive : Bool) : BarrierState × FaultReason :=
  match upActive, downActive with
  | false, true  => (.down, .none)
  | true,  false => (.up, .none)
  | false, false => (.fault, .unknownPosition)
  | true,  true  => (.fault, .switchConflict)

/-- BARRIER_RESET at a barrier (R66). -/
def Barrier.reset (b : Barrier) : Barrier :=
  if b.state = .fault then
    { b with state := (positionOf b.upActive b.downActive).1, reason := (positionOf b.upActive b.downActive).2,
             pendingLower := false }
  else b

/-- The barrier at reset release (R72). -/
def Barrier.atRelease (upActive downActive occupied : Bool) : Barrier :=
  { state := (positionOf upActive downActive).1, pendingLower := false, motionTimer := none,
    reason := (positionOf upActive downActive).2, reversals := 0, upActive := upActive, downActive := downActive,
    upFilter := none, downFilter := none, occupied := occupied, clearFilter := none }

/-- What a change of a filtered switch asks of the barrier (R64, R65): nothing, an arrival, or a fault. -/
inductive SwitchEffect
  | nothing | arriveUp | arriveDown | fault (reason : FaultReason)
  deriving DecidableEq, Repr

/-- The effect of a switch whose filtered state has just changed to `active`, the barrier holding both new states. -/
def Barrier.switchEffect (b : Barrier) (which : EndSwitch) (active : Bool) : SwitchEffect :=
  match b.state, which, active with
  | .fault,    _,     _     => .nothing
  | .raising,  .up,   true  => if b.downActive then .fault .switchConflict else .arriveUp
  | .lowering, .down, true  => if b.upActive then .fault .switchConflict else .arriveDown
  | .down,     .down, false => .fault .forced
  | .up,       .up,   false => .fault .forced
  | _,         .up,   true  => if b.downActive then .fault .switchConflict else .nothing
  | _,         .down, true  => if b.upActive then .fault .switchConflict else .nothing
  | _,         _,     false => .nothing

/-- The motion time in milliseconds (R71). -/
def State.motionTime (s : State) : Nat := s.timers.motion * 1000

/-- RAISE given to a barrier (R60). -/
def State.commandRaise (s : State) (b : BarrierNo) : State := s.onBarrier b (Barrier.raise s.motionTime)

/-- LOWER given to a barrier (R61). -/
def State.commandLower (s : State) (b : BarrierNo) : State := s.onBarrier b (Barrier.lower s.motionTime)

/-- LOWER given to a barrier that may be none. -/
def State.commandLower? (s : State) (b : Option BarrierNo) : State :=
  match b with
  | none => s
  | some b => s.commandLower b

end Sys2Proof.Machine
end

