-- ==== Sys2Proof/Machine/Lanes.lean ====
section
/-! DEFINITION. Changes of lane state, crossing marks, and the bridge grant: the arbiter's requests, decisions and
releases, and the lane's entry to ENTERING (chapters 5 and 6). -/

namespace Sys2Proof.Machine

/-! ### Lane state -/

/-- The signal of a state (R77). -/
def signalFor (st : LaneState) (entered : Bool) : Signal :=
  match st with
  | .entering => if entered then .red else .green
  | .passing  => .green
  | _         => .red

/-- The identity time in milliseconds (R76, R79). -/
def State.identityTime (s : State) : Nat := s.timers.identity * 1000

/-- The entry time in milliseconds (R76, R85). -/
def State.entryTime (s : State) : Nat := s.timers.entry * 1000

/-- The lane's items after its change to a state: the signal follows the state (R77), an entry to AWAIT_ID starts the
identity timer and a departure from AWAIT_ID stops it (R79). -/
def Lane.entering (n : Lane) (st : LaneState) (identityTime : Nat) : Lane :=
  { n with
    state := st
    signal := signalFor st n.entered
    identityTimer :=
      if st = .awaitId then .running identityTime else if n.state = .awaitId then .stopped else n.identityTimer }

/-- The lane goes to a state: a LANE_STATE report, unless it is in that state already (R77). The report shows the lane's
identity and visit as they stand at the change; `reason` is given at a refusal, a capture failure or a cancellation. -/
def State.enterState (s : State) (l : LaneNo) (st : LaneState) (reason : Option Reason) : State :=
  if (s.lane l).state = st then s
  else
    (s.onLane l (fun n => n.entering st s.identityTime)).report
      (.laneState
        { lane := l, left := (s.lane l).state, entered := st, identity := (s.lane l).identity, visit := (s.lane l).visit,
          reason := reason, clock := s.ret.clock })

/-- The lane comes to IDLE, or to AWAIT_ID if it has a role and its approach loop is OCCUPIED (R79, R90, R92, R97). -/
def State.comeToIdle (s : State) (l : LaneNo) : State :=
  if (s.config l).role ≠ .none ∧ s.approachOccupied l = true then s.enterState l .awaitId none
  else s.enterState l .idle none

/-- The held identity and the lane visit are cleared. -/
def State.clearVehicle (s : State) (l : LaneNo) : State :=
  s.onLane l (fun n => { n with identity := none, visit := none })

/-! ### Crossing marks (R78) -/

/-- The mark set at a raise for a vehicle. -/
def CrossingMark.atRaise (occupied : Bool) : CrossingMark := if occupied then .seen else .none

/-- The mark after the safety loop became OCCUPIED. -/
def CrossingMark.loopOccupied : CrossingMark → CrossingMark
  | .none => .seen
  | m     => m

/-- The mark after the safety loop became CLEAR. -/
def CrossingMark.loopClear : CrossingMark → CrossingMark
  | .seen => .passed
  | m     => m

/-- The lane raises its front barrier for a vehicle (R78). -/
def State.raiseFront (s : State) (l : LaneNo) : State :=
  match (s.config l).front with
  | none => s
  | some b =>
    (s.commandRaise b).onLane l (fun n => { n with frontMark := .atRaise (s.barrier b).occupied })

/-- The lane raises its rear barrier for a vehicle (R78). -/
def State.raiseRear (s : State) (l : LaneNo) : State :=
  match (s.config l).rear with
  | none => s
  | some b =>
    (s.commandRaise b).onLane l (fun n => { n with rearMark := .atRaise (s.barrier b).occupied })

/-- The lane lowers its front barrier. -/
def State.lowerFront (s : State) (l : LaneNo) : State := s.commandLower? (s.config l).front

/-- The lane lowers its rear barrier. -/
def State.lowerRear (s : State) (l : LaneNo) : State := s.commandLower? (s.config l).rear

/-! ### The bridge as lanes and arbiter read it (R78, R104) -/

/-- The empty band e·d of a bridge in grams. -/
def State.emptyBand (s : State) (b : BridgeNo) : Nat := (s.timing b).empty * (s.bridgeCal b).interval

/-- The latest evaluation formed G and |G| is at most e·d (R78), with the e held at the test, so that a new e counts in a
lane's tests at once (DESIGN CHOICE, log entry 44). -/
def State.bridgeEmpty (s : State) (b : BridgeNo) : Bool :=
  match (s.bridge b).gross with
  | none => false
  | some g => decide (g.natAbs ≤ s.emptyBand b)

/-- The latest evaluation formed G and |G| exceeds e·d, or it reached OVER (R78). -/
def State.bridgeLoaded (s : State) (b : BridgeNo) : Bool :=
  (match (s.bridge b).gross with
   | none => false
   | some g => decide (s.emptyBand b < g.natAbs)) || (s.bridge b).state == .over

/-- The lane's bridge is empty; a lane without a bridge has none that is. -/
def State.ownBridgeEmpty (s : State) (l : LaneNo) : Bool :=
  match (s.config l).bridge with
  | none => false
  | some b => s.bridgeEmpty b

/-- The lane's bridge is loaded. -/
def State.ownBridgeLoaded (s : State) (l : LaneNo) : Bool :=
  match (s.config l).bridge with
  | none => false
  | some b => s.bridgeLoaded b

/-- The bridge is zero-urgent: its backlog is at least U (R28). -/
def State.urgent (s : State) (b : BridgeNo) : Bool := decide ((s.timing b).urgent ≤ (s.bridge b).backlog)

/-! ### The arbiter (chapter 6) -/

/-- The lane goes to ENTERING at its grant (R85). -/
def State.enterEntering (s : State) (l : LaneNo) : State :=
  let s := s.onLane l (fun n => { n with entered := false })
  let s := s.raiseFront l
  let s := s.onLane l (fun n => { n with entryTimer := .running s.entryTime })
  s.enterState l .entering none

/-- The lane a decision chooses among those waiting: the one that is not the last-granted lane, else the lower-numbered
(R105). The waiting lanes stand in lane order. -/
def chooseLane (waiting : List LaneNo) (last : Option LaneNo) : Option LaneNo :=
  match waiting with
  | []          => none
  | [l]         => some l
  | l :: m :: _ => if last = some l then some m else some l

/-- The conditions of a grant, but for a waiting lane (R104), with the bridge state of the latest evaluation, and none while
the metrology switch is CLOSED (R10, R109). Where the switch has closed since that evaluation, R104's list alone would let
the grant be made; R10 and R109 are followed (DESIGN CHOICE, log entry 55). -/
def State.grantable (s : State) (b : BridgeNo) : Bool :=
  !s.metrology.closed && (s.grant b).holder.isNone && !s.urgent b &&
    ((s.bridge b).state == .stable || (s.bridge b).state == .motion) && s.bridgeEmpty b

/-- The arbiter's record of a grant (R105). -/
def Grant.given (g : Grant) (l : LaneNo) : Grant :=
  { holder := some l, waiting := g.waiting.filter (· ≠ l), last := some l }

/-- The grant is handed to the lane: it goes to ENTERING, or holds the grant in AWAIT_BRIDGE under power fail (R106). -/
def State.giveGrant (s : State) (b : BridgeNo) (l : LaneNo) : State :=
  let s := s.onGrant b (fun g => g.given l)
  if s.failing = false ∧ (s.lane l).state = .awaitBridge then s.enterEntering l else s

/-- A grant decision (R104). -/
def State.decideGrant (s : State) (b : BridgeNo) : State :=
  if s.grantable b then
    match chooseLane (s.grant b).waiting (s.grant b).last with
    | none => s
    | some l => s.giveGrant b l
  else s

/-- The waiting lanes with one more (R103). -/
def Grant.joined (g : Grant) (l : LaneNo) : Grant :=
  { g with waiting := allFour.filter (fun x => x == l || g.waiting.contains x) }

/-- The lane requests the grant of its bridge, and the arbiter decides at the same event (R103). -/
def State.requestGrant (s : State) (l : LaneNo) : State :=
  match (s.config l).bridge with
  | none => s
  | some b => (s.onGrant b (fun g => g.joined l)).decideGrant b

/-- The lane withdraws its request (R103). -/
def State.withdrawRequest (s : State) (l : LaneNo) : State :=
  match (s.config l).bridge with
  | none => s
  | some b => s.onGrant b (fun g => { g with waiting := g.waiting.filter (· ≠ l) })

/-- The lane releases the grant it holds, and the arbiter decides at the same event (R107). The LANE_STATE of a lane then
granted comes before that of the lane that releases (DEDUCED, log entry 69). -/
def State.releaseGrant (s : State) (l : LaneNo) : State :=
  match (s.config l).bridge with
  | none => s
  | some b =>
    if (s.grant b).holder = some l then (s.onGrant b (fun g => { g with holder := none })).decideGrant b else s

/-- The lane, serving a visit, goes to AWAIT_BRIDGE and requests the grant (R85). -/
def State.enterAwaitBridge (s : State) (l : LaneNo) (visit : Nat) : State :=
  ((s.onLane l (fun n => { n with visit := some visit })).enterState l .awaitBridge none).requestGrant l

end Sys2Proof.Machine
end

