-- ==== Sys2Proof/Machine/Permits.lean ====
section
/-! DEFINITION. The permit cache and the refusal records (chapter 7). -/

namespace Sys2Proof.Machine

/-- The cache slots in order. -/
def cacheSlots : List (Fin 48) := List.finRange 48

/-- The leading `length` bits, the rest 0 (R114). -/
def maskPrefix (pfx : Word) (length : Nat) : Word := (pfx >>> (32 - length)) <<< (32 - length)

/-- A permit covers a tag: the leading bits agree (R115). -/
def Permit.covers (p : Permit) (tag : Word) : Bool := (tag >>> (32 - p.length)) == (p.pfx >>> (32 - p.length))

/-- The permit in a slot, if it is valid. -/
def Admission.permit (a : Admission) (i : Fin 48) : Option Permit := a.cache.read i

/-- The better of the best slot so far and the next one, by prefix length (R115). -/
def Admission.longer (a : Admission) (tag : Word) (best : Option (Fin 48)) (i : Fin 48) : Option (Fin 48) :=
  match a.permit i with
  | none => best
  | some p =>
    if p.covers tag then
      match best with
      | none => some i
      | some j =>
        match a.permit j with
        | none => some i
        | some q => if q.length < p.length then some i else best
    else best

/-- The slot of the covering valid entry with the longest prefix, without setting its bucket (R115, R162). -/
def Admission.search (a : Admission) (tag : Word) : Option (Fin 48) := cacheSlots.foldl (a.longer tag) none

/-- The entry found by a search. -/
def Admission.searched (a : Admission) (tag : Word) : Option Permit :=
  match a.search tag with
  | none => none
  | some i => a.permit i

/-- A hit sets the entry's bucket to 3 (R115). -/
def Admission.touched (a : Admission) (i : Fin 48) : Admission :=
  { a with cache := a.cache.write i ((a.permit i).map (fun p => { p with bucket := 3 })) }

/-- The tests of R118 on an entry: the reason of a refusal, or nothing when it admits. -/
def Permit.refuses (p : Permit) (stream : StreamNo) (minCharge : Nat) : Option RefusalReason :=
  if p.stopped then some .accountStopped
  else if p.streams.getLsbD stream.val = false then some .streamNotPermitted
  else if p.credit < (minCharge : Int) then some .credit
  else none

/-- Every valid entry of an account changed by one function. -/
def Admission.onAccount (a : Admission) (account : Nat) (f : Permit → Permit) : Admission :=
  { a with cache := a.cache.each (fun e => e.map (fun p => if p.account = account then f p else p)) }

/-- How many valid entries an account has. -/
def Admission.entriesOf (a : Admission) (account : Nat) : Nat :=
  (cacheSlots.filter (fun i => (a.permit i).any (fun p => p.account == account))).length

/-- The credit an account's entries hold, from the lowest slot that holds one. -/
def Admission.creditOf (a : Admission) (account : Nat) : Option Int :=
  (cacheSlots.findSome? (fun i => (a.permit i).filter (fun p => p.account == account))).map (·.credit)

/-- Credit and STOPPED written into every valid entry of an account (R122, R124). -/
def Admission.setStanding (a : Admission) (account : Nat) (credit : Int) (stopped : Bool) : Admission :=
  a.onAccount account (fun p => { p with credit := credit, stopped := stopped })

/-- A charge deducted from every valid entry of an account, held at the bottom of the range (R123). -/
def Admission.deduct (a : Admission) (account charge : Nat) : Admission :=
  a.onAccount account (fun p =>
    { p with credit := if p.credit - charge < int32Min then int32Min else p.credit - charge })

/-- The slot in the lower bucket of the best victim so far and the next one (R122). -/
def Admission.colder (a : Admission) (best : Option (Fin 48)) (i : Fin 48) : Option (Fin 48) :=
  match a.permit i with
  | none => best
  | some p =>
    match best with
    | none => some i
    | some j =>
      match a.permit j with
      | none => some i
      | some q => if p.bucket < q.bucket then some i else best

/-- The slot an installation uses (R122): the entry of the same prefix and length, else the lowest free slot, else the
lowest-numbered entry of the lowest bucket that holds any. -/
def Admission.slotFor (a : Admission) (p : Permit) : Fin 48 :=
  match cacheSlots.find? (fun i => (a.permit i).any (fun q => q.pfx == p.pfx && q.length == p.length)) with
  | some i => i
  | none =>
    match cacheSlots.find? (fun i => (a.permit i).isNone) with
    | some i => i
    | none => (cacheSlots.foldl a.colder none).getD 0

/-- An installation (R122): the permit written whole with bucket 3, its standing copied across its account. -/
def Admission.install (a : Admission) (p : Permit) : Admission :=
  let p := { p with pfx := maskPrefix p.pfx p.length, bucket := 3 }
  let a := { a with cache := a.cache.write (a.slotFor p) (some p) }
  a.setStanding p.account p.credit p.stopped

/-- The slot the installation of a permit uses. -/
def Admission.installSlot (a : Admission) (p : Permit) : Fin 48 :=
  a.slotFor { p with pfx := maskPrefix p.pfx p.length, bucket := 3 }

/-- The permit an answer carries (R136, section 12.8). Bits 3 to 7 of its flags byte are not examined (DESIGN CHOICE, log
entry 60). -/
def permitOf (e : AnswerEntry) : Permit :=
  { pfx := e.pfx, length := e.length.toNat, account := e.account.toNat, streams := e.streams, credit := e.credit.toInt,
    stopped := e.flags.getLsbD 0, storedTare := e.flags.getLsbD 1, tareRefresh := e.flags.getLsbD 2, bucket := 3 }

/-- The aging of one bucket (R116). -/
def Permit.aged (p : Permit) : Permit := { p with bucket := p.bucket - 1 }

/-- The entries removed that meet a test become free slots (R142). -/
def Admission.removeWhere (a : Admission) (test : Permit → Bool) : Admission :=
  { a with cache := a.cache.each (fun e => e.filter (fun p => !test p)) }

/-- How many valid entries meet a test. -/
def Admission.countWhere (a : Admission) (test : Permit → Bool) : Nat :=
  (cacheSlots.filter (fun i => (a.permit i).any test)).length

/-! ### Refusal records (R126, R127) -/

/-- The record number of a tag, if a valid record holds it. -/
def Admission.recordOf (a : Admission) (tag : Word) : Option (Fin 8) :=
  allEight.find? (fun i => (a.records.read i).any (fun r => r.tag == tag))

/-- The lowest-numbered free refusal record. -/
def Admission.freeRecord (a : Admission) : Option (Fin 8) := allEight.find? (fun i => (a.records.read i).isNone)

/-- The lowest-numbered valid refusal record. -/
def Admission.lowestRecord (a : Admission) : Option (Fin 8) := allEight.find? (fun i => (a.records.read i).isSome)

/-- How many refusal records are valid. -/
def Admission.validRecords (a : Admission) : Nat := (allEight.filter (fun i => (a.records.read i).isSome)).length

/-- The record a REFUSAL report carries. -/
def Admission.refusalItem (a : Admission) (i : Fin 8) : Option RefusalItem :=
  (a.records.read i).map (fun r =>
    { record := i.val, tag := r.tag, lane := r.lane, reason := r.reason, time := r.firstTime })

/-- The REFUSAL report of a record, or of none (R127). -/
def Admission.refusalReport (a : Admission) (i : Option (Fin 8)) : Report :=
  .refusal (i.bind a.refusalItem) a.validRecords a.overflow

/-- The recording of a refusal (R126). -/
def State.recordRefusal (s : State) (tag : Word) (lane : LaneNo) (reason : RefusalReason) : State :=
  match s.adm.recordOf tag with
  | some i =>
    s.onAdm (fun a =>
      { a with records := a.records.write i ((a.records.read i).map (fun r =>
          { r with lastTime := s.ret.clock, repeats := countTo 255 r.repeats })) })
  | none =>
    match s.adm.freeRecord with
    | none => s.onAdm (fun a => { a with overflow := true })
    | some i =>
      let s := s.onAdm (fun a =>
        { a with records := a.records.write i (some
            { tag := tag, lane := lane, reason := reason, firstTime := s.ret.clock, lastTime := s.ret.clock, repeats := 0 }) })
      if s.adm.mask then s.onAdm (fun a => { a with reportPending := true })
      else s.report (s.adm.refusalReport (some i))

/-- A refused vehicle: recorded, the lane's last reason set, the lane in REFUSED (R82, R121, R126). -/
def State.refuseVehicle (s : State) (l : LaneNo) (tag : Word) (reason : RefusalReason) : State :=
  let s := s.recordRefusal tag l reason
  let s := s.onLane l (fun n => { n with lastReason := some (.refusal reason) })
  s.enterState l .refused (some (.refusal reason))

end Sys2Proof.Machine
end

