-- ==== Sys2Proof/Machine/Visits.lean ====
section
/-! DEFINITION. Permit queries, the admission order, visit creation and removal, and the SITE_FULL list
(chapters 7, 8 and 9). -/

namespace Sys2Proof.Machine

/-! ### Query slots (R132 to R135) -/

/-- A FREE query slot: its other items have no meaning, and are held at fixed values (R132). -/
def QuerySlot.vacant : QuerySlot :=
  { state := .free, number := 0, tag := 0, stream := 0, deadline := .stopped, noInstall := false, held := none,
    provisional := none }

/-- The number is held by an ACTIVE slot (R133). -/
def Admission.numberActive (a : Admission) (n : Nat) : Bool :=
  allFour.any (fun l => (a.slots.read l).state == .active && (a.slots.read l).number == n)

/-- The number the next query takes: the counter's, past every number that an ACTIVE slot holds (R133). Four slots hold
at most four numbers, so four advances are enough. -/
def Admission.freeNumber (a : Admission) : Nat → Nat → Nat
  | 0, n => n
  | k + 1, n => if a.numberActive n then a.freeNumber k (succQuery n) else n

/-- The LATE slot of another lane that holds a number given to a new query becomes FREE, and that lane's unsent
PERMIT_QUERY frame is discarded (R133). -/
def State.forgetLate (s : State) (own : LaneNo) (n : Nat) : State :=
  forEach allFour (fun l s =>
    if l ≠ own ∧ (s.slot l).state = .late ∧ (s.slot l).number = n then
      (s.onSlot l (fun _ => .vacant)).onLink (fun k => { k with queries := k.queries.write l none })
    else s) s

/-- A query is sent (R133, R134). -/
def State.sendQuery (s : State) (l : LaneNo) (tag : Word) (stream : StreamNo) : State :=
  let n := s.adm.freeNumber 4 s.adm.queryCounter
  let s := s.onAdm (fun a => { a with queryCounter := succQuery n })
  let s := s.forgetLate l n
  let s := s.onSlot l (fun _ =>
    { state := .active, number := n, tag := tag, stream := stream, deadline := .running (s.timers.query * 1000),
      noInstall := false, held := none, provisional := none })
  let s := s.onLink (fun k => { k with queries := k.queries.write l (some { number := n, tag := tag, lane := l }) })
  let s := s.onLane l (fun x => { x with query := some n })
  s.enterState l .admitting none

/-- The lane abandons its query (R135). -/
def State.abandonQuery (s : State) (l : LaneNo) : State :=
  let s := if (s.slot l).state = .active then
      s.onSlot l (fun q => { q with state := .late, deadline := .stopped, held := none, provisional := none })
    else s
  s.onLane l (fun n => { n with query := none })

/-! ### Visit creation (R119, R146, R147) -/

/-- The table holds 64 visits (R117). -/
def State.tableFull (s : State) : Bool := decide (64 ≤ s.ret.visits.records.length)

/-- The number a creation takes: the counter's, past every number a visit holds (R146). -/
def VisitStore.freeNumber (t : VisitStore) : Nat → Nat → Nat
  | 0, n => n
  | k + 1, n => if t.records.any (fun v => v.number == n) then t.freeNumber k (succVisit n) else n

/-- A visit put into the table in order of visit number. -/
def insertVisit (v : Visit) : List Visit → List Visit
  | [] => [v]
  | w :: rest => if v.number < w.number then v :: w :: rest else w :: insertVisit v rest

/-- What an admitted decision hands the visit table (R118, R140). -/
structure Admitted where
  tag         : Word
  account     : Nat
  stream      : StreamNo
  storedTare  : Bool
  provisional : Bool

/-- The record a creation makes (R147). -/
def Admitted.visit (a : Admitted) (number : Nat) (lane : LaneNo) (clock : Nat) : Visit :=
  { number := number, tag := a.tag, account := a.account, stream := a.stream, provisional := a.provisional,
    storedTare := a.storedTare, singlePass := false, state := .admitted, entryLane := lane, arrival := clock,
    currentLane := some lane, first := none, pending := none, ticketNumber := none }

/-- The lane joins the end of the SITE_FULL list, at most once, and goes to SITE_FULL (R117, R153). -/
def State.joinSiteFull (s : State) (l : LaneNo) : State :=
  let s := if s.siteFull.contains l then s else { s with siteFull := s.siteFull ++ [l] }
  s.enterState l .siteFull none

/-- The lane leaves the SITE_FULL list (R80, R94, R95). -/
def State.leaveSiteFull (s : State) (l : LaneNo) : State := { s with siteFull := s.siteFull.filter (· ≠ l) }

/-- A visit creation (R119). -/
def State.createVisit (s : State) (l : LaneNo) (a : Admitted) : State × AdmitOutcome :=
  if (s.visitOfTag a.tag).isSome then (s.refuseVehicle l a.tag .alreadyOnSite, .refused .alreadyOnSite)
  else if s.tableFull then (s.joinSiteFull l, .siteFull)
  else
    let n := s.ret.visits.freeNumber s.ret.visits.records.length s.ret.visits.counter
    let s := s.onVisits (fun t =>
      { t with records := insertVisit (a.visit n l s.ret.clock) t.records, counter := succVisit n })
    (s.enterAwaitBridge l n, .admitted n)

/-! ### The admission order (R117, R118, R120) -/

/-- The decision of a permit carried out: a refusal, or a visit creation (R118). -/
def State.decideByPermit (s : State) (l : LaneNo) (tag : Word) (stream : StreamNo) (p : Permit) : State × AdmitOutcome :=
  match p.refuses stream (s.stream stream).minCharge with
  | some r => (s.refuseVehicle l tag r, .refused r)
  | none =>
    s.createVisit l { tag := tag, account := p.account, stream := stream, storedTare := p.storedTare, provisional := false }

/-- The cache step (R118). -/
def State.cacheStep (s : State) (l : LaneNo) (tag : Word) (stream : StreamNo) : State × AdmitOutcome :=
  match s.adm.search tag with
  | none => (s.sendQuery l tag stream, .query (s.adm.freeNumber 4 s.adm.queryCounter))
  | some i =>
    match s.adm.permit i with
    | none => (s, .siteFull)
    | some p => (s.onAdm (fun a => a.touched i)).decideByPermit l tag stream p

/-- Step 3 of the admission order, the stream check, and what follows it (R117, R120). -/
def State.streamStep (s : State) (l : LaneNo) (tag : Word) (stream : StreamNo) : State × AdmitOutcome :=
  if (s.stream stream).enabled then s.cacheStep l tag stream
  else (s.refuseVehicle l tag .streamNotPermitted, .refused .streamNotPermitted)

/-- The admission order of an inbound arrival (R117). -/
def State.decideAdmission (s : State) (l : LaneNo) (tag : Word) (stream : StreamNo) : State × AdmitOutcome :=
  if (s.visitOfTag tag).isSome then (s.refuseVehicle l tag .alreadyOnSite, .refused .alreadyOnSite)
  else if s.tableFull then (s.joinSiteFull l, .siteFull)
  else s.streamStep l tag stream

/-! ### Removal and the service of the SITE_FULL list (R153) -/

/-- The outcome made a visit. -/
def AdmitOutcome.created : AdmitOutcome → Bool
  | .admitted _ => true
  | .siteFull   => false
  | .query _    => false
  | .refused _  => false
  | .held       => false

/-- A SITE_FULL lane is resumed with its held tag and stream (R120). -/
def State.resume (s : State) (l : LaneNo) : State × AdmitOutcome :=
  match (s.lane l).identity with
  | none => (s, .siteFull)
  | some i => s.streamStep l i.tag i.stream

/-- Service: the lanes of the list, earliest first, are resumed until one creates a visit or the list is empty. -/
def State.serveSiteFull : List LaneNo → State → State
  | [], s => s
  | l :: rest, s =>
    let r := (s.leaveSiteFull l).resume l
    if r.2.created then r.1 else r.1.serveSiteFull rest

/-- The record of a visit leaves the table, and its pending ticket the pending-ticket order (R153, R172). -/
def VisitStore.without (t : VisitStore) (n : Nat) : VisitStore :=
  { t with records := t.records.filter (fun v => v.number ≠ n), order := t.order.filter (· ≠ n) }

/-- A freed record serves the SITE_FULL list while the power-fail input is deasserted (R153). -/
def State.serveFreed (s : State) : State := if s.failing then s else s.serveSiteFull s.siteFull

/-- A visit is removed, and the record it frees serves the SITE_FULL list (R153). -/
def State.removeVisit (s : State) (n : Nat) : State :=
  if (s.visitOf n).isSome then (s.onVisits (fun t => t.without n)).serveFreed else s

/-- A visit loses its current lane. -/
def State.clearCurrentLane (s : State) (n : Nat) : State := s.onVisit n (fun v => { v with currentLane := none })

/-- The lane visit of a lane that gives up its vehicle: removed on an inbound lane, kept without its current lane on any
other (R80, R87, R92, R151). -/
def State.giveUpVisit (s : State) (l : LaneNo) : State :=
  match (s.lane l).visit with
  | none => s
  | some n => if (s.config l).role = .inbound then s.removeVisit n else s.clearCurrentLane n

/-! ### Stored tares (R157, R158) -/

/-- The tare records in order. -/
def tareRecords : List (Fin 128) := List.finRange 128

/-- The record that holds a tag's tare. -/
def State.tareRecordOf (s : State) (tag : Word) : Option (Fin 128) :=
  tareRecords.find? (fun i => (s.ret.tares.read i).any (fun t => t.tag == tag))

/-- The tare of a tag. -/
def State.tareOf (s : State) (tag : Word) : Option Tare := (s.tareRecordOf tag).bind (fun i => s.ret.tares.read i)

/-- A tare is valid at a clock value, for a validity in days (R157). -/
def Tare.valid (t : Tare) (clock days : Nat) : Bool := decide (t.time ≤ clock ∧ clock - t.time ≤ days * 86400)

/-- The better of the oldest record so far and the next one (R158). -/
def State.older (s : State) (best : Option (Fin 128)) (i : Fin 128) : Option (Fin 128) :=
  match s.ret.tares.read i with
  | none => best
  | some t =>
    match best with
    | none => some i
    | some j =>
      match s.ret.tares.read j with
      | none => some i
      | some u => if t.time < u.time then some i else best

/-- The record a placement uses (R158). -/
def State.tareSlotFor (s : State) (tag : Word) : Fin 128 :=
  match s.tareRecordOf tag with
  | some i => i
  | none =>
    match tareRecords.find? (fun i => (s.ret.tares.read i).isNone) with
    | some i => i
    | none => (tareRecords.foldl s.older none).getD 0

/-- A tare is placed for its tag (R158). -/
def State.placeTare (s : State) (t : Tare) : State :=
  s.onRet (fun r => { r with tares := r.tares.write (s.tareSlotFor t.tag) (some t) })

/-- How many tare records are occupied. -/
def State.occupiedTares (s : State) : Nat := (tareRecords.filter (fun i => (s.ret.tares.read i).isSome)).length

end Sys2Proof.Machine
end

