-- ==== Sys2Proof/Machine/Tickets.lean ====
section
/-! DEFINITION. The journal, the computation of a ticket, its issue and the drain (chapters 10 and 11). -/

namespace Sys2Proof.Machine

/-! ### The journal (R174, R175, R178, R179) -/

/-- The tickets whose collected mark is clear (R174). -/
def JournalStore.uncollected (j : JournalStore) : Nat := (j.tickets.filter (fun t => !t.collected)).length

/-- The journal holds fewer than 240 tickets, or its oldest ticket is collected (R175). -/
def JournalStore.accepts (j : JournalStore) : Bool :=
  decide (j.tickets.length < 240) || (j.tickets.head?.any (fun t => t.collected))

/-- The number of the oldest ticket, if there is one. -/
def JournalStore.oldest (j : JournalStore) : Option Nat := j.tickets.head?.map (·.number)
/-- The number of the newest ticket, if there is one. -/
def JournalStore.newest (j : JournalStore) : Option Nat := j.tickets.getLast?.map (·.number)
/-- The number of the oldest uncollected ticket, if there is one. -/
def JournalStore.oldestUncollected (j : JournalStore) : Option Nat :=
  (j.tickets.find? (fun t => !t.collected)).map (·.number)

/-- A ticket added as the newest, the oldest leaving a journal of 240 (R175); the counter moves on. -/
def JournalStore.add (j : JournalStore) (t : Ticket) : JournalStore :=
  { j with tickets := (if j.tickets.length < 240 then j.tickets else j.tickets.tail) ++ [t], counter := succSkipZero t.number }

/-- The uncollected count is at or above the high-water mark (R178). -/
def State.journalIsHigh (s : State) : Bool := decide (s.timers.highWater ≤ s.ret.journal.uncollected)

/-- The high-water test: one JOURNAL_HIGH report at each passage to high (R178). -/
def State.testHigh (s : State) : State :=
  let s' := { s with marks := { s.marks with high := s.journalIsHigh } }
  if s.journalIsHigh = true ∧ s.marks.high = false then
    s'.report (.journalHigh
      { uncollected := s.ret.journal.uncollected, mark := s.timers.highWater,
        oldest := s.ret.journal.oldestUncollected.getD 0, newest := s.ret.journal.newest.getD 0, clock := s.ret.clock })
  else s'

/-- A drain stops at the journal test with a ticket left: one JOURNAL_FULL report per episode (R179). At a completion it
is queued before the LANE_STATE of the lane that goes to TICKET_WAIT (DESIGN CHOICE, log entry 68). -/
def State.reportFull (s : State) : State :=
  if s.marks.fullReported then s
  else
    State.report { s with marks := { s.marks with fullReported := true } }
      (.journalFull
        { oldest := s.ret.journal.oldest.getD 0, newest := s.ret.journal.newest.getD 0,
          pending := s.ret.visits.order.length, clock := s.ret.clock })

/-! ### Computation (R163 to R167) -/

/-- The second part of a ticket (R163). -/
structure SecondPart where
  value    : Int
  interval : Nat
  time     : Nat
  source   : Source
  bridge   : Option BridgeNo
  waived   : Bool

/-- Step 3 of R164: the raw net rounded to a whole number of ticket intervals. -/
def roundedNet (raw : Int) (dt : Nat) : Int := roundDiv raw dt * dt

/-- Step 4 of R164: a net outside the range replaced by the nearest multiple of dt within it. -/
def rangedNet (net : Int) (dt : Nat) : Int :=
  if int32Max < net then ((2147483647 / dt : Nat) : Int) * dt
  else if net < int32Min then -(((2147483648 / dt : Nat) : Int) * dt)
  else net

/-- The charge of a net (R166): the minimum for a net below 20·dt, else the larger of the rounded product and the
minimum, held at the top of the range. -/
def chargeOf (net : Int) (dt rate minCharge : Nat) : Nat :=
  if net.natAbs < 20 * dt then minCharge
  else min (max (roundDiv ((net.natAbs * rate : Nat) : Int) 1000000).toNat minCharge) 2147483647

/-- The ticket of a visit from its two parts (R163 to R167). -/
def computeTicket (v : Visit) (first : WeighingRecord) (second : SecondPart) (stream : Stream) : TicketBody :=
  let dt := max first.interval second.interval
  let net := rangedNet (roundedNet (first.weight - second.value) dt) dt
  { visit := v.number, tag := v.tag, account := v.account, stream := v.stream,
    direction := if net < 0 then .collection else .delivery,
    firstWeight := first.weight, firstInterval := first.interval, firstBridge := first.bridge, firstTime := first.time,
    secondValue := second.value, secondInterval := second.interval, secondTime := second.time, source := second.source,
    secondBridge := second.bridge, net := net, ticketInterval := dt, rate := stream.rate, minCharge := stream.minCharge,
    charge := chargeOf net dt stream.rate stream.minCharge, provisional := v.provisional,
    belowMin := decide (net.natAbs < 20 * dt), zeroWaived := first.zeroWaived || second.waived }

/-- The second part made of a weighing record. -/
def WeighingRecord.secondPart (r : WeighingRecord) : SecondPart :=
  { value := r.weight, interval := r.interval, time := r.time, source := .secondWeighing, bridge := some r.bridge,
    waived := r.zeroWaived }

/-- The second part made of a stored tare, which carries no ZERO_WAIVED (R167). -/
def Tare.secondPart (t : Tare) : SecondPart :=
  { value := t.tare, interval := t.interval, time := t.time, source := .storedTare, bridge := t.bridge, waived := false }

/-- The tare refresh at the computation of an outbound DELIVERY ticket (R162). -/
def State.refreshTare (s : State) (v : Visit) (body : TicketBody) (second : WeighingRecord) : State :=
  if body.direction = .delivery ∧ v.provisional = false ∧
      (s.adm.searched v.tag).any (fun p => p.account == v.account && p.tareRefresh) = true then
    s.placeTare
      { tag := v.tag, tare := second.weight, interval := second.interval, bridge := some second.bridge, time := second.time }
  else s

/-! ### Issue and drain (R168 to R171) -/

/-- The lane, its rear barrier raised for the vehicle, goes to LEAVING; an outbound visit becomes EXITING (R88 to R90,
R150). -/
def State.enterLeaving (s : State) (l : LaneNo) : State :=
  let s := s.raiseRear l
  let s : State :=
    match (s.lane l).visit with
    | none => s
    | some n =>
      if (s.config l).role = .outbound then
        s.onVisit n (fun v => if v.state = .ticketed then { v with state := .exiting } else v)
      else s
  s.enterState l .leaving none

/-- A lane in TICKET_WAIT whose lane visit has had its ticket issued goes to LEAVING (R89). -/
def State.freeWaiting (s : State) (n : Nat) : State :=
  match allFour.find? (fun l => (s.lane l).state == .ticketWait && (s.lane l).visit == some n) with
  | none => s
  | some l => s.enterLeaving l

/-- The ticket the issue makes of a body (R169, steps 1 and 2). -/
def State.issuedTicket (s : State) (body : TicketBody) : Ticket :=
  { body := body, number := s.ret.journal.counter, timeUnset := s.ret.clockUnset, issueTime := s.ret.clock,
    calCounter := s.ret.calCounter, collected := false }

/-- The deduction at issue: nothing for a provisional ticket (R170). -/
def State.deductFor (s : State) (body : TicketBody) : State :=
  if body.provisional then s else s.onAdm (fun a => a.deduct body.account body.charge)

/-- The TICKET_ISSUED report (R171). -/
def State.issuedReport (s : State) (t : Ticket) (v : Visit) : Report :=
  let entries := if t.body.provisional then 0 else s.adm.entriesOf t.body.account
  .ticketIssued
    { ticket := t, currentLane := v.currentLane, wasPending := v.state == .ticketPending, deducted := entries,
      credit := if entries = 0 then none else s.adm.creditOf t.body.account }

/-- The issue of one ticket, that of a visit at the head of the order (R169). TICKET_ISSUED is queued before the lane's
LANE_STATE, and the high-water test follows. So JOURNAL_HIGH comes after the LANE_STATE of a lane that leaves TICKET_WAIT
(DEDUCED, log entry 25) and before that of a lane whose capture completes (DESIGN CHOICE, log entry 67). -/
def State.issue (s : State) (v : Visit) (body : TicketBody) : State :=
  let t := s.issuedTicket body
  let s := s.onJournal (fun j => j.add t)
  let s := s.deductFor body
  let s := s.onVisits (fun x => { x with order := x.order.filter (· ≠ v.number) })
  let s := s.onVisit v.number (fun x => { x with state := .ticketed, pending := none, ticketNumber := some t.number })
  let s := s.report (s.issuedReport t v)
  (s.freeWaiting v.number).testHigh

/-- The drain, at most as often as the order is long (R168). -/
def State.drainAtMost : Nat → State → State
  | 0, s => s
  | k + 1, s =>
    match s.ret.visits.order with
    | [] => s
    | n :: _ =>
      if s.failing then s
      else if s.ret.journal.held then s
      else if s.ret.journal.accepts then
        match s.visitOf n with
        | none => (s.onVisits (fun x => { x with order := x.order.tail })).drainAtMost k
        | some v =>
          match v.pending with
          | none => (s.onVisits (fun x => { x with order := x.order.tail })).drainAtMost k
          | some body => (s.issue v body).drainAtMost k
      else s.reportFull

/-- The issue drain (R168). -/
def State.drain (s : State) : State := s.drainAtMost s.ret.visits.order.length

/-- A computed ticket joins the end of the order and the drain runs; a ticket still in the order after it is pending
(R168). -/
def State.joinAndDrain (s : State) (n : Nat) (body : TicketBody) : State :=
  let s := s.onVisit n (fun v => { v with pending := some body })
  let s := s.onVisits (fun t => { t with order := t.order ++ [n] })
  let s := s.drain
  if s.ret.visits.order.contains n then s.onVisit n (fun v => { v with state := .ticketPending }) else s

end Sys2Proof.Machine
end

