-- ==== Sys2Proof/Machine/Sequences.lean ====
section
/-! DEFINITION. Captures from start to end, and the lanes' transitions: entry, leaving, backout, passing, withdrawal,
takeover, faults (chapters 3 and 5). -/

namespace Sys2Proof.Machine

/-! ### Captures (R42 to R54) -/

/-- The bridge on which a capture runs for a lane. -/
def State.captureBridge (s : State) (l : LaneNo) : Option BridgeNo :=
  allFour.find? (fun b => (s.bridge b).capture.any (fun c => c.lane == l))

/-- The conditions of a capture start (R43). -/
def State.canStartCapture (s : State) (l : LaneNo) (b : BridgeNo) : Bool :=
  (s.grant b).holder == some l && (s.bridge b).capture.isNone && !s.failing

/-- A visit's move into its weighing state (R43, R148). -/
def VisitState.weighing : VisitState → VisitState
  | .admitted => .weighingIn
  | .onSite   => .weighingOut
  | st        => st

/-- A visit's return from its weighing state (R50, R53, R54, R148). -/
def VisitState.returned : VisitState → VisitState
  | .weighingIn  => .admitted
  | .weighingOut => .onSite
  | st           => st

/-- A capture start (R43); one that does not meet the conditions is not made (R44). -/
def State.startCapture (s : State) (l : LaneNo) (b : BridgeNo) (visit : Nat) : State :=
  if s.canStartCapture l b then
    let timeout := (s.timing b).captureTimeout
    let s := s.onBridge b (fun x =>
      { x with
        capture := some
          { visit := visit, lane := l, start := s.ret.clock, timeout := timeout, deadline := timeout * 1000,
            blocking := .notReady } })
    s.onVisit visit (fun v => { v with state := v.state.weighing })
  else s

/-- A lane starts a capture for its lane visit on its bridge. -/
def State.startOwnCapture (s : State) (l : LaneNo) : State :=
  match (s.config l).bridge, (s.lane l).visit with
  | some b, some n => s.startCapture l b n
  | _, _ => s

/-- The capture record of a bridge is removed and its deadline stops. -/
def State.dropCapture (s : State) (b : BridgeNo) : State := s.onBridge b (fun x => { x with capture := none })

/-- A visit returns from its weighing state. -/
def State.returnVisit (s : State) (n : Nat) : State := s.onVisit n (fun v => { v with state := v.state.returned })

/-- The capture of a bridge is cancelled; a takeover leaves the visit to its own treatment (R52 to R54). -/
def State.cancelCaptureOn (s : State) (b : BridgeNo) (why : Cancellation) : State :=
  match (s.bridge b).capture with
  | none => s
  | some c =>
    let s := s.dropCapture b
    let s := s.onLane c.lane (fun n => { n with lastReason := some (.cancelled why) })
    if why = .takeover then s else s.returnVisit c.visit

/-- The capture of a lane is cancelled, where it has one. -/
def State.cancelCaptureOf (s : State) (l : LaneNo) (why : Cancellation) : State :=
  match s.captureBridge l with
  | none => s
  | some b => s.cancelCaptureOn b why

/-! ### Takeover and MANUAL (R95, R96, R152) -/

/-- A barrier of the lane is RAISING or LOWERING (R95). -/
def State.laneMoving (s : State) (l : LaneNo) : Bool :=
  let moving (b : Option BarrierNo) : Bool :=
    match b with
    | none => false
    | some b => (s.barrier b).moving
  moving (s.config l).front || moving (s.config l).rear

/-- The treatment of a visit at its lane's entry to MANUAL (R152): nothing where the visit is removed. -/
def Visit.takenOver (v : Visit) : Option Visit :=
  match v.state with
  | .admitted      => none
  | .weighingIn    => none
  | .weighingOut   => some { v with state := .onSite }
  | .onSite        => some { v with currentLane := none }
  | .ticketPending => some { v with currentLane := none }
  | .ticketed      => some { v with currentLane := none }
  | .exiting       => some { v with state := .ticketed, currentLane := none }

/-- The visit's state after its treatment, nothing for REMOVED. -/
def State.takenOverState (s : State) (n : Nat) : Option VisitState :=
  (s.visitOf n).bind (fun v => v.takenOver.map (·.state))

/-- The takeover treatment of a lane visit (R152). -/
def State.treatTakenOver (s : State) (n : Nat) : State :=
  match s.visitOf n with
  | none => s
  | some v =>
    match v.takenOver with
    | none => s.removeVisit n
    | some w => s.onVisit n (fun _ => w)

/-- The lane's items as its entry to MANUAL leaves them (R96, step 4). -/
def Lane.manual (n : Lane) : Lane :=
  { n with
    state := .manual, identity := none, visit := none, query := none, frontMark := .none, rearMark := .none,
    entered := false, signal := .red, takeoverFrom := none }

/-- The entry to MANUAL (R96): "the capture is cancelled and the visit treated before the grant is released" (R145;
DEDUCED, log entry 16). -/
def State.enterManual (s : State) (l : LaneNo) : State :=
  let accepted := (s.lane l).takeoverFrom.getD (s.lane l).state
  let visit := (s.lane l).visit
  let cancelled := (s.captureBridge l).isSome
  let s := s.cancelCaptureOf l .takeover
  let after := visit.bind s.takenOverState
  let s : State :=
    match visit with
    | none => s
    | some n => s.treatTakenOver n
  let s := s.releaseGrant l
  let s := s.onLane l Lane.manual
  s.report (.takeoverGranted
    { lane := l, from_ := accepted, visit := visit, after := after, cancelled := cancelled, clock := s.ret.clock })

/-- The acceptance of a takeover stops the lane's own sequence (R95). -/
def State.stopSequence (s : State) (l : LaneNo) : State :=
  let s := if (s.lane l).state = .admitting then s.abandonQuery l else s
  let s := if (s.lane l).state = .siteFull then s.leaveSiteFull l else s
  let s := if (s.lane l).state = .awaitBridge then s.withdrawRequest l else s
  s.onLane l (fun n => { n with identityTimer := .stopped, entryTimer := .stopped })

/-- A takeover accepted for a lane (R95). -/
def State.takeOver (s : State) (l : LaneNo) : State :=
  if (s.lane l).state = .manual ∨ (s.lane l).state = .takeoverPending then s
  else
    let s := s.stopSequence l
    let s := s.onLane l (fun n => { n with takeoverFrom := some n.state })
    if s.laneMoving l then s.enterState l .takeoverPending none else s.enterManual l

/-- A lane in TAKEOVER_PENDING none of whose barriers moves enters MANUAL, but not under power fail (R95, R98). -/
def State.testTakeover (s : State) (l : LaneNo) : State :=
  if (s.lane l).state = .takeoverPending ∧ s.failing = false ∧ s.laneMoving l = false then s.enterManual l else s

/-! ### Entering, leaving, backing out, passing (R84, R86, R87, R90, R92) -/

/-- The entry conditions (R86). -/
def State.entryMet (s : State) (l : LaneNo) : Bool :=
  (s.lane l).frontMark == .passed && !s.approachOccupied l && s.ownBridgeLoaded l

/-- The vehicle is on the bridge: the entry timer stops, the front barrier lowers, and a capture starts or the entered
mark is set (R86). With the front barrier DOWN already, the lane of a ticketed visit goes to LEAVING at its next test, not
at this event (DESIGN CHOICE, log entry 54). -/
def State.completeEntry (s : State) (l : LaneNo) : State :=
  let s := s.onLane l (fun n => { n with entryTimer := .stopped })
  let s := s.lowerFront l
  match (s.lane l).visit.bind s.visitOf with
  | none => s
  | some v =>
    if v.state = .ticketed then s.onLane l (fun n => { n with entered := true, signal := .red })
    else (s.startOwnCapture l).enterState l .weighing none

/-- The rear crossing mark has become PASSED in LEAVING: the rear barrier lowers and the vehicle's exit from the lane is
handed to the visit table (R90, R150). -/
def State.passRear (s : State) (l : LaneNo) : State :=
  let s := s.lowerRear l
  let visit := (s.lane l).visit
  let s := s.clearVehicle l
  match visit with
  | none => s
  | some n => if (s.config l).role = .outbound then s.removeVisit n else s.clearCurrentLane n

/-- The end of LEAVING: the rear barrier is DOWN and the bridge is empty (R90). -/
def State.endLeaving (s : State) (l : LaneNo) : State := (s.releaseGrant l).comeToIdle l

/-- The end of a backout (R92): a visit given up on an inbound lane is recorded as BACKED_OUT. The record leaves the
lane's last reason as it was (DESIGN CHOICE, log entry 49). The visit is removed, and the SITE_FULL list served with its
own refusals, before BACKED_OUT is recorded (R126, R151; DESIGN CHOICE, log entry 57). -/
def State.endBackout (s : State) (l : LaneNo) : State :=
  let s := s.lowerFront l
  let s := s.releaseGrant l
  let identity := (s.lane l).identity
  let visit := (s.lane l).visit
  let s := s.giveUpVisit l
  let s : State :=
    match visit, identity with
    | some _, some i => if (s.config l).role = .inbound then s.recordRefusal i.tag l .backedOut else s
    | _, _ => s
  (s.clearVehicle l).comeToIdle l

/-- The end of PASSING (R84). The visit is removed, and the record it frees served, before the lane's own change to IDLE
(DESIGN CHOICE, log entry 50). -/
def State.endPassing (s : State) (l : LaneNo) : State :=
  let s := s.lowerFront l
  let visit := (s.lane l).visit
  let s := s.clearVehicle l
  let s : State :=
    match visit with
    | none => s
    | some n => s.removeVisit n
  s.enterState l .idle none

/-- The withdrawal at the entry timer (R87). An inbound visit is removed, and the record it frees served, before the
lane's own change to IDLE (DESIGN CHOICE, log entry 50). -/
def State.withdraw (s : State) (l : LaneNo) : State :=
  let s := s.lowerFront l
  let s := s.onLane l (fun n => { n with entryTimer := .stopped })
  let s := s.releaseGrant l
  let s := s.giveUpVisit l
  (s.clearVehicle l).enterState l .idle none

/-- The conditions of a withdrawal: bridge empty, approach loop CLEAR, front safety loop CLEAR (R87). -/
def State.canWithdraw (s : State) (l : LaneNo) : Bool :=
  s.ownBridgeEmpty l && !s.approachOccupied l && !s.safetyOccupied (s.config l).front

/-- The entry timer has expired in ENTERING: a withdrawal, or the timer restarts (R87). -/
def State.entryExpired (s : State) (l : LaneNo) : State :=
  if s.canWithdraw l then s.withdraw l else s.onLane l (fun n => { n with entryTimer := .running s.entryTime })

/-- The lane tests the conditions of its state and takes the transition they meet (R78, R84, R86, R90, R92); under power
fail it makes no change of state (R98). -/
def State.testLane (s : State) (l : LaneNo) : State :=
  if s.failing then s
  else
    match (s.lane l).state with
    | .entering =>
      if (s.lane l).entered then
        if s.barrierIs (s.config l).front .down then s.enterLeaving l else s
      else if s.entryMet l then s.completeEntry l
      else s
    | .leaving =>
      if (s.lane l).rearMark = .passed ∧ s.barrierIs (s.config l).rear .down = true ∧ s.ownBridgeEmpty l = true then
        s.endLeaving l
      else s
    | .backingOut =>
      if (s.lane l).frontMark = .passed ∧ s.ownBridgeEmpty l = true then s.endBackout l else s
    | .passing =>
      if (s.lane l).frontMark = .passed ∧ s.approachOccupied l = false then s.endPassing l else s
    | _ => s

/-- The vehicle has left before entering: what the state holds is undone and the lane goes to IDLE (R80). A grant taken
under power fail and held in AWAIT_BRIDGE is returned (DEDUCED, log entry 14). -/
def State.leaveBeforeEntry (s : State) (l : LaneNo) : State :=
  match (s.lane l).state with
  | .awaitId     => (s.clearVehicle l).enterState l .idle none
  | .noId        => (s.clearVehicle l).enterState l .idle none
  | .refused     => (s.clearVehicle l).enterState l .idle none
  | .admitting   => ((s.abandonQuery l).clearVehicle l).enterState l .idle none
  | .siteFull    => ((s.leaveSiteFull l).clearVehicle l).enterState l .idle none
  | .awaitBridge =>
    let s := (s.withdrawRequest l).releaseGrant l
    ((s.giveUpVisit l).clearVehicle l).enterState l .idle none
  | _ => s

/-! ### Lane faults (R94) -/

/-- A barrier of the lane has entered FAULT (R94). The entry to MANUAL that the end of the motion allows a lane in
TAKEOVER_PENDING comes after (R53). -/
def State.faultLane (s : State) (l : LaneNo) : State :=
  match (s.lane l).state with
  | .manual => s
  | .takeoverPending => s.cancelCaptureOf l .barrierFault
  | _ =>
    let cancelled := (s.captureBridge l).isSome
    let s := s.cancelCaptureOf l .barrierFault
    let s := s.stopSequence l
    let s := s.onLane l (fun n => { n with lastReason := some (.cancelled .barrierFault) })
    s.enterState l .laneFault (if cancelled then some (.cancelled .barrierFault) else none)

/-- A barrier enters FAULT: the report, then the lanes that name it (R65). The lanes take the fault in the order of their
numbers, and only then does a lane in TAKEOVER_PENDING enter MANUAL, so that a waiting request of the other lane is
withdrawn before the grant is released, as R110 has it (DESIGN CHOICE, log entry 47). -/
def State.faultBarrier (s : State) (b : BarrierNo) (reason : FaultReason) : State :=
  let before := (s.barrier b).state
  let s := s.onBarrier b (Barrier.enterFault reason)
  let x := s.barrier b
  let s := s.report (.barrierFault
    { barrier := b, reason := reason, before := before, upActive := x.upActive, downActive := x.downActive,
      occupied := x.occupied, reversals := x.reversals, lanes := s.lanesNaming b, clock := s.ret.clock })
  let s := forEach (s.lanesNaming b) (fun l s => s.faultLane l) s
  forEach (s.lanesNaming b) (fun l s => s.testTakeover l) s

/-- A barrier has come to rest, or has left FAULT: the lanes that name it test their conditions (R64, R68), in the order
of their numbers (DESIGN CHOICE, log entry 47). -/
def State.barrierSettled (s : State) (b : BarrierNo) : State :=
  forEach (s.lanesNaming b) (fun l s => (s.testLane l).testTakeover l) s

end Sys2Proof.Machine
end

