-- ==== Sys2Proof/Machine/Weighing.lean ====
section
/-! DEFINITION. From a sample to a bridge state: channels, decks, the evaluation of a bridge, its zero, the capture test
and completion (chapters 1 to 3). -/

namespace Sys2Proof.Machine

/-! ### Channels (R3 to R8) -/

/-- A channel without a sample, as after a change of assignment and at reset (R5, R16). -/
def Channel.blank (timer : Timer) (receiver : CellReceiver) : Channel :=
  { sample := none, age := 65535, fault := false, stall := false, stallTimer := timer, awaited := false,
    receiver := receiver }

/-- The stall timer length 4P (R4). -/
def State.stallTime (s : State) : Nat := 4 * s.period

/-- The freshness limit 2P (R7, R20). -/
def State.freshTime (s : State) : Nat := 2 * s.period

/-- w = round((c − z) × s / 65,536) (R6). -/
def cellWeight (cal : ChannelCal) (counts : Int) : Int := roundDiv ((counts - cal.zero) * cal.span) 65536

/-- The cell weight of the latest sample, where R6 gives one. -/
def State.weightOf (s : State) (c : ChannelNo) : Option Int :=
  match (s.channel c).sample with
  | none => none
  | some x =>
    let w := cellWeight (s.channelCal c) x.counts
    if (s.channelCal c).calibrated && inInt32 w then some w else none

/-- The judgement of a channel (R7). -/
def State.judge (s : State) (c : ChannelNo) : Judgement :=
  if (s.channelCal c).calibrated = false then .uncalibrated
  else
    match (s.channel c).sample with
    | none => .stale
    | some x =>
      if s.freshTime < (s.channel c).age then .stale
      else if (s.channel c).fault then .faulted
      else if x.status = .overrange ∨ inInt32 (cellWeight (s.channelCal c) x.counts) = false then .over
      else .good

/-- The channels assigned to a deck, lowest first (R8). -/
def State.deckChannels (s : State) (d : DeckNo) : List ChannelNo := allSixteen.filter (fun c => s.deckOf c == some d)

/-- The lead channel of a deck (R7). -/
def State.leadOf (s : State) (d : DeckNo) : Option ChannelNo := (s.deckChannels d).head?

/-- The bridge a deck is a member of (section 2.2). -/
def State.bridgeOfDeck (s : State) (d : DeckNo) : Option BridgeNo :=
  allFour.find? (fun b => (s.bridgeCal b).members.contains d)

/-- The recording of a sample (R3): latest sample, age 0, fault flag, stall timer; it is awaited no more (R9). -/
def Channel.arrived (c : Channel) (counts : Int) (status : SampleStatus) (stallTime : Nat) : Channel :=
  { c with
    sample := some { counts := counts, status := status }, age := 0, fault := decide (status = .cellFault),
    stallTimer := some stallTime, awaited := false, receiver := .hunting }

/-! ### Decks (R17 to R20) -/

/-- The filter length of a deck: its bridge's L, or 1 for a deck that belongs to no bridge (R19). -/
def State.filterLength (s : State) (d : DeckNo) : Nat :=
  match s.bridgeOfDeck d with
  | none => 1
  | some b => (s.bridgeCal b).filter

/-- The sum of the cell weights of a deck's channels (R18). -/
def State.deckValue (s : State) (d : DeckNo) : Int :=
  sumInt ((s.deckChannels d).map (fun c => (s.weightOf c).getD 0))

/-- A channel of the deck has had no arrival since the deck's set of channels changed: a lead arrival "finds it stale,
unless every member has since received a sample" (R9). -/
def State.awaitsMember (s : State) (d : DeckNo) : Bool := (s.deckChannels d).any (fun c => (s.channel c).awaited)

/-- The condition of a deck with channels at a lead arrival (R17), by the judgements of R7, and STALE too while a channel
is awaited after a change of the deck's set (R9; DEDUCED, log entry 43). -/
def State.deckCondition (s : State) (d : DeckNo) : DeckCondition :=
  let js := (s.deckChannels d).map s.judge
  if js.contains .uncalibrated then .uncalibrated
  else if js.contains .stale || js.contains .faulted || s.awaitsMember d then .stale
  else if js.contains .over || !inInt32 (s.deckValue d) then .over
  else .valid

/-- A deck value passes through the filter (R19). -/
def Deck.take (k : Deck) (value : Int) (length : Nat) : Deck :=
  let history := lastOf length (k.history ++ [value])
  { k with condition := .valid, history := history, filtered := some (roundDiv (sumInt history) history.length) }

/-- A deck in a condition other than VALID holds no history and no F (R17). -/
def Deck.cleared (k : Deck) (condition : DeckCondition) : Deck :=
  { k with condition := condition, history := [], filtered := none }

/-- A lead-channel arrival at a deck, before its bridge is evaluated (R17). -/
def State.deckArrival (s : State) (d : DeckNo) : State :=
  s.onDeck d (fun k =>
    let k := if s.deckCondition d = .valid then k.take (s.deckValue d) (s.filterLength d) else k.cleared (s.deckCondition d)
    { k with freshness := some s.freshTime })

/-! ### The evaluation's results (R21 to R25) -/

/-- The sum of filtered values, where every one is there. -/
def sumFiltered : List (Option Int) → Option Int
  | [] => some 0
  | none :: _ => none
  | some f :: rest => (sumFiltered rest).map (f + ·)

/-- The bridge sum S: of the F of every member deck, when every member deck is VALID (R21). -/
def State.bridgeSum (s : State) (b : BridgeNo) : Option Int :=
  let decks := (s.bridgeCal b).members.map s.deck
  if decks.all (fun k => k.condition == .valid) then sumFiltered (decks.map (·.filtered)) else none

/-- The results of one evaluation. -/
structure Evaluation where
  sum        : Option Int
  gross      : Option Int
  weight     : Option Int
  window     : List Int
  state      : BridgeState
  underlying : Bool
  run        : Nat
  deriving DecidableEq, Repr

/-- G lies within −20d to Max + 9d (R24). -/
def BridgeCal.inBand (k : BridgeCal) (g : Int) : Bool :=
  decide (-(20 * k.interval : Int) ≤ g ∧ g ≤ (k.maximum : Int) + 9 * k.interval)

/-- W = round(G / d) × d, absent outside the weight range (R22, R37). -/
def BridgeCal.quantised (k : BridgeCal) (g : Int) : Option Int :=
  if inInt32 g && inInt32 (roundDiv g k.interval * k.interval) then some (roundDiv g k.interval * k.interval) else none

/-- The motion window after an evaluation (R24). -/
def BridgeCal.nextWindow (k : BridgeCal) (window : List Int) (sum gross : Option Int) : List Int :=
  match sum, gross with
  | some x, some g => if k.inBand g then lastOf k.window (window ++ [x]) else []
  | _, _ => []

/-- The first line of R23 that applies; `closed` is the CALIBRATING line. With a member OVER, that member counts as the
reason why no G was formed, also where another member is VALID without an F, as after a CAL_BRIDGE (DESIGN CHOICE, log
entry 53). -/
def BridgeCal.stateOf (k : BridgeCal) (conditions : List DeckCondition) (gross : Option Int) (window : List Int)
    (closed : Bool) : BridgeState :=
  if !k.calibrated || conditions.contains .noChannels || conditions.contains .uncalibrated || conditions.contains .stale ||
      (gross.isNone && !conditions.contains .over) then .notReady
  else if closed then .calibrating
  else if conditions.contains .over || gross.any (fun g => decide ((k.maximum : Int) + 9 * k.interval < g)) then .over
  else if gross.any (fun g => decide (g < -(20 * k.interval : Int))) then .under
  else if window.length < k.window || (k.band : Int) < spread window then .motion
  else .stable

/-- The stable run after an evaluation (R25). -/
def nextRun (run : Nat) (st : BridgeState) : Nat := if st = .stable then countTo 255 run else 0

/-- The results of an evaluation of a bridge (R21 to R25). -/
def State.evaluation (s : State) (b : BridgeNo) : Evaluation :=
  let k := s.bridgeCal b
  let x := s.bridge b
  let sum := s.bridgeSum b
  let gross := sum.map (fun v => v - x.zb)
  let window := k.nextWindow x.window sum gross
  let conditions := k.members.map (fun d => (s.deck d).condition)
  let st := k.stateOf conditions gross window s.metrology.closed
  { sum := sum, gross := gross, weight := gross.bind k.quantised, window := window, state := st,
    underlying := k.stateOf conditions gross window false == .stable, run := nextRun x.run st }

/-- The results of the evaluation that follows a calibration which cleared the window: no G, NOT_READY (R36). -/
def Evaluation.afterCalibration : Evaluation :=
  { sum := none, gross := none, weight := none, window := [], state := .notReady, underlying := false, run := 0 }

/-- A bridge holds the results of its latest evaluation. -/
def Bridge.evaluated (x : Bridge) (e : Evaluation) : Bridge :=
  { x with
    sum := e.sum, gross := e.gross, weight := e.weight, window := e.window, state := e.state,
    underlying := e.underlying, run := e.run }

/-! ### The zero (R26 to R32) -/

/-- The zero timer length in milliseconds (R27). -/
def State.zeroTime (s : State) (b : BridgeNo) : Nat := (s.timing b).zeroInterval * 1000

/-- A candidate zero lies within Z0 ± zr·d (R26). -/
def BridgeCal.zeroInRange (k : BridgeCal) (candidate : Int) : Bool := decide ((candidate - k.z0).natAbs ≤ k.zr * k.interval)

/-- A new working zero is taken: backlog 0, flag and mark cleared, timer restarted (R29, R31). -/
def Bridge.zeroTaken (x : Bridge) (zb : Int) (time : Nat) : Bridge :=
  { x with zb := zb, backlog := 0, waived := false, limitReported := false, zeroTimer := time }

/-- The ZERO_EVENT report of a bridge as it stands (R41). -/
def State.zeroReport (s : State) (b : BridgeNo) (event : ZeroEvent) (candidate before : Option Int) : Report :=
  .zeroEvent
    { bridge := b, event := event, z0 := (s.bridgeCal b).z0, zb := (s.bridge b).zb, backlog := (s.bridge b).backlog,
      waived := (s.bridge b).waived, clock := s.ret.clock, candidate := candidate, before := before }

/-- The five conditions of a zero capture attempt (R29). -/
def State.zeroAttempted (s : State) (b : BridgeNo) : Bool :=
  decide (0 < (s.bridge b).backlog) && (s.grant b).holder.isNone && (s.bridge b).state == .stable &&
    decide ((s.timing b).hold ≤ (s.bridge b).run) && s.bridgeEmpty b

/-- The zero capture of an evaluation (R29), with its failure at the limit (R30). -/
def State.attemptZero (s : State) (b : BridgeNo) : State :=
  if s.zeroAttempted b then
    let before := (s.bridge b).zb
    let candidate := before + (s.bridge b).gross.getD 0
    if (s.bridgeCal b).zeroInRange candidate then
      let s := s.onBridge b (fun x => x.zeroTaken candidate (s.zeroTime b))
      s.report (s.zeroReport b .captured none (some before))
    else if (s.bridge b).limitReported then s
    else
      let s := s.onBridge b (fun x => { x with limitReported := true })
      s.report (s.zeroReport b .limit (some candidate) none)
  else s

/-! ### The capture test (R45 to R49) -/

/-- Both deck-end beams of a bridge are clear (R45, R70). -/
def State.beamsClear (s : State) (b : BridgeNo) : Bool :=
  !(s.beam ⟨2 * b.val, by omega⟩).broken && !(s.beam ⟨2 * b.val + 1, by omega⟩).broken

/-- The blocking condition of a capture at an evaluation, or nothing when it completes (R45). -/
def State.blocking (s : State) (b : BridgeNo) (l : LaneNo) : Option Blocking :=
  match (s.bridge b).state with
  | .notReady    => some .notReady
  | .calibrating => some .calibrating
  | .over        => some .over
  | .under       => some .under
  | .motion      => some .motion
  | .stable =>
    if (s.bridge b).run < (s.timing b).hold then some .motion
    else if !s.beamsClear b then some .beam
    else if !s.barrierIs (s.config l).front .down then some .barrier
    else none

/-- The weighing record of a completing evaluation (R47). -/
def State.weighingRecord (s : State) (b : BridgeNo) : WeighingRecord :=
  let w := (s.bridge b).weight.getD 0
  let d := (s.bridgeCal b).interval
  { weight := w, interval := d, bridge := b, decks := (s.bridgeCal b).members, time := s.ret.clock,
    calCounter := s.ret.calCounter, belowMin := decide (w.natAbs < 20 * d), zeroWaived := (s.bridge b).waived }

/-- The valid tare that makes an inbound visit single-pass (R149). -/
def State.singlePassTare (s : State) (v : Visit) : Option Tare :=
  if v.storedTare then (s.tareOf v.tag).filter (fun t => t.valid s.ret.clock s.timers.tareDays) else none

/-- The lane of a computed ticket: to LEAVING where the ticket has issued, else to TICKET_WAIT (R88). A lane that waits in
TAKEOVER_PENDING stays there (DEDUCED, log entry 17). Its LANE_STATE comes after the JOURNAL_HIGH of the issue (DESIGN
CHOICE, log entry 67), or after the JOURNAL_FULL of a drain that a full journal stops (DESIGN CHOICE, log entry 68). -/
def State.leaveOrWait (s : State) (l : LaneNo) (n : Nat) : State :=
  if (s.lane l).state = .weighing then
    if s.ret.visits.order.contains n then s.enterState l .ticketWait none else s.enterLeaving l
  else s

/-- What a weighing record does to the visit and the lane of its capture (R48, R88, R148, R163). -/
def State.settleWeighing (s : State) (l : LaneNo) (v : Visit) (r : WeighingRecord) : State :=
  match v.state with
  | .weighingIn =>
    match s.singlePassTare v with
    | none =>
      let s := s.onVisit v.number (fun x => { x with state := .onSite, first := some r })
      if (s.lane l).state = .weighing then s.enterLeaving l else s
    | some t =>
      let s := s.onVisit v.number (fun x => { x with singlePass := true, first := some r })
      (s.joinAndDrain v.number (computeTicket v r t.secondPart (s.stream v.stream))).leaveOrWait l v.number
  | .weighingOut =>
    let body := computeTicket v (v.first.getD r) r.secondPart (s.stream v.stream)
    ((s.refreshTare v body r).joinAndDrain v.number body).leaveOrWait l v.number
  | _ => s

/-- A capture completes: its record, CAPTURE_DONE, then the visit and the lane (R46 to R49). -/
def State.completeCapture (s : State) (b : BridgeNo) (c : Capture) : State :=
  let r := s.weighingRecord b
  let s := s.dropCapture b
  let s := s.report (.captureDone { bridge := b, lane := c.lane, visit := c.visit, start := c.start, record := r })
  match s.visitOf c.visit with
  | none => s
  | some v => s.settleWeighing c.lane v r

/-- The capture test of an evaluation (R45). -/
def State.testCapture (s : State) (b : BridgeNo) : State :=
  match (s.bridge b).capture with
  | none => s
  | some c =>
    match s.blocking b c.lane with
    | some why => s.onBridge b (fun x => { x with capture := some { c with blocking := why } })
    | none => s.completeCapture b c

/-! ### The evaluation as an event (R21) -/

/-- The zero capture and the grant decision, in the order this evaluation takes them (R29, R108; FREE VALUE, log entry 2).
A capture taken first can bring the first grant after reset at this evaluation (DESIGN CHOICE, log entry 66). -/
def State.zeroAndGrant (s : State) (b : BridgeNo) : State :=
  let first := Config.grantFirst s.evaluations
  let s := { s with evaluations := s.evaluations + 1 }
  if first then (s.decideGrant b).attemptZero b else (s.attemptZero b).decideGrant b

/-- An evaluation with its results: the bridge takes them, then zero capture and grant decision, the capture test, and the
conditions of the lanes of the bridge (that these come in this order is the model's choice, log entry 52). -/
def State.applyEvaluation (s : State) (b : BridgeNo) (e : Evaluation) : State :=
  let s := s.onBridge b (fun x => x.evaluated e)
  let s := s.zeroAndGrant b
  let s := s.testCapture b
  forEach (s.listing b) (fun l s => s.testLane l) s

/-- The evaluation of a bridge; a bridge with no member deck is not evaluated (R21). -/
def State.evaluate (s : State) (b : BridgeNo) : State :=
  if (s.bridgeCal b).members.isEmpty then s else s.applyEvaluation b (s.evaluation b)

/-- The evaluation of the bridge of a deck, if it has one. -/
def State.evaluateDeck (s : State) (d : DeckNo) : State :=
  match s.bridgeOfDeck d with
  | none => s
  | some b => s.evaluate b

/-- Zb is set to Z0 by a calibration, which ends a limit episode (R26, R30, R36). -/
def State.zeroToReference (s : State) (b : BridgeNo) : State :=
  s.onBridge b (fun x => { x with zb := (s.bridgeCal b).z0, limitReported := false })

/-- The bridge's window is cleared by a calibration and it is evaluated at once; one without members is NOT_READY (R36). -/
def State.clearBridge (s : State) (b : BridgeNo) : State :=
  let s := s.zeroToReference b
  if (s.bridgeCal b).members.isEmpty then s.onBridge b (fun x => x.evaluated .afterCalibration)
  else s.applyEvaluation b .afterCalibration

/-- A sample arrival on an assigned channel (R3, R7, R17, R21). An unused channel takes none (R5). -/
def State.sampleArrives (s : State) (c : ChannelNo) (counts : Int) (status : SampleStatus) : State :=
  match s.deckOf c with
  | none => s.onChannel c (fun x => { x with receiver := .hunting })
  | some d =>
    let wasFault := (s.channel c).fault
    let s := s.onChannel c (fun x => x.arrived counts status s.stallTime)
    let s := if status = .cellFault ∧ wasFault = false then
        s.report (.channelFault c (some d) counts s.ret.clock) else s
    if s.leadOf d = some c then ((s.deckArrival d).evaluateDeck d).seal else s

end Sys2Proof.Machine
end

