-- ==== Sys2Proof/Machine/Reads.lean ====
section
/-! DEFINITION. What the part shows when it is read: the entries of CHANNEL_READ, WEIGHT_READ and STATUS_READ and the
records of the other reads (R14, R37, R73, R101, R125, R128, R132, R155, R161, R190, R195). -/

namespace Sys2Proof.Machine

/-- Milliseconds shown as whole seconds, a part of a second counting as one (DESIGN CHOICE, log entry 5). -/
def shownSeconds (ms : Nat) : Nat := (ms + 999) / 1000

/-- A timer as a read shows it (R101, R132). -/
def HeldTimer.shown : HeldTimer → ShownTimer
  | .stopped      => .stopped
  | .running left => .seconds (shownSeconds left)
  | .expired      => .expired

/-- The link-flags byte (R190). -/
def State.linkFlags (s : State) : Byte :=
  BitVec.ofBool false ++ BitVec.ofBool false ++ BitVec.ofBool s.ret.clockUnset ++ BitVec.ofBool s.failing ++
    BitVec.ofBool s.ret.journal.held ++ BitVec.ofBool s.marks.high ++ BitVec.ofBool s.adm.reportPending ++
    BitVec.ofBool s.link.reportsLost

/-- A channel entry (R14). -/
def State.channelEntry (s : State) (c : ChannelNo) : ChannelEntry :=
  let cal := s.channelCal c
  let x := s.channel c
  { channel := c, deck := s.deckOf c,
    lead := (s.deckOf c).any (fun d => s.leadOf d == some c),
    zero := cal.zero, span := cal.span, calibrated := cal.calibrated,
    sample := x.sample.map (fun v => (v.counts, v.status)), age := x.age, weight := s.weightOf c,
    judgement := if (s.deckOf c).isSome then s.judge c else .unused, fault := x.fault, stall := x.stall }

/-- A member deck of a bridge entry (R37). -/
def State.memberEntry (s : State) (d : DeckNo) : MemberEntry :=
  { deck := d, condition := (s.deck d).condition, filtered := (s.deck d).filtered }

/-- A bridge entry (R37). -/
def State.bridgeEntry (s : State) (b : BridgeNo) : BridgeEntry :=
  let k := s.bridgeCal b
  let x := s.bridge b
  let g := s.grant b
  { bridge := b, calibrated := k.calibrated, members := k.members.map s.memberEntry, interval := k.interval,
    maximum := k.maximum, zr := k.zr, state := x.state, gross := x.gross.filter inInt32, weight := x.weight,
    run := x.run, z0 := k.z0, zb := x.zb, backlog := x.backlog, urgent := s.urgent b,
    zeroTimer := shownSeconds x.zeroTimer, waived := x.waived, limit := x.limitReported, holder := g.holder,
    waiting := g.waiting, capture := x.capture.map (fun c => (c.lane, c.visit)) }

/-- A barrier entry (R73). -/
def State.barrierEntry (s : State) (b : BarrierNo) : BarrierEntry :=
  let x := s.barrier b
  { barrier := b, state := x.state, pendingLower := x.pendingLower, reason := x.reason, reversals := x.reversals,
    upActive := x.upActive, downActive := x.downActive, occupied := x.occupied,
    presence := s.pins.safetyPresence.read b, fault := s.pins.safetyFault.read b, lanes := s.lanesNaming b }

/-- An approach loop entry (R73). -/
def State.loopEntry (s : State) (a : LoopNo) : LoopEntry :=
  { loop := a, occupied := (s.loop a).occupied, presence := s.pins.approachPresence.read a,
    fault := s.pins.approachFault.read a, lanes := s.lanesAtLoop a }

/-- A beam entry: beam 2b is end 0 and beam 2b + 1 is end 1 of bridge b (R70, R73). -/
def State.beamEntry (s : State) (m : BeamNo) : BeamEntry :=
  { beam := m, bridge := ⟨m.val / 2, by omega⟩, side := m.val % 2, broken := (s.beam m).broken }

/-- A lane entry (R101). -/
def State.laneEntry (s : State) (l : LaneNo) : LaneEntry :=
  let n := s.lane l
  { lane := l, config := s.config l, state := n.state, identity := n.identity, visit := n.visit, signal := n.signal,
    idTimer := n.identityTimer.shown, entryTimer := n.entryTimer.shown, frontMark := n.frontMark,
    rearMark := n.rearMark, entered := n.entered, query := n.query, lastReason := n.lastReason }

/-- A query slot entry (R132). -/
def QuerySlot.entry (q : QuerySlot) : SlotEntry :=
  { state := q.state
    detail :=
      if q.state = .free then none
      else some
        { number := q.number, tag := q.tag, stream := q.stream, deadline := q.deadline.shown, noInstall := q.noInstall,
          answerHeld := q.held.isSome, provisional := q.provisional } }

/-- The STATUS_READ reply (R195). -/
def State.statusReply (s : State) : StatusReply :=
  { clock := s.ret.clock, clockUnset := s.ret.clockUnset, laneHold := s.laneHold,
    reportCount := s.link.reports.length, requestCount := s.link.queue.length, visits := s.ret.visits.records.length,
    pendingTickets := s.ret.visits.order.length, tickets := s.ret.journal.tickets.length,
    uncollected := s.ret.journal.uncollected, oldest := s.ret.journal.oldest, newest := s.ret.journal.newest,
    ticketCounter := s.ret.journal.counter, lanes := allFour.map s.laneEntry,
    slots := allFour.map (fun l => (s.slot l).entry), barriers := allEight.map s.barrierEntry,
    loops := allFour.map s.loopEntry, beams := allEight.map s.beamEntry }

/-- One item of CACHE_READ (R125). -/
def Admission.cacheItem (a : Admission) (i : Fin 48) : Option CacheItem :=
  (a.permit i).map (fun p =>
    { slot := i.val, pfx := p.pfx, length := p.length, account := p.account, streams := p.streams, credit := p.credit,
      stopped := p.stopped, storedTare := p.storedTare, tareRefresh := p.tareRefresh, bucket := p.bucket })

/-- One record of REFUSAL_READ (R128). -/
def Admission.refusalEntry (a : Admission) (i : Fin 8) : Option RefusalEntry :=
  (a.records.read i).map (fun r =>
    { record := i.val, tag := r.tag, lane := r.lane, reason := r.reason, firstTime := r.firstTime,
      lastTime := r.lastTime, repeats := r.repeats })

/-- One summary of VISIT_READ ALL (R155). -/
def Visit.summary (v : Visit) : VisitSummary :=
  { number := v.number, tag := v.tag, account := v.account, stream := v.stream, state := v.state,
    provisional := v.provisional, storedTare := v.storedTare, singlePass := v.singlePass, currentLane := v.currentLane }

/-- The place of a visit's pending ticket in the pending-ticket order, from 1 at the head. -/
def VisitStore.place (t : VisitStore) (n : Nat) : Option Nat :=
  if t.order.contains n then some (t.order.idxOf n + 1) else none

/-- One record of TARE_READ (R161). -/
def State.tareEntry (s : State) (i : Fin 128) : Option TareEntry :=
  (s.ret.tares.read i).map (fun t =>
    { record := i.val, tare := t, valid := t.valid s.ret.clock s.timers.tareDays })

end Sys2Proof.Machine
end

