-- ==== Sys2Proof/Machine/Settings.lean ====
section
/-! DEFINITION. What a request answers, and the requests of chapter 12 and of the site settings: IDENTIFY, STATUS_READ,
RESET, CONFIG_LANE, CONFIG_BRIDGE_TIMING, CONFIG_STREAM, CONFIG_TIMERS, TIME_SET. -/

namespace Sys2Proof.Machine

/-- What the owning block makes of a request at its taking: the state after it, and its reply's status and contents
(R189). -/
structure Taken where
  state  : State
  status : Status
  body   : ReplyBody

/-- A refused request: its reply carries the status alone (R189). -/
def State.refused (s : State) (status : Status) : Taken := { state := s, status := status, body := .empty }

/-- An accepted request. -/
def State.accepted (s : State) (body : ReplyBody) : Taken := { state := s, status := .ok, body := body }

/-! ### Fields -/

/-- A lane, bridge, deck or barrier byte with 0xFF for none (R189): nothing when it is neither. -/
def optByte (n : Nat) (b : Byte) : Option (Option (Fin n)) :=
  if b = 0xFF then some none else (ofByte n b).map some

/-- What a selector names: one unit, all of them, or nothing. -/
inductive Selected (n : Nat)
  | one (i : Fin n)
  | all
  deriving DecidableEq, Repr

/-- A selector of a number below `n` or ALL (R14, R15, R37, R189). -/
def selectOf (n : Nat) (x : Selector) : Option (Selected n) :=
  if x.form = 0 then (ofByte n x.number).map .one else if x.form = 1 then some .all else none

/-- A lane role byte (R74). -/
def roleOf (b : Byte) : Option Role :=
  if b = 0 then some .none else if b = 1 then some .inbound else if b = 2 then some .outbound
  else if b = 3 then some .bypass else none

/-- An admission fallback byte (R74). -/
def fallbackOf (b : Byte) : Option Fallback :=
  if b = 0 then some .refuse else if b = 1 then some .provisional else none

/-- An approach loop number or none (R74, R189). -/
def loopOf (x : Selector) : Option (Option LoopNo) :=
  if x.form = 0 then (ofByte 4 x.number).map some else if x.form = 1 then some none else none

/-! ### IDENTIFY, STATUS_READ, RESET (R194 to R196) -/

/-- IDENTIFY (R194). -/
def actIdentify (s : State) : Taken := s.accepted .identification

/-- STATUS_READ: the reports-lost flag is cleared; the link-flags byte of its reply is formed before that (R195). -/
def actStatusRead (s : State) : Taken :=
  (s.onLink (fun k => { k with reportsLost := false })).accepted (.statusReply s.statusReply)

/-- RESET changes no state at its taking; the part resets at the end of its reply (R196). -/
def actReset (s : State) : Taken := s.accepted .resetAccepted

/-! ### CONFIG_LANE (R74, R75) -/

/-- The six items a CONFIG_LANE carries, where each holds a value of its list. -/
def laneConfigOf (f : ConfigLaneFields) : Option LaneConfig :=
  match roleOf f.role, optByte 4 f.bridge, optByte 8 f.front, optByte 8 f.rear, loopOf f.loop, fallbackOf f.fallback with
  | some role, some bridge, some front, some rear, some loop, some fallback =>
    some { role := role, bridge := bridge, front := front, rear := rear, loop := loop, fallback := fallback }
  | _, _, _, _, _, _ => none

/-- The items suit the role (R74). -/
def LaneConfig.suitsRole (k : LaneConfig) : Bool :=
  match k.role with
  | .inbound | .outbound =>
    k.bridge.isSome && k.front.isSome && k.rear.isSome && k.loop.isSome && !(k.front == k.rear)
  | .bypass => k.bridge.isNone && k.rear.isNone && k.front.isSome && k.loop.isSome
  | .none => k.bridge.isNone && k.front.isNone && k.rear.isNone && k.loop.isNone

/-- The lane's configuration names a barrier. -/
def LaneConfig.names (k : LaneConfig) (b : BarrierNo) : Bool := k.front == some b || k.rear == some b

/-- A barrier may be named by both of two lanes: they list the same bridge, and it is the front barrier of one and the
rear barrier of the other (R74). -/
def LaneConfig.mayShare (k other : LaneConfig) (b : BarrierNo) : Bool :=
  k.bridge.isSome && k.bridge == other.bridge &&
    ((k.front == some b && other.rear == some b) || (k.rear == some b && other.front == some b))

/-- The items agree with the configuration of another lane (R74). -/
def LaneConfig.agrees (k other : LaneConfig) : Bool :=
  (k.loop.isNone || !(k.loop == other.loop)) &&
    allEight.all (fun b => !(k.names b && other.names b) || k.mayShare other b)

/-- The bridge is listed by fewer than two other lanes (R74). -/
def State.bridgeOpen (s : State) (l : LaneNo) (k : LaneConfig) : Bool :=
  match k.bridge with
  | none => true
  | some b => decide (((s.listing b).filter (· ≠ l)).length < 2)

/-- The checks of R74 on the items for a lane. -/
def State.configFits (s : State) (l : LaneNo) (k : LaneConfig) : Bool :=
  k.suitsRole && s.bridgeOpen l k && (allFour.filter (· ≠ l)).all (fun o => k.agrees (s.config o))

/-- The lane leaves the listing of the bridge it named, whose last-granted lane it is no more (R102). A lane that names
the same bridge again stays in the listing, and stays its last-granted lane (DESIGN CHOICE, log entry 51). -/
def State.leaveListing (s : State) (l : LaneNo) (k : LaneConfig) : State :=
  match (s.config l).bridge with
  | none => s
  | some b =>
    if k.bridge = some b then s
    else s.onGrant b (fun g => if g.last = some l then { g with last := none } else g)

/-- CONFIG_LANE (R74, R75, R102). -/
def actConfigLane (f : ConfigLaneFields) (s : State) : Taken :=
  match ofByte 4 f.lane, laneConfigOf f with
  | some l, some k =>
    if s.configFits l k = false then s.refused .outOfRange
    else if s.failing then s.refused .powerFail
    else if (s.lane l).state ≠ .idle ∧ (s.lane l).state ≠ .manual then s.refused .laneBusy
    else
      let s := s.leaveListing l k
      let s := (s.onSite (fun t => { t with lanes := t.lanes.write l k })).seal
      let s := if (s.lane l).state = .idle then s.comeToIdle l else s
      s.accepted (.laneConfig k (s.lane l).state)
  | _, _ => s.refused .outOfRange

/-! ### CONFIG_BRIDGE_TIMING (R13, R20, R27, R28, R33) -/

/-- The five settings of the bridge as taken (R33, R193). -/
def bridgeTimingOf (f : BridgeTimingFields) : BridgeTiming :=
  { zeroInterval := clampSetting 10 3600 f.zeroInterval.toNat
    urgent := clampSetting 1 15 f.urgent.toNat
    hold := clampSetting 1 16 f.hold.toNat
    empty := clampSetting 1 50 f.empty.toNat
    captureTimeout := clampSetting 5 120 f.captureTimeout.toNat }

/-- The sample period as taken (R13, R193). -/
def periodOf (f : BridgeTimingFields) : Nat := clampSetting 5 100 f.period.toNat

/-- A running timer restarts with a new length; a stopped one stays stopped (R13). -/
def Timer.restarted (t : Timer) (length : Nat) : Timer := t.map (fun _ => length)

/-- The sample period is written: running stall timers restart (R13), and, where it changes, running freshness timers
(R20). -/
def State.takePeriod (s : State) (p : Nat) : State :=
  let changed := s.period != p
  let s := s.onSite (fun t => { t with period := p })
  let s := { s with channels := s.channels.each (fun c => { c with stallTimer := c.stallTimer.restarted s.stallTime }) }
  if changed then { s with decks := s.decks.each (fun d => { d with freshness := d.freshness.restarted s.freshTime }) }
  else s

/-- CONFIG_BRIDGE_TIMING, with the entry to urgency it may make (R28) and its grant decision (R33, R104). -/
def actConfigBridgeTiming (f : BridgeTimingFields) (s : State) : Taken :=
  match ofByte 4 f.bridge with
  | none => s.refused .outOfRange
  | some b =>
    if s.failing then s.refused .powerFail
    else
      let before := s.urgent b
      let s := s.takePeriod (periodOf f)
      let s := (s.onSite (fun t => { t with timing := t.timing.write b (bridgeTimingOf f) })).seal
      let s := s.onBridge b (fun x => { x with zeroTimer := s.zeroTime b })
      let s := if before = false ∧ s.urgent b = true then s.report (s.zeroReport b .urgent none none) else s
      (s.decideGrant b).accepted (.bridgeTiming (periodOf f) (bridgeTimingOf f))

/-! ### CONFIG_STREAM (R112) -/

/-- The entry a CONFIG_STREAM carries, where its fields lie in their ranges. -/
def streamOf (f : ConfigStreamFields) : Option Stream :=
  if f.rate.toNat ≤ 10000000 ∧ f.minCharge.toNat ≤ 10000000 ∧ f.enabled.toNat ≤ 1 then
    some { rate := f.rate.toNat, minCharge := f.minCharge.toNat, enabled := f.enabled == 0 }
  else none

/-- CONFIG_STREAM (R112). -/
def actConfigStream (f : ConfigStreamFields) (s : State) : Taken :=
  match ofByte 16 f.stream, streamOf f with
  | some k, some e =>
    if s.failing then s.refused .powerFail
    else ((s.onSite (fun t => { t with streams := t.streams.write k e })).seal).accepted (.stream e)
  | _, _ => s.refused .outOfRange

/-! ### CONFIG_TIMERS (R76, R116, R178) -/

/-- The settings as taken (R76, R193). -/
def siteTimersOf (f : ConfigTimersFields) : SiteTimers :=
  { identity := clampSetting 2 60 f.identity.toNat
    entry := clampSetting 5 120 f.entry.toNat
    motion := clampSetting 1 20 f.motion.toNat
    query := clampSetting 1 30 f.query.toNat
    aging := clampSetting 1 60 f.aging.toNat
    tareDays := clampSetting 1 365 f.tareDays.toNat
    highWater := clampSetting 1 240 f.highWater.toNat }

/-- CONFIG_TIMERS: the aging timer restarts and the high-water test is made (R76, R116, R178). -/
def actConfigTimers (f : ConfigTimersFields) (s : State) : Taken :=
  if s.failing then s.refused .powerFail
  else
    let s := (s.onSite (fun t => { t with timers := (siteTimersOf f) })).seal
    let s := s.onAdm (fun a => { a with agingTimer := (siteTimersOf f).aging * 1000 })
    s.testHigh.accepted (.timers (siteTimersOf f))

/-! ### TIME_SET (R185) -/

/-- TIME_SET (R185). -/
def actTimeSet (value : Word) (s : State) : Taken :=
  if s.failing then s.refused .powerFail
  else
    ((s.onRet (fun r => { r with clock := value.toNat, clockUnset := false })).seal).accepted
      (.timeSet s.ret.clock s.ret.clockUnset)

end Sys2Proof.Machine
end

