-- ==== Sys2Proof/Machine/Calibration.lean ====
section
/-! DEFINITION. The four calibration requests and their effects on the running weighing state (R9, R11, R12, R34 to R36). -/

namespace Sys2Proof.Machine

/-- The calibration gate: the metrology switch, then the power-fail input (R11). -/
def State.calibrationGate (s : State) : Option Status :=
  if s.metrology.closed = false then some .calLocked else if s.failing then some .powerFail else none

/-- An accepted calibration request: the counter moves on, CAL_CHANGED is queued, the check word is rewritten (R11). -/
def State.calibrated (s : State) (kind : Byte) (item : Option Nat) : State :=
  let s := (s.onRet (fun r => { r with calCounter := succSkipZero r.calCounter })).seal
  s.report (.calChanged kind s.ret.calCounter item)

/-! ### CAL_DECK_MAP (R9, R36) -/

/-- The map a CAL_DECK_MAP carries, where every assignment is a deck number or UNUSED. -/
def deckMapOf (decks : Table 16 Byte) : Option (Table 16 (Option DeckNo)) :=
  if allSixteen.all (fun c => (optByte 4 (decks.read c)).isSome) then
    some (decks.each (fun b => (optByte 4 b).getD none))
  else none

/-- No deck receives more than four channels (R9). -/
def mapFits (map : Table 16 (Option DeckNo)) : Bool :=
  allFour.all (fun d => decide ((allSixteen.filter (fun c => map.read c == some d)).length ≤ 4))

/-- The decks whose set of channels differs between two maps. -/
def changedDecks (old new : Table 16 (Option DeckNo)) : List DeckNo :=
  allFour.filter (fun d => allSixteen.any (fun c => (old.read c == some d) != (new.read c == some d)))

/-- A channel whose assignment changed starts without a sample (R5, R9); its receiver goes on (R1). -/
def Channel.reassigned (c : Channel) (deck : Option DeckNo) (stallTime : Nat) : Channel :=
  Channel.blank (if deck.isSome then some stallTime else none) c.receiver

/-- The channels whose assignment differs are reassigned. -/
def State.reassignChannels (s : State) (old new : Table 16 (Option DeckNo)) : State :=
  forEach allSixteen (fun c s =>
    if old.read c = new.read c then s else s.onChannel c (fun x => x.reassigned (new.read c) s.stallTime)) s

/-- Every channel of a deck whose set of channels changed is awaited until its next arrival (R9). -/
def State.awaitMembers (s : State) (decks : List DeckNo) : State :=
  forEach allSixteen (fun c s =>
    if decks.any (fun d => s.deckOf c == some d) then s.onChannel c (fun x => { x with awaited := true }) else s) s

/-- The decks whose set of channels changed (R36). -/
def State.resetDecks (s : State) (decks : List DeckNo) : State :=
  forEach decks (fun d s =>
    s.onDeck d (fun k =>
      { k.cleared (if (s.deckChannels d).isEmpty then .noChannels else .stale) with freshness := none })) s

/-- The bridges with one of the decks as a member. -/
def State.bridgesWith (s : State) (decks : List DeckNo) : List BridgeNo :=
  allFour.filter (fun b => (s.bridgeCal b).members.any (fun d => decks.contains d))

/-- CAL_DECK_MAP carried out (R9, R36). CAL_CHANGED is queued before the bridges are evaluated, so before the LANE_STATE of a
lane that an evaluation moves (DESIGN CHOICE, log entry 61). -/
def State.takeDeckMap (s : State) (map : Table 16 (Option DeckNo)) : State :=
  let old := s.ret.site.deckMap
  let s := s.onSite (fun t => { t with deckMap := map })
  let s := s.reassignChannels old map
  let decks := changedDecks old map
  let s := (s.awaitMembers decks).resetDecks decks
  let s := s.calibrated 0x10 none
  (forEach (s.bridgesWith decks) (fun b s => s.clearBridge b) s).seal

/-- CAL_DECK_MAP (R9). -/
def actCalDeckMap (decks : Table 16 Byte) (s : State) : Taken :=
  match s.calibrationGate with
  | some why => s.refused why
  | none =>
    match deckMapOf decks with
    | none => s.refused .outOfRange
    | some map =>
      if mapFits map then
        let s := s.takeDeckMap map
        s.accepted (.deckMap map.toList s.ret.calCounter)
      else s.refused .outOfRange

/-! ### CAL_CELL (R12) -/

/-- The lowest 24-bit count. -/
def countMin : Int := -8388608
/-- The highest 24-bit count. -/
def countMax : Int := 8388607

/-- The latest sample of a channel is a usable zero: its counts (R12). -/
def State.usableZero (s : State) (c : ChannelNo) : Option Int :=
  match (s.channel c).sample with
  | none => none
  | some x =>
    if s.freshTime < (s.channel c).age ∨ (s.channel c).fault = true ∨ x.status ≠ .ok then none else some x.counts

/-- The zero a CAL_CELL gives the channel, or the status it is refused with (R12). -/
def State.cellZero (s : State) (c : ChannelNo) (f : CalCellFields) : Except Status Int :=
  if f.source = 0 then
    if countMin ≤ f.zero.toInt ∧ f.zero.toInt ≤ countMax then .ok f.zero.toInt else .error .outOfRange
  else
    match s.usableZero c with
    | none => .error .notStable
    | some z => .ok z

/-- The bridge whose member deck holds a channel. -/
def State.bridgeOfChannel (s : State) (c : ChannelNo) : Option BridgeNo := (s.deckOf c).bind s.bridgeOfDeck

/-- The zero of a bridge that may be none returns to its reference (R36). -/
def State.zeroToReference? (s : State) (b : Option BridgeNo) : State :=
  match b with
  | none => s
  | some b => s.zeroToReference b

/-- CAL_CELL carried out (R12). -/
def State.takeCell (s : State) (c : ChannelNo) (zero : Int) (span : Nat) : State :=
  let s := s.onRet (fun r =>
    { r with cal := { r.cal with channels := r.cal.channels.write c { zero := zero, span := span, calibrated := true } } })
  (s.zeroToReference? (s.bridgeOfChannel c)).calibrated 0x11 (some c.val)

/-- CAL_CELL (R12). -/
def actCalCell (f : CalCellFields) (s : State) : Taken :=
  match s.calibrationGate with
  | some why => s.refused why
  | none =>
    match ofByte 16 f.channel with
    | none => s.refused .outOfRange
    | some c =>
      if 1 < f.source.toNat ∨ f.span.toNat < 1 ∨ 16777215 < f.span.toNat then s.refused .outOfRange
      else
        match s.cellZero c f with
        | .error why => s.refused why
        | .ok zero =>
          let s := s.takeCell c zero f.span.toNat
          s.accepted (.cell c zero f.span.toNat s.ret.calCounter)

/-! ### CAL_BRIDGE (R34) -/

/-- The member list that two deck bytes give (R34). -/
def membersOf (first second : Byte) : Option (List DeckNo) :=
  match optByte 4 first, optByte 4 second with
  | some a, some b =>
    match a, b with
    | none, none => some []
    | some x, none => some [x]
    | none, some y => some [y]
    | some x, some y => if x = y then none else some [x, y]
  | _, _ => none

/-- The intervals d may take (R34). -/
def intervals : List Nat := [1000, 2000, 5000, 10000, 20000, 50000]

/-- The zero range as taken: the number given or floor(0.02 × Max / d), held at the 4% limit (R34, R193). -/
def zrTaken (form : Byte) (number interval maximum : Nat) : Nat :=
  let asked := if form = 0 then number else 2 * maximum / (100 * interval)
  if 4 * maximum < 100 * (asked * interval) then 4 * maximum / (100 * interval) else asked

/-- The checks of R34 on the settings but for the member list. -/
def calBridgeInRange (f : CalBridgeFields) : Bool :=
  let d := f.interval.toNat
  let top := f.maximum.toNat
  intervals.contains d && decide (top % d = 0) && decide (100 * d ≤ top) && decide (top ≤ 150000000) &&
    [1, 2, 4, 8, 16].contains f.filter.toNat && decide (2 ≤ f.window.toNat) && decide (f.window.toNat ≤ 32) &&
    decide (f.band.toNat ≤ 5 * d) && decide (f.zrForm.toNat ≤ 1)

/-- A listed deck is a member of another bridge (R34). -/
def State.memberElsewhere (s : State) (b : BridgeNo) (decks : List DeckNo) : Bool :=
  decks.any (fun d => (allFour.filter (· ≠ b)).any (fun o => (s.bridgeCal o).members.contains d))

/-- The settings a CAL_BRIDGE gives a bridge whose reference zero is `z0` (R34). -/
def bridgeCalOf (f : CalBridgeFields) (members : List DeckNo) (z0 : Int) : BridgeCal :=
  { members := members, calibrated := !members.isEmpty, interval := f.interval.toNat, maximum := f.maximum.toNat,
    filter := f.filter.toNat, window := f.window.toNat, band := f.band.toNat,
    zr := zrTaken f.zrForm f.zr.toNat f.interval.toNat f.maximum.toNat, z0 := z0 }

/-- A deck's filter history is cleared and it holds no F (R36). -/
def Deck.emptied (k : Deck) : Deck := { k with history := [], filtered := none }

/-- CAL_BRIDGE carried out (R34, R36). CAL_CHANGED is queued before the bridge is evaluated, so before the LANE_STATE of a
lane that the evaluation moves (DESIGN CHOICE, log entry 61). -/
def State.takeBridgeCal (s : State) (b : BridgeNo) (k : BridgeCal) : State :=
  let decks := (s.bridgeCal b).members ++ k.members
  let s := s.onBridgeCal b (fun _ => k)
  let s := forEach decks (fun d s => s.onDeck d Deck.emptied) s
  let s := s.calibrated 0x12 (some b.val)
  (s.clearBridge b).seal

/-- CAL_BRIDGE (R34). -/
def actCalBridge (f : CalBridgeFields) (s : State) : Taken :=
  match s.calibrationGate with
  | some why => s.refused why
  | none =>
    match ofByte 4 f.bridge, membersOf f.first f.second with
    | some b, some members =>
      if s.memberElsewhere b members || !calBridgeInRange f then s.refused .outOfRange
      else
        let k := bridgeCalOf f members (s.bridgeCal b).z0
        let s := s.takeBridgeCal b k
        s.accepted (.bridgeCal k s.ret.calCounter)
    | _, _ => s.refused .outOfRange

/-! ### CAL_REFERENCE_ZERO (R35) -/

/-- The Z0 a CAL_REFERENCE_ZERO gives the bridge, or the status it is refused with (R35). -/
def State.referenceZero (s : State) (b : BridgeNo) (f : CalZeroFields) : Except Status Int :=
  if f.source = 0 then .ok f.zero.toInt
  else
    match (s.bridge b).underlying, (s.bridge b).sum with
    | true, some x => .ok x
    | _, _ => .error .notStable

/-- CAL_REFERENCE_ZERO carried out (R35, R36). -/
def State.takeReferenceZero (s : State) (b : BridgeNo) (z0 : Int) : State :=
  ((s.onBridgeCal b (fun k => { k with z0 := z0 })).zeroToReference b).calibrated 0x13 (some b.val)

/-- CAL_REFERENCE_ZERO (R35). -/
def actCalReferenceZero (f : CalZeroFields) (s : State) : Taken :=
  match s.calibrationGate with
  | some why => s.refused why
  | none =>
    match ofByte 4 f.bridge with
    | none => s.refused .outOfRange
    | some b =>
      if 1 < f.source.toNat then s.refused .outOfRange
      else
        match s.referenceZero b f with
        | .error why => s.refused why
        | .ok z0 =>
          let s := s.takeReferenceZero b z0
          s.accepted (.referenceZero z0 s.ret.calCounter)

end Sys2Proof.Machine
end

