-- ==== Sys2Proof/Machine/LaneRequests.lean ====
section
/-! DEFINITION. The requests of lanes, barriers, bridges and channels: ARRIVAL, LANE_TAKEOVER, LANE_RELEASE, LANE_RETRY,
LANE_BACKOUT, BARRIER_COMMAND, BARRIER_RESET, WEIGHT_READ, ZERO_NOW, ZERO_WAIVE, CHANNEL_READ, CHANNEL_CLEAR. -/

namespace Sys2Proof.Machine

/-! ### ARRIVAL (R81 to R84) -/

/-- The visit's current lane is another lane. -/
def Visit.elsewhere (v : Visit) (l : LaneNo) : Bool := v.currentLane.isSome && !(v.currentLane == some l)

/-- The finding of an outbound arrival: the visit to take up, or the reason it is refused (R83). -/
def outboundFinding (l : LaneNo) : Option Visit → Except RefusalReason Visit
  | none => .error .noVisit
  | some v =>
    if v.elsewhere l then .error .alreadyInLane
    else if v.state = .onSite ∨ v.state = .ticketed then .ok v
    else .error .notTicketed

/-- The finding of a bypass arrival (R84). -/
def bypassFinding (l : LaneNo) : Option Visit → Except RefusalReason Visit
  | none => .error .notTicketed
  | some v =>
    if v.state = .ticketed then if v.elsewhere l then .error .alreadyInLane else .ok v
    else .error .notTicketed

/-- The lane takes up a visit: the visit's current lane becomes this lane (R83, R84). -/
def State.takeUp (s : State) (l : LaneNo) (v : Visit) : State :=
  s.onVisit v.number (fun x => { x with currentLane := some l })

/-- The arrival at an outbound lane (R83). -/
def State.arriveOutbound (s : State) (l : LaneNo) (tag : Word) : State :=
  match outboundFinding l (s.visitOfTag tag) with
  | .error why => s.refuseVehicle l tag why
  | .ok v => (s.takeUp l v).enterAwaitBridge l v.number

/-- The arrival at a bypass lane: the lane goes to PASSING and the visit becomes EXITING (R84). -/
def State.arriveBypass (s : State) (l : LaneNo) (tag : Word) : State :=
  match bypassFinding l (s.visitOfTag tag) with
  | .error why => s.refuseVehicle l tag why
  | .ok v =>
    let s := s.takeUp l v
    let s := s.onVisit v.number (fun x => { x with state := .exiting })
    let s := s.onLane l (fun n => { n with visit := some v.number })
    (s.raiseFront l).enterState l .passing none

/-- An accepted ARRIVAL, handed on by the lane's role (R81). A lane of role NONE never takes one (R75). -/
def State.takeArrival (s : State) (l : LaneNo) (tag : Word) (stream : StreamNo) : State :=
  let s := s.onLane l (fun n => { n with identityTimer := .stopped, identity := some { tag := tag, stream := stream } })
  match (s.config l).role with
  | .none     => s
  | .inbound  => (s.decideAdmission l tag stream).1
  | .outbound => s.arriveOutbound l tag
  | .bypass   => s.arriveBypass l tag

/-- What the reply to ARRIVAL carries of the lane: its state and, as that state requires, visit, query number or reason
(R81). -/
def State.arrivalReply (s : State) (l : LaneNo) : ReplyBody :=
  let n := s.lane l
  .arrival n.state
    (if n.state = .awaitBridge ∨ n.state = .entering ∨ n.state = .passing then n.visit else none)
    (if n.state = .admitting then n.query else none)
    (if n.state = .refused then n.lastReason else none)

/-- ARRIVAL (R81). -/
def actArrival (lane : Byte) (tag : Word) (stream : Byte) (s : State) : Taken :=
  match ofByte 4 lane, ofByte 16 stream with
  | some l, some k =>
    if s.failing then s.refused .powerFail
    else if (s.lane l).state = .awaitId ∨ (s.lane l).state = .noId then
      let s := (s.takeArrival l tag k).seal
      s.accepted (s.arrivalReply l)
    else s.refused .laneBusy
  | _, _ => s.refused .outOfRange

/-! ### LANE_TAKEOVER, LANE_RELEASE, LANE_RETRY, LANE_BACKOUT (R91, R92, R95, R97) -/

/-- LANE_TAKEOVER (R95). -/
def actLaneTakeover (lane : Byte) (s : State) : Taken :=
  match ofByte 4 lane with
  | none => s.refused .outOfRange
  | some l =>
    if s.failing then s.refused .powerFail
    else
      let s := (s.takeOver l).seal
      s.accepted (.laneState (s.lane l).state)

/-- Another lane whose configuration names the barrier holds a bridge grant (R67, R97). -/
def State.heldByOther (s : State) (l : LaneNo) (b : BarrierNo) : Bool :=
  ((s.lanesNaming b).filter (· ≠ l)).any s.holdsGrant

/-- The front and rear barriers of a lane, those it has. A LANE_RELEASE reply lists those skipped in this order, the front
before the rear (R97; DESIGN CHOICE, log entry 63). -/
def State.barriersOf (s : State) (l : LaneNo) : List BarrierNo := (s.config l).front.toList ++ (s.config l).rear.toList

/-- A lane released from MANUAL: to LANE_FAULT with a barrier in FAULT, else to IDLE or AWAIT_ID (R97). -/
def State.leaveManual (s : State) (l : LaneNo) : State :=
  if (s.barriersOf l).any (fun b => (s.barrier b).state == .fault) then s.enterState l .laneFault none
  else s.comeToIdle l

/-- LANE_RELEASE (R97). -/
def actLaneRelease (lane : Byte) (s : State) : Taken :=
  match ofByte 4 lane with
  | none => s.refused .outOfRange
  | some l =>
    if s.failing then s.refused .powerFail
    else if (s.lane l).state ≠ LaneState.manual then s.refused .laneBusy
    else
      let skipped := (s.barriersOf l).filter (s.heldByOther l)
      let lowered := (s.barriersOf l).filter (fun b => !s.heldByOther l b)
      let s := (forEach lowered (fun b s => s.commandLower b) s).leaveManual l
      s.accepted (.laneReleased (s.lane l).state skipped)

/-- LANE_RETRY (R91). -/
def actLaneRetry (lane : Byte) (s : State) : Taken :=
  match ofByte 4 lane with
  | none => s.refused .outOfRange
  | some l =>
    if s.failing then s.refused .powerFail
    else if (s.lane l).state ≠ LaneState.captureFailed then s.refused .laneBusy
    else
      let s := ((s.startOwnCapture l).enterState l .weighing none).seal
      s.accepted (.laneState (s.lane l).state)

/-- LANE_BACKOUT (R92). -/
def actLaneBackout (lane : Byte) (s : State) : Taken :=
  match ofByte 4 lane with
  | none => s.refused .outOfRange
  | some l =>
    if s.failing then s.refused .powerFail
    else if (s.lane l).state ≠ LaneState.captureFailed then s.refused .laneBusy
    else
      let s := (s.raiseFront l).enterState l .backingOut none
      s.accepted (.laneState (s.lane l).state)

/-! ### BARRIER_COMMAND, BARRIER_RESET (R66, R67) -/

/-- A command byte: RAISE or LOWER (R67). -/
def barrierCommandOf (command : Byte) : Option (State → BarrierNo → State) :=
  if command = 0 then some State.commandRaise else if command = 1 then some State.commandLower else none

/-- BARRIER_COMMAND (R67). -/
def actBarrierCommand (lane barrier command : Byte) (s : State) : Taken :=
  match ofByte 4 lane, ofByte 8 barrier, barrierCommandOf command with
  | some l, some b, some give =>
    if (s.config l).names b = false then s.refused .outOfRange
    else if (s.lane l).state ≠ LaneState.manual then s.refused .laneBusy
    else if s.failing then s.refused .powerFail
    else if s.heldByOther l b then s.refused .sharedBarrier
    else
      let s := give s b
      s.accepted (.barrier (s.barrierEntry b))
  | _, _, _ => s.refused .outOfRange

/-- A barrier in FAULT takes the state its switches show, and hands its departure from FAULT to the lanes (R66, R68). -/
def State.resetBarrier (s : State) (b : BarrierNo) : State :=
  if (s.barrier b).state = .fault then
    let s := s.onBarrier b Barrier.reset
    if (s.barrier b).state = .fault then s else (s.barrierSettled b).seal
  else s

/-- BARRIER_RESET (R66). -/
def actBarrierReset (barrier : Byte) (s : State) : Taken :=
  match ofByte 8 barrier with
  | none => s.refused .outOfRange
  | some b =>
    let s := s.resetBarrier b
    s.accepted (.barrier (s.barrierEntry b))

/-! ### WEIGHT_READ, ZERO_NOW, ZERO_WAIVE (R31, R32, R37) -/

/-- WEIGHT_READ (R37). -/
def actWeightRead (bridge : Selector) (s : State) : Taken :=
  match selectOf 4 bridge with
  | none => s.refused .outOfRange
  | some (.one b) => s.accepted (.weights [s.bridgeEntry b])
  | some .all => s.accepted (.weights (allFour.map s.bridgeEntry))

/-- The checks of ZERO_NOW (R31). -/
def State.zeroNowRefusal (s : State) (b : BridgeNo) : Option Status :=
  if (s.grant b).holder.isSome then some .bridgeHeld
  else if (s.bridge b).state ≠ .stable then some .notStable
  else if (s.bridgeCal b).zeroInRange ((s.bridge b).zb + (s.bridge b).gross.getD 0) = false then some .zeroRange
  else none

/-- ZERO_NOW (R31), with its grant decision (R104). The difference in the reply is Zb less Z0, with its sign (DESIGN CHOICE,
log entry 65). -/
def actZeroNow (bridge : Byte) (s : State) : Taken :=
  match ofByte 4 bridge with
  | none => s.refused .outOfRange
  | some b =>
    match s.zeroNowRefusal b with
    | some why => s.refused why
    | none =>
      let zb := (s.bridge b).zb + (s.bridge b).gross.getD 0
      let z0 := (s.bridgeCal b).z0
      let s := s.onBridge b (fun x => x.zeroTaken zb (s.zeroTime b))
      (s.decideGrant b).accepted (.zeroTaken zb z0 (zb - z0))

/-- ZERO_WAIVE (R32), with its grant decision (R104), which can make the first grant after reset at this event (DESIGN
CHOICE, log entry 66). -/
def actZeroWaive (bridge : Byte) (s : State) : Taken :=
  match ofByte 4 bridge with
  | none => s.refused .outOfRange
  | some b =>
    let before := s.bridge b
    let s := s.onBridge b (fun x =>
      { x with backlog := 0, waived := true, limitReported := false, zeroTimer := s.zeroTime b })
    (s.decideGrant b).accepted (.zeroWaived before.zb (s.bridgeCal b).z0 before.backlog)

/-! ### CHANNEL_READ, CHANNEL_CLEAR (R14, R15) -/

/-- CHANNEL_READ (R14). -/
def actChannelRead (channel : Selector) (s : State) : Taken :=
  match selectOf 16 channel with
  | none => s.refused .outOfRange
  | some (.one c) => s.accepted (.channels s.metrology.closed s.ret.calCounter s.period [s.channelEntry c])
  | some .all =>
    s.accepted (.channels s.metrology.closed s.ret.calCounter s.period (allSixteen.map s.channelEntry))

/-- The stall flags of some channels are cleared. -/
def State.clearStalls (s : State) (cs : List ChannelNo) : State :=
  forEach cs (fun c s => s.onChannel c (fun x => { x with stall := false })) s

/-- CHANNEL_CLEAR (R15). -/
def actChannelClear (channel : Selector) (s : State) : Taken :=
  match selectOf 16 channel with
  | none => s.refused .outOfRange
  | some (.one c) => (s.clearStalls [c]).accepted (.stallsCleared ([c].filter (fun x => (s.channel x).stall)))
  | some .all =>
    (s.clearStalls allSixteen).accepted (.stallsCleared (allSixteen.filter (fun x => (s.channel x).stall)))

end Sys2Proof.Machine
end

