-- ==== Sys2Proof/Machine/PermitRequests.lean ====
section
/-! DEFINITION. The requests of the permit cache, the permit queries and the refusal records: PERMIT_ANSWER, INVALIDATE,
CREDIT_SET, CACHE_READ, REFUSAL_READ, REFUSAL_CLEAR, REFUSAL_MASK. -/

namespace Sys2Proof.Machine

/-! ### PERMIT_ANSWER (R136 to R139, R141) -/

/-- The slot that is ACTIVE or LATE and holds a query number and tag (R136). -/
def Admission.slotHolding (a : Admission) (number : Nat) (tag : Word) : Option LaneNo :=
  allFour.find? (fun l =>
    (a.slots.read l).state != .free && (a.slots.read l).number == number && (a.slots.read l).tag == tag)

/-- The answer is installed unless the slot carries the no-install mark; UNKNOWN_TAG installs nothing (R137, R138). -/
def State.installAnswer (s : State) (noInstall : Bool) : Answer → State
  | .unknownTag => s
  | .entry p => if noInstall then s else s.onAdm (fun a => a.install p)

/-- The cache slot of the installation, or NOT_INSTALLED. -/
def Admission.answerSlot (a : Admission) (noInstall : Bool) : Answer → Option Nat
  | .unknownTag => none
  | .entry p => if noInstall then none else some (a.installSlot p).val

/-- Steps 2 and 3 of R137: the slot becomes FREE, the lane clears its query number, and the answer decides the vehicle. -/
def State.decideByAnswer (s : State) (l : LaneNo) (answer : Answer) : State × AdmitOutcome :=
  let q := s.slot l
  let s := s.onSlot l (fun _ => .vacant)
  let s := s.onLane l (fun n => { n with query := none })
  match answer with
  | .unknownTag => (s.refuseVehicle l q.tag .unknownTag, .refused .unknownTag)
  | .entry p => s.decideByPermit l q.tag q.stream p

/-- A timely answer, taken or, under power fail, held (R137, R141). -/
def State.timelyAnswer (s : State) (l : LaneNo) (answer : Answer) : Taken :=
  let noInstall := (s.slot l).noInstall
  let slot := s.adm.answerSlot noInstall answer
  let s := s.installAnswer noInstall answer
  if s.failing then
    (s.onSlot l (fun q => { q with held := some answer })).accepted (.permitTimely .held slot)
  else
    let r := s.decideByAnswer l answer
    r.1.seal.accepted (.permitTimely r.2 slot)

/-- The visit a late answer applies to: the slot's provisional visit, holding its tag and carrying PROVISIONAL (R138). -/
def State.provisionalVisit (s : State) (q : QuerySlot) : Option Visit :=
  (q.provisional.bind s.visitOf).filter (fun v => v.tag == q.tag && v.provisional)

/-- The account of an answer, 0 for UNKNOWN_TAG. -/
def Answer.account : Answer → Nat
  | .unknownTag => 0
  | .entry p => p.account

/-- A late answer would change a visit (R136, R141): an entry whose account the visit does not hold yet. -/
def State.wouldChange (s : State) (q : QuerySlot) (answer : Answer) : Bool :=
  match answer with
  | .unknownTag => false
  | .entry p => (s.provisionalVisit q).any (fun v => v.account != p.account)

/-- The judgement of a late answer (R138, step 3). -/
def State.lateJudgement (s : State) (q : QuerySlot) : Answer → Option RefusalReason
  | .unknownTag => some .unknownTag
  | .entry p => p.refuses q.stream (s.stream q.stream).minCharge

/-- Step 2 of R138: the visit takes the entry's account. UNKNOWN_TAG leaves the account as it is, also one that an earlier
late entry gave (DESIGN CHOICE, log entry 58). -/
def State.takeAccount (s : State) (v : Visit) : Answer → State
  | .unknownTag => s
  | .entry p => (s.onVisit v.number (fun x => { x with account := p.account })).seal

/-- The visit number an answer updates, for the LATE reply. -/
def Answer.updates (v : Visit) : Answer → Option Nat
  | .unknownTag => none
  | .entry _ => some v.number

/-- A late answer (R138, R139). -/
def State.lateAnswer (s : State) (l : LaneNo) (answer : Answer) : Taken :=
  let q := s.slot l
  let slot := s.adm.answerSlot q.noInstall answer
  let s := s.installAnswer q.noInstall answer
  match s.provisionalVisit q with
  | none => { state := s, status := .late, body := .permitLate slot none none }
  | some v =>
    let judged := s.lateJudgement q answer
    let s := s.takeAccount v answer
    let s : State :=
      match judged with
      | none => s
      | some why =>
        s.report (.lateRefusal
          { number := q.number, tag := q.tag, lane := l, visit := v.number, state := v.state, account := answer.account,
            reason := why, clock := s.ret.clock })
    { state := s, status := .late, body := .permitLate slot (answer.updates v) judged }

/-- An answer handled by the state of the slot that holds its number (R136). -/
def State.takeAnswer (s : State) (l : LaneNo) (answer : Answer) : Taken :=
  if (s.slot l).state = .active then s.timelyAnswer l answer
  else if s.failing = true ∧ s.wouldChange (s.slot l) answer = true then s.refused .powerFail
  else s.lateAnswer l answer

/-- What a PERMIT_ANSWER says, or the status it is refused with: its length suits its answer byte (section 12.8) and its
fields lie in their ranges (R136, first check). -/
def answerOf (f : PermitAnswerFields) : Except Status Answer :=
  if f.answer = 0 then
    match f.entry with
    | none => .error .badLength
    | some e =>
      let p := permitOf e
      if 8 ≤ p.length ∧ p.length ≤ 32 ∧ 1 ≤ p.account then .ok (.entry p) else .error .outOfRange
  else if f.answer = 1 then
    match f.entry with
    | none => .ok .unknownTag
    | some _ => .error .badLength
  else .error .outOfRange

/-- The answer applies to the tag: an entry covers it (R136, third check). -/
def Answer.covers (tag : Word) : Answer → Bool
  | .unknownTag => true
  | .entry p => p.covers tag

/-- PERMIT_ANSWER (R136). -/
def actPermitAnswer (f : PermitAnswerFields) (s : State) : Taken :=
  match answerOf f with
  | .error why => s.refused why
  | .ok answer =>
    match s.adm.slotHolding f.number.toNat f.tag with
    | none => s.refused .noSuchQuery
    | some l => if answer.covers f.tag then s.takeAnswer l answer else s.refused .outOfRange

/-! ### INVALIDATE (R142, R143) -/

/-- Every ACTIVE and every LATE slot is marked no-install (R142). -/
def Admission.markNoInstall (a : Admission) : Admission :=
  { a with slots := a.slots.each (fun q => if q.state = .free then q else { q with noInstall := true }) }

/-- An invalidation performed on the entries that meet a test. -/
def State.invalidate (s : State) (code : Byte) (performed : Granularity) (test : Permit → Bool) : Taken :=
  (s.onAdm (fun a => (a.removeWhere test).markNoInstall)).accepted
    (.invalidated code performed (s.adm.countWhere test))

/-- INVALIDATE (R142). -/
def actInvalidate (code : Byte) (account : Half) (tag : Word) (s : State) : Taken :=
  if code = 0 then s.invalidate code .all (fun _ => true)
  else if code = 1 then
    if account = 0 then s.refused .outOfRange
    else s.invalidate code .account (fun p => p.account == account.toNat)
  else if code = 2 then s.invalidate code .covering (fun p => p.covers tag)
  else s.accepted (.invalidated code .none 0)

/-! ### CREDIT_SET, CACHE_READ (R124, R125) -/

/-- CREDIT_SET (R124). -/
def actCreditSet (account : Half) (credit : Word) (stopped : Byte) (s : State) : Taken :=
  if account = 0 ∨ 1 < stopped.toNat then s.refused .outOfRange
  else
    (s.onAdm (fun a => a.setStanding account.toNat credit.toInt (stopped == 0))).accepted
      (.creditWritten account.toNat (s.adm.entriesOf account.toNat))

/-- CACHE_READ (R125). -/
def actCacheRead (s : State) : Taken :=
  s.accepted (.cache (shownSeconds s.adm.agingTimer) (cacheSlots.filterMap s.adm.cacheItem))

/-! ### REFUSAL_READ, REFUSAL_CLEAR, REFUSAL_MASK (R128 to R130) -/

/-- REFUSAL_READ (R128). -/
def actRefusalRead (s : State) : Taken :=
  s.accepted (.refusals s.adm.overflow s.adm.mask s.adm.reportPending (s.adm.lowestRecord.map (·.val))
    (allEight.filterMap s.adm.refusalEntry))

/-- The records a set names, freed. -/
def Admission.freeRecords (a : Admission) (set : Byte) : Admission :=
  forEach allEight (fun i a => if set.getLsbD i.val then { a with records := a.records.write i none } else a) a

/-- How many valid records a set names. -/
def Admission.namedRecords (a : Admission) (set : Byte) : Nat :=
  (allEight.filter (fun i => set.getLsbD i.val && (a.records.read i).isSome)).length

/-- REFUSAL_CLEAR (R129). -/
def actRefusalClear (records overflow : Byte) (s : State) : Taken :=
  if 1 < overflow.toNat then s.refused .outOfRange
  else
    let freed := s.adm.namedRecords records
    let s := s.onAdm (fun a => a.freeRecords records)
    let s := if overflow = 0 then s.onAdm (fun a => { a with overflow := false }) else s
    s.accepted (.refusalsCleared freed s.adm.overflow)

/-- UNMASK: the mask is cleared, and a pending report is queued (R130). -/
def State.unmask (s : State) : State :=
  let s := s.onAdm (fun a => { a with mask := false })
  if s.adm.reportPending then
    (s.report (s.adm.refusalReport s.adm.lowestRecord)).onAdm (fun a => { a with reportPending := false })
  else s

/-- REFUSAL_MASK (R130). -/
def actRefusalMask (setting : Byte) (s : State) : Taken :=
  if setting = 0 then
    let s := s.onAdm (fun a => { a with mask := true })
    s.accepted (.refusalMask s.adm.mask s.adm.reportPending)
  else if setting = 1 then
    let s := s.unmask
    s.accepted (.refusalMask s.adm.mask s.adm.reportPending)
  else s.refused .outOfRange

end Sys2Proof.Machine
end

