-- ==== Sys2Proof/Machine/VisitRequests.lean ====
section
/-! DEFINITION. The requests of visits, stored tares and the journal: VISIT_READ, VISIT_CANCEL, TARE_WRITE, TARE_DELETE,
TARE_READ, TICKET_READ, TICKET_COLLECT, TICKET_BASE. -/

namespace Sys2Proof.Machine

/-! ### VISIT_READ, VISIT_CANCEL (R93, R154, R155) -/

/-- What a visit selector names (R154, R155). -/
inductive VisitSelected
  | number (n : Nat)
  | tag (t : Word)
  | all
  deriving DecidableEq, Repr

/-- A visit selector: kind 0 NUMBER with 1 to 65,535, kind 1 TAG, kind 2 ALL (R155, R189). All four bytes of the operand are
read as the number (DESIGN CHOICE, log entry 62). -/
def visitSelect (kind : Byte) (operand : Word) : Option VisitSelected :=
  if kind = 0 then
    if 1 ≤ operand.toNat ∧ operand.toNat ≤ 65535 then some (.number operand.toNat) else none
  else if kind = 1 then some (.tag operand)
  else if kind = 2 then some .all
  else none

/-- The whole record of a visit as VISIT_READ carries it. -/
def State.visitReply (s : State) : Option Visit → Taken
  | none => s.refused .noSuchVisit
  | some v => s.accepted (.visit v (s.ret.visits.place v.number))

/-- VISIT_READ (R155). -/
def actVisitRead (kind : Byte) (operand : Word) (s : State) : Taken :=
  match visitSelect kind operand with
  | none => s.refused .outOfRange
  | some (.number n) => s.visitReply (s.visitOf n)
  | some (.tag t) => s.visitReply (s.visitOfTag t)
  | some .all => s.accepted (.visitList s.ret.visits.counter (s.ret.visits.records.map Visit.summary))

/-- The lane visit is cleared. -/
def State.clearLaneVisit (s : State) (l : LaneNo) : State := s.onLane l (fun n => { n with visit := none })

/-- The removal of a lane's visit handed to the lane (R93). -/
def State.visitTakenAway (s : State) (l : LaneNo) : State :=
  match (s.lane l).state with
  | .awaitBridge => (((s.withdrawRequest l).releaseGrant l).clearVehicle l).enterState l .noId none
  | .entering | .captureFailed | .ticketWait => (s.clearLaneVisit l).takeOver l
  | .leaving | .backingOut | .laneFault | .takeoverPending => s.clearLaneVisit l
  | _ => s

/-- The lane that serves a visit at a removal: the visit's current lane, where its lane visit is this visit. -/
def State.servingLane (s : State) (v : Visit) : Option LaneNo :=
  v.currentLane.filter (fun l => (s.lane l).visit == some v.number)

/-- The visit leaves the table, its lane acts on the removal, and the freed record serves the SITE_FULL list (R93, R153,
R154). The lane acts before the service, so that no lane is granted for the removed visit (DEDUCED, log entry 15). -/
def State.cancelVisit (s : State) (v : Visit) : State :=
  let lane := s.servingLane v
  let s := s.onVisits (fun t => t.without v.number)
  let s : State :=
    match lane with
    | none => s
    | some l => s.visitTakenAway l
  s.serveFreed

/-- The visit may not be cancelled in its state (R154). -/
def Visit.busy (v : Visit) : Bool := v.state == .weighingIn || v.state == .weighingOut || v.state == .exiting

/-- The checks of VISIT_CANCEL after its selector (R154). -/
def State.cancelFound (s : State) : Option Visit → Taken
  | none => s.refused .noSuchVisit
  | some v =>
    if s.failing then s.refused .powerFail
    else if v.busy then s.refused .visitBusy
    else
      (s.cancelVisit v).seal.accepted (.visitCancelled v.number v.tag v.state v.currentLane v.pending.isSome)

/-- VISIT_CANCEL (R154). -/
def actVisitCancel (kind : Byte) (operand : Word) (s : State) : Taken :=
  match visitSelect kind operand with
  | some (.number n) => s.cancelFound (s.visitOf n)
  | some (.tag t) => s.cancelFound (s.visitOfTag t)
  | some .all => s.refused .outOfRange
  | none => s.refused .outOfRange

/-! ### TARE_WRITE, TARE_DELETE, TARE_READ (R159 to R161) -/

/-- The tare a TARE_WRITE gives at a clock value, where its fields are in range (R159). -/
def tareOfFields (f : TareWriteFields) (clock : Nat) : Option Tare :=
  match optByte 4 f.bridge with
  | none => none
  | some bridge =>
    if intervals.contains f.interval.toNat = true ∧ f.tare.toInt % (f.interval.toNat : Int) = 0 then
      some { tag := f.tag, tare := f.tare.toInt, interval := f.interval.toNat, bridge := bridge, time := clock }
    else none

/-- How the store takes a new tare (R158, R159). -/
def State.placementOf (s : State) (tag : Word) : TarePlacement :=
  match s.ret.tares.read (s.tareSlotFor tag) with
  | none => .new
  | some t => if t.tag = tag then .replacedSameTag else .displaced t.tag t.time

/-- TARE_WRITE (R159). -/
def actTareWrite (f : TareWriteFields) (s : State) : Taken :=
  match tareOfFields f s.ret.clock with
  | none => s.refused .outOfRange
  | some t =>
    if s.failing then s.refused .powerFail
    else
      (s.placeTare t).seal.accepted
        (.tareWritten (s.tareSlotFor f.tag).val (s.placementOf f.tag) (t.valid s.ret.clock s.timers.tareDays))

/-- TARE_DELETE (R160). -/
def actTareDelete (tag : Word) (s : State) : Taken :=
  if s.failing then s.refused .powerFail
  else
    match s.tareRecordOf tag with
    | none => s.accepted (.tareDeleted 0)
    | some i => ((s.onRet (fun r => { r with tares := r.tares.write i none })).seal).accepted (.tareDeleted 1)

/-- The occupied tare records of number at least `n`, in order. -/
def State.taresFrom (s : State) (n : Nat) : List (Fin 128) :=
  tareRecords.filter (fun i => decide (n ≤ i.val) && (s.ret.tares.read i).isSome)

/-- TARE_READ (R161): kind 0 TAG, kind 1 FROM. The next number is that of the first occupied record not listed (DESIGN
CHOICE, log entry 6). All four bytes of the operand are read as the number of FROM (DESIGN CHOICE, log entry 62). -/
def actTareRead (kind : Byte) (operand : Word) (s : State) : Taken :=
  if kind = 0 then
    s.accepted (.tareOfTag s.occupiedTares s.timers.tareDays ((s.tareRecordOf operand).bind s.tareEntry))
  else if kind = 1 ∧ operand.toNat ≤ 127 then
    let found := s.taresFrom operand.toNat
    s.accepted (.tareList s.occupiedTares s.timers.tareDays ((found.take 32).filterMap s.tareEntry)
      ((found.drop 32).head?.map (·.val)))
  else s.refused .outOfRange

/-! ### TICKET_READ, TICKET_COLLECT, TICKET_BASE (R176, R177, R180) -/

/-- TICKET_READ (R177). -/
def actTicketRead (number : Word) (s : State) : Taken :=
  if number = 0 then s.refused .outOfRange
  else
    match s.ret.journal.tickets.find? (fun t => t.number == number.toNat) with
    | none => s.refused .noSuchTicket
    | some t => s.accepted (.ticket t)

/-- The forward distance from the oldest number to `n` (R176). -/
def forwardDistance (oldest n : Nat) : Nat := if oldest ≤ n then n - oldest else n + 4294967295 - oldest

/-- How many tickets from the oldest a collection of `n` marks (R176). -/
def JournalStore.collectionReach (j : JournalStore) (n : Nat) : Nat :=
  match j.oldest with
  | none => 0
  | some o =>
    let k := forwardDistance o n
    if k < j.tickets.length then k + 1 else if k < 2147483648 then j.tickets.length else 0

/-- The tickets with the first `k` marked collected. -/
def markCollected : Nat → List Ticket → List Ticket
  | 0, ts => ts
  | _ + 1, [] => []
  | k + 1, t :: ts => { t with collected := true } :: markCollected k ts

/-- The journal after a collection of `n` (R176). -/
def JournalStore.collect (j : JournalStore) (n : Nat) : JournalStore :=
  { j with tickets := markCollected (j.collectionReach n) j.tickets }

/-- A collection carried out: the marks, the full-reported mark, the high-water test, the drain (R176, R178, R179). -/
def State.collectTickets (s : State) (n : Nat) : State :=
  let s := s.onJournal (fun j => j.collect n)
  let s := if s.ret.journal.accepts then { s with marks := { s.marks with fullReported := false } } else s
  s.testHigh.drain

/-- TICKET_COLLECT (R176). -/
def actTicketCollect (number : Word) (s : State) : Taken :=
  if number = 0 then s.refused .outOfRange
  else if s.failing then s.refused .powerFail
  else
    let marked := s.ret.journal.uncollected - (s.ret.journal.collect number.toNat).uncollected
    let issued := s.ret.visits.order.length
    let s := s.collectTickets number.toNat
    s.seal.accepted (.collected marked s.ret.journal.uncollected s.ret.journal.oldestUncollected
      (issued - s.ret.visits.order.length))

/-- TICKET_BASE (R180). -/
def actTicketBase (number : Word) (s : State) : Taken :=
  if number = 0 then s.refused .outOfRange
  else if s.ret.journal.tickets.isEmpty = false then s.refused .outOfRange
  else if s.failing then s.refused .powerFail
  else
    let issued := s.ret.visits.order.length
    let s := (s.onJournal (fun j => { j with counter := number.toNat, held := false })).drain
    s.seal.accepted (.ticketBase s.ret.journal.counter (issued - s.ret.visits.order.length))

end Sys2Proof.Machine
end

