-- ==== Sys2Proof/Machine/Reset.lean ====
section
/-! DEFINITION. The reset of the part: the start-up check, what every block holds at reset release, and the start-up
reports (R16, R38, R56, R72, R100, R111, R131, R144, R156, R173, R182 to R184, R197). -/

namespace Sys2Proof.Machine

/-- A loop's state as its inputs show it (R59, R69). -/
def loopShown (presence fault : Bool) : Bool := presence || fault

/-- A channel at reset release (R16). -/
def Retained.channelAtRelease (r : Retained) (c : ChannelNo) : Channel :=
  Channel.blank (if (r.site.deckMap.read c).isSome then some (4 * r.site.period) else none) .hunting

/-- A deck at reset release (R38). -/
def Retained.deckAtRelease (r : Retained) (d : DeckNo) : Deck :=
  { condition := if allSixteen.any (fun c => r.site.deckMap.read c == some d) then .stale else .noChannels,
    history := [], filtered := none, freshness := none }

/-- A bridge at reset release: Zb at Z0, the backlog at U, NOT_READY (R38). -/
def Retained.bridgeAtRelease (r : Retained) (b : BridgeNo) : Bridge :=
  { zb := (r.cal.bridges.read b).z0, window := [], sum := none, gross := none, weight := none, state := .notReady,
    underlying := false, run := 0, zeroTimer := (r.site.timing.read b).zeroInterval * 1000,
    backlog := (r.site.timing.read b).urgent, waived := false, limitReported := false, capture := none }

/-- A barrier at reset release, from its inputs at that moment (R58, R59, R72). -/
def Pins.barrierAtRelease (p : Pins) (b : BarrierNo) : Barrier :=
  .atRelease (p.upSwitch.read b) (p.downSwitch.read b) (loopShown (p.safetyPresence.read b) (p.safetyFault.read b))

/-- An approach loop at reset release (R69). -/
def Pins.loopAtRelease (p : Pins) (a : LoopNo) : ApproachLoop :=
  { occupied := loopShown (p.approachPresence.read a) (p.approachFault.read a), clearFilter := none }

/-- A beam at reset release (R70). -/
def Pins.beamAtRelease (p : Pins) (m : BeamNo) : Beam := { broken := !p.beamLight.read m, clearFilter := none }

/-- A barrier of the configuration is found in FAULT at release. -/
def Pins.barrierFaulted (p : Pins) : Option BarrierNo → Bool
  | none => false
  | some b => (p.barrierAtRelease b).state == .fault

/-- The approach loop of the configuration is OCCUPIED at release. -/
def Pins.approachAtRelease (p : Pins) (k : LaneConfig) : Bool :=
  match k.loop with
  | none => false
  | some a => (p.loopAtRelease a).occupied

/-- The state a lane starts in (R100). -/
def Pins.laneStart (p : Pins) (k : LaneConfig) : LaneState :=
  if p.laneHold then .manual
  else if p.barrierFaulted k.front || p.barrierFaulted k.rear then .laneFault
  else if k.role ≠ .none ∧ p.approachAtRelease k = true then .awaitId
  else .idle

/-- A lane at reset release (R100). -/
def Retained.laneAtRelease (r : Retained) (p : Pins) (l : LaneNo) : Lane :=
  let st := p.laneStart (r.site.lanes.read l)
  { state := st, identity := none, visit := none,
    identityTimer := if st = .awaitId then .running (r.site.timers.identity * 1000) else .stopped, entryTimer := .stopped,
    frontMark := .none, rearMark := .none, entered := false, signal := .red, query := none, lastReason := none,
    takeoverFrom := none }

/-- The table of what each unit number gives. -/
def tabulate {n : Nat} {α : Type} (f : Fin n → α) : Table n α := Vector.ofFn f

/-- The admission unit at reset release (R131, R144). -/
def Retained.admissionAtRelease (r : Retained) : Admission :=
  { cache := .all 48 none, agingTimer := r.site.timers.aging * 1000, slots := .all 4 .vacant, queryCounter := 1,
    records := .all 8 none, overflow := false, mask := false, reportPending := false }

/-- The link unit at reset (R197). -/
def Link.atReset : Link :=
  { receiver := .hunting, queue := [], current := none, busy := [], busyAhead := 0, sending := none,
    queries := .all 4 none, reports := [], reportsLost := false }

/-- The part at reset release before its start-up reports: the retained contents `r` after the start-up check, everything
else as reset leaves it, the inputs and the model's own fields as they are. -/
def State.bare (s : State) (r : Retained) : State :=
  { pending := s.pending
    powered := true
    ret := r
    pins := s.pins
    channels := tabulate r.channelAtRelease
    metrology := { closed := s.pins.metrologyClosed, hold := none }
    decks := tabulate r.deckAtRelease
    bridges := tabulate r.bridgeAtRelease
    grants := .all 4 { holder := none, waiting := [], last := none }
    barriers := tabulate s.pins.barrierAtRelease
    loops := tabulate s.pins.loopAtRelease
    beams := tabulate s.pins.beamAtRelease
    lanes := tabulate (r.laneAtRelease s.pins)
    adm := r.admissionAtRelease
    siteFull := []
    marks := { high := false, fullReported := false }
    powerFail := { asserted := s.pins.powerFail, filter := none }
    laneHold := s.pins.laneHold
    link := .atReset
    evaluations := s.evaluations }

/-- The outcome of the start-up check: the contents kept with their repairs, or the lost values (R183, R184). -/
def Retained.checked (r : Retained) : Retained := if r.intact then r.repaired else .lost

/-- The BARRIER_FAULT reports of the barriers found in FAULT, in barrier order (R72). -/
def State.reportFaults (s : State) : State :=
  forEach allEight (fun b s =>
    if (s.barrier b).state = .fault then
      s.report (.barrierFault
        { barrier := b, reason := (s.barrier b).reason, before := .fault, upActive := (s.barrier b).upActive,
          downActive := (s.barrier b).downActive, occupied := (s.barrier b).occupied, reversals := 0,
          lanes := s.lanesNaming b, clock := s.ret.clock })
    else s) s

/-- The start-up reports in the order of R197, with the journal-high test and the drain at release. -/
def State.started (s : State) (cause : ResetCause) (kept : Bool) : State :=
  let s := s.report (.resetDone cause kept s.laneHold s.ret.calCounter)
  let s := if kept then s else s.report .backupLost
  let s := if s.failing then s.report (.powerFail s.ret.clock 0) else s
  let s := s.reportFaults.testHigh
  if kept then s.drain.seal else s

/-- The part resets: start-up check, reset release, start-up reports (R197). -/
def State.resetPart (s : State) (cause : ResetCause) : State :=
  (s.bare s.ret.checked).started cause s.ret.intact

end Sys2Proof.Machine
end

