-- ==== Sys2Proof/Machine/Link.lean ====
section
/-! DEFINITION. The link unit: reading a received frame, the CRC, the request queue, the taking of a request and its
reply, the end of a sent frame, and the receiver of the host line (R186 to R192, R196). -/

namespace Sys2Proof.Machine

/-! ### The CRC (R187) -/

/-- One bit of the CRC: polynomial 0x1021, most-significant bit first. -/
def crcBit (c : Half) : Half := if c.msb then (c <<< 1) ^^^ 0x1021 else c <<< 1

/-- One byte taken into the CRC. -/
def crcByte (c : Half) (b : Byte) : Half :=
  crcBit (crcBit (crcBit (crcBit (crcBit (crcBit (crcBit (crcBit (c ^^^ (b ++ (0 : Byte))))))))))

/-- The CRC of some bytes, from the initial value 0xFFFF. -/
def crcOf (bytes : List Byte) : Half := bytes.foldl crcByte 0xFFFF

/-! ### Carrying out a request (R189) -/

/-- The owning block's own rule for a request. -/
def act (r : Request) (s : State) : Taken :=
  match r with
  | .identify => actIdentify s
  | .statusRead => actStatusRead s
  | .reset => actReset s
  | .configLane f => actConfigLane f s
  | .configBridgeTiming f => actConfigBridgeTiming f s
  | .configStream f => actConfigStream f s
  | .configTimers f => actConfigTimers f s
  | .calDeckMap decks => actCalDeckMap decks s
  | .calCell f => actCalCell f s
  | .calBridge f => actCalBridge f s
  | .calReferenceZero f => actCalReferenceZero f s
  | .timeSet value => actTimeSet value s
  | .arrival lane tag stream => actArrival lane tag stream s
  | .laneTakeover lane => actLaneTakeover lane s
  | .laneRelease lane => actLaneRelease lane s
  | .laneRetry lane => actLaneRetry lane s
  | .laneBackout lane => actLaneBackout lane s
  | .barrierCommand lane barrier command => actBarrierCommand lane barrier command s
  | .barrierReset barrier => actBarrierReset barrier s
  | .weightRead bridge => actWeightRead bridge s
  | .zeroNow bridge => actZeroNow bridge s
  | .zeroWaive bridge => actZeroWaive bridge s
  | .channelRead channel => actChannelRead channel s
  | .channelClear channel => actChannelClear channel s
  | .permitAnswer f => actPermitAnswer f s
  | .invalidate code account tag => actInvalidate code account tag s
  | .creditSet account credit stopped => actCreditSet account credit stopped s
  | .cacheRead => actCacheRead s
  | .refusalRead => actRefusalRead s
  | .refusalClear records overflow => actRefusalClear records overflow s
  | .refusalMask setting => actRefusalMask setting s
  | .visitRead kind operand => actVisitRead kind operand s
  | .visitCancel kind operand => actVisitCancel kind operand s
  | .tareWrite f => actTareWrite f s
  | .tareDelete tag => actTareDelete tag s
  | .tareRead kind operand => actTareRead kind operand s
  | .ticketRead number => actTicketRead number s
  | .ticketCollect number => actTicketCollect number s
  | .ticketBase number => actTicketBase number s

/-- A received kind and payload as the two checks of R189 read it. -/
def readFrame (kind : Byte) (payload : List Byte) : LinkFrame :=
  match readerOf kind with
  | none => .unknownKind kind
  | some read =>
    match read payload with
    | none => .badLength kind
    | some r => .request r

/-- The kind byte a frame was received with. -/
def LinkFrame.kind : LinkFrame → Byte
  | .request r => requestKind r
  | .unknownKind k => k
  | .badLength k => k

/-- The kind lies in the range of requests, 0x01 to 0x3F (R187). -/
def inRequestRange (kind : Byte) : Bool := decide (1 ≤ kind.toNat ∧ kind.toNat ≤ 0x3F)

/-- The kind of the reply to a received kind (R187, R189). -/
def replyKind (kind : Byte) : Byte := if inRequestRange kind then kind + 0x80 else 0xFF

/-- The received kind byte that a reply of kind 0xFF carries (R189). -/
def receivedKind (kind : Byte) : Option Byte := if inRequestRange kind then none else some kind

/-- A reply to a frame of some kind. -/
def replyTo (kind : Byte) (status : Status) (flags : Byte) (body : ReplyBody) : Reply :=
  { kind := replyKind kind, status := status, flags := flags, received := receivedKind kind, body := body }

/-- The link-flags byte of the reply to a request: STATUS_READ forms it before it clears the reports-lost flag (R190,
R195). -/
def flagsFor (r : Request) (before after : State) : Byte :=
  match r with
  | .statusRead => before.linkFlags
  | _ => after.linkFlags

/-- A reply becomes the current reply, behind the BUSY replies formed before it (R188, R191). -/
def State.setReply (s : State) (r : Reply) : State :=
  s.onLink (fun k => { k with current := some r, busyAhead := k.busy.length })

/-- A frame is taken: the two checks of R189, the owning block's rule, and the reply. -/
def State.takeFrame (s : State) : LinkFrame → State
  | .unknownKind k => s.setReply (replyTo k .unknownKind s.linkFlags .empty)
  | .badLength k => s.setReply (replyTo k .badLength s.linkFlags .empty)
  | .request r =>
    let t := act r s
    t.state.setReply (replyTo (requestKind r) t.status (flagsFor r s t.state) t.body)

/-- The oldest frame in the queue is taken when there is no current reply (R188). -/
def State.takeNext (s : State) : State :=
  if s.link.current.isSome then s
  else
    match s.link.queue with
    | [] => s
    | f :: rest => (s.onLink (fun k => { k with queue := rest })).takeFrame f

/-- A complete frame joins the queue, draws a BUSY reply, or is discarded (R188). -/
def State.queueFrame (s : State) (f : LinkFrame) : State :=
  if s.link.queue.length < 4 then (s.onLink (fun k => { k with queue := k.queue ++ [f] })).takeNext
  else if s.link.busy.length < 4 then
    s.onLink (fun k => { k with busy := k.busy ++ [replyTo f.kind .busy s.linkFlags .empty] })
  else s

/-- The arrival of a complete frame: the receiver goes back to hunting (R186 to R188). -/
def State.frameArrives (s : State) (f : LinkFrame) : State :=
  (s.onLink (fun k => { k with receiver := .hunting })).queueFrame f

/-- The arrival of a request's frame, which is what the request's own row of the table is (R188). -/
def State.receive (s : State) (r : Request) : Result := s.run (fun s => s.frameArrives (.request r))

/-! ### The end of a sent frame (R188, R191, R196) -/

/-- The current reply has been sent: the part resets after the reply to RESET, and takes the next request otherwise. -/
def State.replySent (s : State) (r : Reply) : State :=
  let s := s.onLink (fun k => { k with current := none })
  match r.body with
  | .resetAccepted => s.resetPart .request
  | _ => s.takeNext

/-- The frame being sent has ended. -/
def State.frameSent (s : State) : TxFrame → State
  | .reply r => s.replySent r
  | .busy _ => s.onLink (fun k => { k with busy := k.busy.tail, busyAhead := k.busyAhead - 1 })
  | .query q =>
    s.onLink (fun k =>
      { k with queries := k.queries.write q.lane (if k.queries.read q.lane = some q then none else k.queries.read q.lane) })
  | .report _ => s

/-- The last byte of the frame being sent has gone; the transmitter is idle until the end of the event. -/
def State.endTransmission (s : State) : State :=
  match s.link.sending with
  | none => s
  | some f => (s.onLink (fun k => { k with sending := none })).frameSent f

/-! ### The receiver of the host line (R186, R187) -/

/-- A frame whose bytes after the start byte are all in: judged by its CRC (R187). -/
def State.judgeFrame (s : State) (bytes : List Byte) (length : Nat) : State :=
  let crc := bytes.drop (2 + length)
  match crc, bytes.drop 2 with
  | [a, b], kind :: rest =>
    if crcOf (bytes.take (2 + length)) = halfOf a b then s.frameArrives (readFrame kind (rest.take (length - 1)))
    else s.onLink (fun k => { k with receiver := .hunting })
  | _, _ => s.onLink (fun k => { k with receiver := .hunting })

/-- The length the first two collected bytes give, once both are in. -/
def collectedLength : List Byte → Option Nat
  | a :: b :: _ => some (halfOf a b).toNat
  | _ => none

/-- A collecting receiver takes a byte (R186). -/
def State.collectByte (s : State) (bytes : List Byte) : State :=
  match collectedLength bytes with
  | none => s.onLink (fun k => { k with receiver := .collecting bytes })
  | some n =>
    if n < 1 ∨ 1024 < n then s.onLink (fun k => { k with receiver := .hunting })
    else if bytes.length < n + 4 then s.onLink (fun k => { k with receiver := .collecting bytes })
    else s.judgeFrame bytes n

/-- A byte of the host line (R186). A hunting receiver passes over a 0x5A that comes with a framing error (DESIGN CHOICE, log
entry 64). -/
def State.hostByte (s : State) (byte : Byte) (framingError : Bool) : State :=
  match s.link.receiver with
  | .hunting =>
    if byte = 0x5A ∧ framingError = false then s.onLink (fun k => { k with receiver := .collecting [] }) else s
  | .collecting bytes =>
    if framingError then s.onLink (fun k => { k with receiver := .hunting }) else s.collectByte (bytes ++ [byte])

end Sys2Proof.Machine
end

