-- ==== Sys2Proof/Machine/CellEvents.lean ====
section
/-! DEFINITION. The events of the load-cell lines, the metrology switch, the decks and the bridges: one meaning for each
row of their family. -/

namespace Sys2Proof.Machine

/-! ### Load-cell lines (R1 to R5) -/

/-- A load-cell line's receiver takes a state. -/
def State.setReceiver (s : State) (c : ChannelNo) (r : CellReceiver) : State :=
  s.onChannel c (fun x => { x with receiver := r })

/-- The status a status byte gives (R2). -/
def sampleStatusOf (b : Byte) : Option SampleStatus :=
  if b = 0 then some .ok else if b = 1 then some .overrange else if b = 2 then some .cellFault else none

/-- The sample of the five bytes after the start byte: nothing where the frame fails a test of R2. -/
def cellFrame : List Byte → Option (Int × SampleStatus)
  | [a, b, c, st, check] =>
    if a + b + c + st = check then (sampleStatusOf st).map (fun x => ((a ++ b ++ c : BitVec 24).toInt, x)) else none
  | _ => none

/-- A collecting receiver has taken a byte (R1). -/
def State.collectCell (s : State) (c : ChannelNo) (bytes : List Byte) : State :=
  if bytes.length < 5 then s.setReceiver c (.collecting bytes)
  else
    match cellFrame bytes with
    | none => s.setReceiver c .hunting
    | some (counts, st) => (s.setReceiver c .hunting).sampleArrives c counts st

/-- A byte of a load-cell line (R1). A hunting receiver passes over a 0xF5 that comes with a framing error (DESIGN CHOICE,
log entry 64). -/
def State.cellByte (s : State) (c : ChannelNo) (byte : Byte) (framingError : Bool) : State :=
  match (s.channel c).receiver with
  | .hunting => if byte = 0xF5 ∧ framingError = false then s.setReceiver c (.collecting []) else s
  | .collecting bytes =>
    if framingError then s.setReceiver c .hunting else s.collectCell c (bytes ++ [byte])

/-- LOAD_CELL_BYTE_RECEIVED (R1). -/
def execLoadCellByteReceived (c : ChannelNo) (byte : Byte) (framingError : Bool) (s : State) : Result :=
  s.run (fun s => s.cellByte c byte framingError)

/-- SAMPLE_ARRIVAL (R2, R3). -/
def execSampleArrival (c : ChannelNo) (counts : BitVec 24) (status : SampleStatus) (s : State) : Result :=
  s.run (fun s => s.sampleArrives c counts.toInt status)

/-- CELL_FRAME_GAP_TIMEOUT (R1). -/
def execCellFrameGapTimeout (c : ChannelNo) (s : State) : Result := s.run (fun s => s.setReceiver c .hunting)

/-- A running stall timer has expired (R4). -/
def State.stallExpired (s : State) (c : ChannelNo) : State :=
  if (s.channel c).stallTimer.isSome then
    let wasSet := (s.channel c).stall
    let s := s.onChannel c (fun x => { x with stallTimer := some s.stallTime, stall := true })
    if wasSet then s else s.report (.channelStall c (s.deckOf c) (s.channel c).age s.ret.clock)
  else s

/-- STALL_TIMER_EXPIRY (R4). -/
def execStallTimerExpiry (c : ChannelNo) (s : State) : Result := s.run (fun s => s.stallExpired c)

/-! ### The metrology switch (R10) -/

/-- The input shows a level: the 50 ms hold starts where it differs from the switch state, and stops where it agrees. -/
def Metrology.inputChanged (m : Metrology) (closed : Bool) : Metrology :=
  { m with hold := if closed = m.closed then none else some 50 }

/-- METROLOGY_INPUT_CHANGE (R10). -/
def execMetrologyInputChange (closed : Bool) (s : State) : Result :=
  s.runPins (fun p => { p with metrologyClosed := closed }) (fun t =>
    if s.pins.metrologyClosed = closed then t else { t with metrology := t.metrology.inputChanged closed })

/-- The new level has held for 50 ms (R10). -/
def Metrology.held (m : Metrology) (level : Bool) : Metrology :=
  if m.hold.isSome then { closed := level, hold := none } else m

/-- METROLOGY_SWITCH_CHANGE (R10). -/
def execMetrologySwitchChange (s : State) : Result :=
  s.run (fun s => { s with metrology := s.metrology.held s.pins.metrologyClosed })

/-! ### Decks and bridges (R20, R27, R28, R50) -/

/-- A running freshness timer has expired (R20). -/
def State.freshnessExpired (s : State) (d : DeckNo) : State :=
  if (s.deck d).freshness.isSome then
    let s := s.onDeck d (fun k => { k with freshness := none })
    if (s.deck d).condition = .stale then s
    else ((s.onDeck d (fun k => k.cleared .stale)).evaluateDeck d).seal
  else s

/-- FRESHNESS_EXPIRY (R20). -/
def execFreshnessExpiry (d : DeckNo) (s : State) : Result := s.run (fun s => s.freshnessExpired d)

/-- The zero timer has expired: the backlog rises, and may enter urgency (R27, R28). -/
def State.zeroTimerExpired (s : State) (b : BridgeNo) : State :=
  let before := s.urgent b
  let s := s.onBridge b (fun x => { x with zeroTimer := s.zeroTime b, backlog := countTo 15 x.backlog })
  if before = false ∧ s.urgent b = true then s.report (s.zeroReport b .urgent none none) else s

/-- ZERO_TIMER_EXPIRY (R27). -/
def execZeroTimerExpiry (b : BridgeNo) (s : State) : Result := s.run (fun s => s.zeroTimerExpired b)

/-- The failure handed to the lane: a lane in WEIGHING goes to CAPTURE_FAILED (R50, R88). -/
def State.captureFailedAt (s : State) (l : LaneNo) (why : Blocking) : State :=
  let s := s.onLane l (fun n => { n with lastReason := some (.capture why) })
  if (s.lane l).state = .weighing then s.enterState l .captureFailed (some (.capture why)) else s

/-- The deadline of a running capture has expired (R50, R51). -/
def State.captureExpired (s : State) (b : BridgeNo) : State :=
  match (s.bridge b).capture with
  | none => s
  | some c =>
    let s := (s.dropCapture b).returnVisit c.visit
    let s := s.report (.captureFailed
      { bridge := b, lane := c.lane, visit := c.visit, reason := c.blocking, start := c.start, clock := s.ret.clock,
        state := (s.bridge b).state, gross := (s.bridge b).gross.filter inInt32, weight := (s.bridge b).weight })
    (s.captureFailedAt c.lane c.blocking).seal

/-- CAPTURE_DEADLINE_EXPIRY (R50). -/
def execCaptureDeadlineExpiry (b : BridgeNo) (s : State) : Result := s.run (fun s => s.captureExpired b)

end Sys2Proof.Machine
end

