-- ==== Sys2Proof/Machine/BarrierEvents.lean ====
section
/-! DEFINITION. The events of barriers, loops and beams: one meaning for each row of their family (R58, R59, R62 to R65,
R69, R70). -/

namespace Sys2Proof.Machine

/-! ### The motion timer and the end switches (R58, R64, R65) -/

/-- The motion timer of a moving barrier has expired (R65). -/
def State.motionExpired (s : State) (b : BarrierNo) : State :=
  if (s.barrier b).moving then (s.faultBarrier b .motionTimeout).seal else s

/-- MOTION_TIMER_EXPIRY (R65). -/
def execMotionTimerExpiry (b : BarrierNo) (s : State) : Result := s.run (fun s => s.motionExpired b)

/-- The filter of an end switch: it runs where the level differs from the filtered state (R58). -/
def Barrier.switchInput (x : Barrier) (which : EndSwitch) (active : Bool) : Barrier :=
  match which with
  | .up   => { x with upFilter := if active = x.upActive then none else some 20 }
  | .down => { x with downFilter := if active = x.downActive then none else some 20 }

/-- The raw level of an end switch input. -/
def Pins.switchLevel (p : Pins) (b : BarrierNo) (which : EndSwitch) : Bool :=
  match which with
  | .up   => p.upSwitch.read b
  | .down => p.downSwitch.read b

/-- An end switch input takes a level. -/
def Pins.setSwitch (p : Pins) (b : BarrierNo) (which : EndSwitch) (active : Bool) : Pins :=
  match which with
  | .up   => { p with upSwitch := p.upSwitch.write b active }
  | .down => { p with downSwitch := p.downSwitch.write b active }

/-- END_SWITCH_INPUT_CHANGE (R58). -/
def execEndSwitchInputChange (b : BarrierNo) (which : EndSwitch) (active : Bool) (s : State) : Result :=
  s.runPins (fun p => p.setSwitch b which active) (fun t =>
    if s.pins.switchLevel b which = active then t else t.onBarrier b (fun x => x.switchInput which active))

/-- The filter of an end switch is running. -/
def Barrier.switchFiltering (x : Barrier) (which : EndSwitch) : Bool :=
  match which with
  | .up   => x.upFilter.isSome
  | .down => x.downFilter.isSome

/-- The filtered state of an end switch becomes its level (R58). -/
def Barrier.switchSettled (x : Barrier) (which : EndSwitch) (active : Bool) : Barrier :=
  match which with
  | .up   => { x with upActive := active, upFilter := none }
  | .down => { x with downActive := active, downFilter := none }

/-- What a change of a filtered switch does to the barrier and its lanes (R64, R65, R68). -/
def State.switchChanged (s : State) (b : BarrierNo) : SwitchEffect → State
  | .nothing      => s
  | .arriveUp     => ((s.onBarrier b (Barrier.arriveUp s.motionTime)).barrierSettled b).seal
  | .arriveDown   => ((s.onBarrier b Barrier.arriveDown).barrierSettled b).seal
  | .fault reason => (s.faultBarrier b reason).seal

/-- The new level of an end switch has held for 20 ms (R58). -/
def State.switchHeld (s : State) (b : BarrierNo) (which : EndSwitch) : State :=
  if (s.barrier b).switchFiltering which then
    let active := s.pins.switchLevel b which
    let s := s.onBarrier b (fun x => x.switchSettled which active)
    s.switchChanged b ((s.barrier b).switchEffect which active)
  else s

/-- END_SWITCH_CHANGE (R58). -/
def execEndSwitchChange (b : BarrierNo) (which : EndSwitch) (s : State) : Result := s.run (fun s => s.switchHeld b which)

/-! ### Safety loops (R59, R62, R63, R78) -/

/-- A lane in this state moves its crossing marks at loop changes: every state but LANE_FAULT, TAKEOVER_PENDING and
MANUAL (R78, R94 to R96). -/
def LaneState.watches : LaneState → Bool
  | .laneFault | .takeoverPending | .manual => false
  | _ => true

/-- The crossing mark of the barrier, front or rear, moves by one function. -/
def State.moveMark (s : State) (l : LaneNo) (b : BarrierNo) (f : CrossingMark → CrossingMark) : State :=
  if (s.lane l).state.watches then
    s.onLane l (fun n =>
      { n with
        frontMark := if (s.config l).front = some b then f n.frontMark else n.frontMark
        rearMark := if (s.config l).rear = some b then f n.rearMark else n.rearMark })
  else s

/-- The loop becoming OCCUPIED handed to the lanes that name the barrier (R59, R78), in the order of their numbers
(DESIGN CHOICE, log entry 47). -/
def State.handOccupied (s : State) (b : BarrierNo) : State :=
  forEach (s.lanesNaming b) (fun l s => s.moveMark l b .loopOccupied) s

/-- A safety loop input has gone active: the loop becomes OCCUPIED at once, or stays OCCUPIED with its clear filter
stopped (R59, R62). -/
def State.safetyActive (s : State) (b : BarrierNo) : State :=
  if (s.barrier b).occupied then s.onBarrier b (fun x => { x with clearFilter := none })
  else (s.onBarrier b (Barrier.loopOccupied s.motionTime)).handOccupied b

/-- The inputs of a safety loop take levels. -/
def Pins.setSafety (p : Pins) (b : BarrierNo) (presence fault : Bool) : Pins :=
  { p with safetyPresence := p.safetyPresence.write b presence, safetyFault := p.safetyFault.write b fault }

/-- SAFETY_LOOP_OCCUPIED (R59). -/
def execSafetyLoopOccupied (b : BarrierNo) (inputs : LoopInputs) (s : State) : Result :=
  s.runPins (fun p => p.setSafety b inputs.hasPresence inputs.hasFault) (fun s => s.safetyActive b)

/-- Both inputs of a safety loop are inactive: the 500 ms clear filter starts (R59). -/
def Barrier.inputsInactive (x : Barrier) : Barrier :=
  if x.occupied = true ∧ x.clearFilter = none then { x with clearFilter := some 500 } else x

/-- SAFETY_LOOP_INPUT_INACTIVE (R59). -/
def execSafetyLoopInputInactive (b : BarrierNo) (s : State) : Result :=
  s.runPins (fun p => p.setSafety b false false) (fun s => s.onBarrier b Barrier.inputsInactive)

/-- The lane's part at a safety loop becoming CLEAR: the marks move, a rear passage hands on the exit, and the lane tests
its conditions (R78, R90, R98). -/
def State.laneClear (s : State) (l : LaneNo) (b : BarrierNo) : State :=
  let before := (s.lane l).rearMark
  let s := s.moveMark l b .loopClear
  let passed := before != .passed && (s.lane l).rearMark == .passed
  let s := if passed = true ∧ (s.lane l).state = .leaving ∧ s.failing = false then s.passRear l else s
  s.testLane l

/-- The loop becoming CLEAR handed to the lanes that name the barrier (R59), in the order of their numbers (DESIGN
CHOICE, log entry 47). -/
def State.handClear (s : State) (b : BarrierNo) : State :=
  forEach (s.lanesNaming b) (fun l s => s.laneClear l b) s

/-- A safety loop whose clear filter runs has been inactive for 500 ms (R59, R63). -/
def State.safetyClear (s : State) (b : BarrierNo) : State :=
  if (s.barrier b).clearFilter.isSome then
    ((s.onBarrier b (Barrier.loopClear s.motionTime)).handClear b).seal
  else s

/-- SAFETY_LOOP_CLEAR (R59). -/
def execSafetyLoopClear (b : BarrierNo) (s : State) : Result := s.run (fun s => s.safetyClear b)

/-! ### Approach loops (R69, R79, R80) -/

/-- The inputs of an approach loop take levels. -/
def Pins.setApproach (p : Pins) (a : LoopNo) (presence fault : Bool) : Pins :=
  { p with approachPresence := p.approachPresence.write a presence, approachFault := p.approachFault.write a fault }

/-- A lane's part at its approach loop becoming OCCUPIED (R79, R98). -/
def State.approachReached (s : State) (l : LaneNo) : State :=
  if (s.lane l).state = .idle ∧ s.failing = false then s.comeToIdle l else s

/-- An approach loop input has gone active (R69). -/
def State.approachActive (s : State) (a : LoopNo) : State :=
  if (s.loop a).occupied then s.onLoop a (fun x => { x with clearFilter := none })
  else
    let s := s.onLoop a (fun _ => { occupied := true, clearFilter := none })
    forEach (s.lanesAtLoop a) (fun l s => s.approachReached l) s

/-- APPROACH_LOOP_OCCUPIED (R69, R79). -/
def execApproachLoopOccupied (a : LoopNo) (inputs : LoopInputs) (s : State) : Result :=
  s.runPins (fun p => p.setApproach a inputs.hasPresence inputs.hasFault) (fun s => s.approachActive a)

/-- Both inputs of an approach loop are inactive: the 500 ms clear filter starts (R69). -/
def ApproachLoop.inputsInactive (x : ApproachLoop) : ApproachLoop :=
  if x.occupied = true ∧ x.clearFilter = none then { x with clearFilter := some 500 } else x

/-- APPROACH_LOOP_INPUT_INACTIVE (R69). -/
def execApproachLoopInputInactive (a : LoopNo) (s : State) : Result :=
  s.runPins (fun p => p.setApproach a false false) (fun s => s.onLoop a ApproachLoop.inputsInactive)

/-- A lane's part at its approach loop becoming CLEAR (R80, R84, R86, R98). -/
def State.approachLeft (s : State) (l : LaneNo) : State :=
  if s.failing then s else (s.leaveBeforeEntry l).testLane l

/-- An approach loop whose clear filter runs has been inactive for 500 ms (R69). -/
def State.approachClear (s : State) (a : LoopNo) : State :=
  if (s.loop a).clearFilter.isSome then
    let s := s.onLoop a (fun _ => { occupied := false, clearFilter := none })
    (forEach (s.lanesAtLoop a) (fun l s => s.approachLeft l) s).seal
  else s

/-- APPROACH_LOOP_CLEAR (R69, R80). -/
def execApproachLoopClear (a : LoopNo) (s : State) : Result := s.run (fun s => s.approachClear a)

/-! ### Beams (R70) -/

/-- A beam's input shows clear or not. -/
def Pins.setBeam (p : Pins) (m : BeamNo) (light : Bool) : Pins := { p with beamLight := p.beamLight.write m light }

/-- BEAM_BROKEN (R70). -/
def execBeamBroken (m : BeamNo) (s : State) : Result :=
  s.runPins (fun p => p.setBeam m false) (fun s => s.onBeam m (fun _ => { broken := true, clearFilter := none }))

/-- The input of a beam shows clear: the 200 ms clear filter starts (R70). -/
def Beam.inputClear (x : Beam) : Beam :=
  if x.broken = true ∧ x.clearFilter = none then { x with clearFilter := some 200 } else x

/-- BEAM_INPUT_CLEAR (R70). -/
def execBeamInputClear (m : BeamNo) (s : State) : Result :=
  s.runPins (fun p => p.setBeam m true) (fun s => s.onBeam m Beam.inputClear)

/-- The input has shown clear for 200 ms (R70). -/
def Beam.held (x : Beam) : Beam := if x.clearFilter.isSome then { broken := false, clearFilter := none } else x

/-- BEAM_CLEAR (R70). -/
def execBeamClear (m : BeamNo) (s : State) : Result := s.run (fun s => s.onBeam m Beam.held)

end Sys2Proof.Machine
end

