-- ==== Sys2Proof/Machine/LaneEvents.lean ====
section
/-! DEFINITION. The timers of lanes, queries and the permit cache, and the yard clock: one meaning for each row of their
family (R79, R87, R98, R116, R140, R141, R185). -/

namespace Sys2Proof.Machine

/-- The timer is running. -/
def HeldTimer.isRunning : HeldTimer → Bool
  | .running _ => true
  | .stopped   => false
  | .expired   => false

/-- A running identity timer has expired: held as expired under power fail, else NO_ID (R79, R98). -/
def State.identityExpired (s : State) (l : LaneNo) : State :=
  if (s.lane l).identityTimer.isRunning then
    if s.failing then s.onLane l (fun n => { n with identityTimer := .expired })
    else if (s.lane l).state = .awaitId then s.enterState l .noId none
    else s
  else s

/-- IDENTITY_TIMER_EXPIRY (R79). -/
def execIdentityTimerExpiry (l : LaneNo) (s : State) : Result := s.run (fun s => s.identityExpired l)

/-- A running entry timer has expired: held as expired under power fail, else a withdrawal or a restart (R87, R98). -/
def State.entryTimerExpired (s : State) (l : LaneNo) : State :=
  if (s.lane l).entryTimer.isRunning then
    if s.failing then s.onLane l (fun n => { n with entryTimer := .expired })
    else if (s.lane l).state = .entering then (s.entryExpired l).seal
    else s
  else s

/-- ENTRY_TIMER_EXPIRY (R87). -/
def execEntryTimerExpiry (l : LaneNo) (s : State) : Result := s.run (fun s => s.entryTimerExpired l)

/-- The aging of the cache, the timer restarting with the interval held (R116). -/
def Admission.aged (a : Admission) (interval : Nat) : Admission :=
  { a with cache := a.cache.each (fun e => e.map Permit.aged), agingTimer := interval * 1000 }

/-- AGING_TIMER_EXPIRY (R116). -/
def execAgingTimerExpiry (s : State) : Result := s.run (fun s => s.onAdm (fun a => a.aged s.timers.aging))

/-- A slot whose query has timed out (R140). -/
def QuerySlot.timedOut (q : QuerySlot) : QuerySlot := { q with state := .late, deadline := .stopped, held := none }

/-- The visit an outcome created, for the slot's provisional visit (R140). -/
def AdmitOutcome.visit : AdmitOutcome → Option Nat
  | .admitted n => some n
  | .siteFull   => none
  | .query _    => none
  | .refused _  => none
  | .held       => none

/-- The fallback decides the vehicle (R140). -/
def State.fallBack (s : State) (l : LaneNo) (q : QuerySlot) : State :=
  match (s.config l).fallback with
  | .refuse => s.refuseVehicle l q.tag .queryTimeout
  | .provisional =>
    let r := s.createVisit l { tag := q.tag, account := 0, stream := q.stream, storedTare := false, provisional := true }
    r.1.onSlot l (fun q => { q with provisional := r.2.visit })

/-- The query of a slot times out (R140). -/
def State.queryTimedOut (s : State) (l : LaneNo) : State :=
  let q := s.slot l
  let s := s.onSlot l QuerySlot.timedOut
  let s := s.onLane l (fun n => { n with query := none })
  s.fallBack l q

/-- The running deadline of an ACTIVE slot has expired: held as expired under power fail (R140, R141). -/
def State.deadlineExpired (s : State) (l : LaneNo) : State :=
  if (s.slot l).state = .active ∧ (s.slot l).deadline.isRunning = true then
    if s.failing then s.onSlot l (fun q => { q with deadline := .expired }) else (s.queryTimedOut l).seal
  else s

/-- QUERY_DEADLINE_EXPIRY (R140). -/
def execQueryDeadlineExpiry (l : LaneNo) (s : State) : Result := s.run (fun s => s.deadlineExpired l)

/-- CLOCK_TICK: the yard clock advances on main power and on the backup supply (R185). -/
def execClockTick (s : State) : Result := .next (s.onRet (fun r => { r with clock := succClock r.clock }))

end Sys2Proof.Machine
end

