-- ==== Sys2Proof/Machine/PowerEvents.lean ====
section
/-! DEFINITION. The events of power: the power-fail input, the reset input, the loss of main power and the failure of the
backup supply: one meaning for each row of their family (R54, R98, R99, R141, R181, R182, R197). -/

namespace Sys2Proof.Machine

/-! ### The assertion (R54, R182) -/

/-- A bridge's capture is cancelled for power fail, and its lane in WEIGHING goes to CAPTURE_FAILED (R54, R88, R98). -/
def State.failCapture (s : State) (b : BridgeNo) : State :=
  match (s.bridge b).capture with
  | none => s
  | some c =>
    let s := s.cancelCaptureOn b .powerFail
    if (s.lane c.lane).state = .weighing then s.enterState c.lane .captureFailed (some (.cancelled .powerFail)) else s

/-- The captures in flight. -/
def State.captureCount (s : State) : Nat := (allFour.filter (fun b => (s.bridge b).capture.isSome)).length

/-- The power-fail input has gone active (R182). Several captures are cancelled in the order of their bridges (DESIGN
CHOICE, log entry 48). -/
def State.powerFailing (s : State) : State :=
  if s.failing then { s with powerFail := { asserted := true, filter := none } }
  else
    let count := s.captureCount
    let s : State := { s with powerFail := { asserted := true, filter := none } }
    let s := (forEach allFour (fun b s => s.failCapture b) s).seal
    s.report (.powerFail s.ret.clock count)

/-- POWER_FAIL_ASSERT (R182). -/
def execPowerFailAssert (s : State) : Result :=
  s.runPins (fun p => { p with powerFail := true }) (fun s => s.powerFailing)

/-- The power-fail input is inactive: the 100 ms filter starts (R182). -/
def PowerFail.inputInactive (p : PowerFail) : PowerFail :=
  if p.asserted = true ∧ p.filter = none then { p with filter := some 100 } else p

/-- POWER_FAIL_INPUT_INACTIVE (R182). -/
def execPowerFailInputInactive (s : State) : Result :=
  s.runPins (fun p => { p with powerFail := false }) (fun s => { s with powerFail := s.powerFail.inputInactive })

/-! ### The deassertion (R99, R104, R141, R168, R182) -/

/-- The lane is in a state that ends when its vehicle leaves the approach loop (R80). -/
def LaneState.beforeEntry : LaneState → Bool
  | .awaitId | .noId | .admitting | .siteFull | .refused | .awaitBridge => true
  | _ => false

/-- The test of a lane at the deassertion: the first transition that applies (R99). -/
def State.retest (s : State) (l : LaneNo) : State :=
  let n := s.lane l
  if n.state.beforeEntry = true ∧ s.approachOccupied l = false then s.leaveBeforeEntry l
  else
    match n.state with
    | .awaitBridge => if s.holdsGrant l then s.enterEntering l else s
    | .awaitId => if n.identityTimer = .expired then s.enterState l .noId none else s
    | .entering =>
      if n.entered = false ∧ s.entryMet l = false ∧ n.entryTimer = .expired then s.entryExpired l else s.testLane l
    | .leaving => if n.rearMark = .passed then (s.passRear l).testLane l else s
    | .takeoverPending => s.testTakeover l
    | .idle => s.comeToIdle l
    | _ => s.testLane l

/-- A slot still ACTIVE is decided by its held answer, or times out at its held expiry (R141). -/
def State.takeUpSlot (s : State) (l : LaneNo) : State :=
  if (s.slot l).state = .active then
    match (s.slot l).held with
    | some answer => (s.decideByAnswer l answer).1
    | none => if (s.slot l).deadline = .expired then s.queryTimedOut l else s
  else s

/-- The power-fail input is deasserted: lanes, grant decisions, held answers and expiries, and the drain (R182). -/
def State.powerRestored (s : State) : State :=
  let s : State := { s with powerFail := { asserted := false, filter := none } }
  let s := forEach allFour (fun l s => s.retest l) s
  let s := forEach allFour (fun b s => s.decideGrant b) s
  let s := forEach allFour (fun l s => s.takeUpSlot l) s
  s.drain.seal

/-- POWER_FAIL_DEASSERT: the input has been inactive for 100 ms (R182). -/
def execPowerFailDeassert (s : State) : Result :=
  s.run (fun s => if s.powerFail.filter.isSome then s.powerRestored else s)

/-! ### Reset and the two supplies (R181 to R184, R197) -/

/-- RESET_INPUT: the reset input or the return of main power, with the LANE_HOLD strap as it is sampled at release
(R100, R197). -/
def execResetInput (laneHold : Bool) (s : State) : Result :=
  .next (((s.onPins (fun p => { p with laneHold := laneHold })).resetPart .input).transmit)

/-- The part with main power off: the retained contents and the inputs stay, everything unretained is gone (DESIGN
CHOICE, log entry 9: its fields stand as a reset would leave them, and nothing reads them until the next reset). -/
def State.dark (s : State) : State := { s.bare s.ret with powered := false }

/-- MAIN_POWER_LOSS (R182). -/
def execMainPowerLoss (s : State) : Result := .next (if s.powered then s.dark else s)

/-- The retained contents altered with main power off: the stored check word disagrees with the image (R181). -/
def Retained.spoiled (r : Retained) : Retained := { r with checkWord := ~~~ r.computedCheck }

/-- BACKUP_SUPPLY_FAILURE: only while main power is off do the retained contents stand on the backup supply (R181). -/
def execBackupSupplyFailure (s : State) : Result := .next (if s.powered then s else s.onRet Retained.spoiled)

end Sys2Proof.Machine
end

