-- ==== Sys2Proof/Machine/LinkEvents.lean ====
section
/-! DEFINITION. The commands of the host link: one meaning for each request row, which is the arrival of that request's
complete frame (R188), and one for each row of the frames and the line itself (R186, R188, R191). -/

namespace Sys2Proof.Machine

/-! ### The request rows: the request is taken at its arrival when there is no current reply, else it waits in the
request queue, and a full queue answers BUSY (R188) -/

/-- IDENTIFY (R194). -/
def execIdentify (s : State) : Result := s.receive .identify

/-- STATUS_READ (R195). -/
def execStatusRead (s : State) : Result := s.receive .statusRead

/-- RESET (R196). -/
def execReset (s : State) : Result := s.receive .reset

/-- CONFIG_LANE (R74, R75). -/
def execConfigLane (f : ConfigLaneFields) (s : State) : Result := s.receive (.configLane f)

/-- CONFIG_BRIDGE_TIMING (R33). -/
def execConfigBridgeTiming (f : BridgeTimingFields) (s : State) : Result := s.receive (.configBridgeTiming f)

/-- CONFIG_STREAM (R112). -/
def execConfigStream (f : ConfigStreamFields) (s : State) : Result := s.receive (.configStream f)

/-- CONFIG_TIMERS (R76). -/
def execConfigTimers (f : ConfigTimersFields) (s : State) : Result := s.receive (.configTimers f)

/-- CAL_DECK_MAP (R9). -/
def execCalDeckMap (decks : Table 16 Byte) (s : State) : Result := s.receive (.calDeckMap decks)

/-- CAL_CELL (R12). -/
def execCalCell (f : CalCellFields) (s : State) : Result := s.receive (.calCell f)

/-- CAL_BRIDGE (R34). -/
def execCalBridge (f : CalBridgeFields) (s : State) : Result := s.receive (.calBridge f)

/-- CAL_REFERENCE_ZERO (R35). -/
def execCalReferenceZero (f : CalZeroFields) (s : State) : Result := s.receive (.calReferenceZero f)

/-- TIME_SET (R185). -/
def execTimeSet (value : Word) (s : State) : Result := s.receive (.timeSet value)

/-- ARRIVAL (R81). -/
def execArrival (lane : Byte) (tag : Word) (stream : Byte) (s : State) : Result :=
  s.receive (.arrival lane tag stream)

/-- LANE_TAKEOVER (R95). -/
def execLaneTakeover (lane : Byte) (s : State) : Result := s.receive (.laneTakeover lane)

/-- LANE_RELEASE (R97). -/
def execLaneRelease (lane : Byte) (s : State) : Result := s.receive (.laneRelease lane)

/-- LANE_RETRY (R91). -/
def execLaneRetry (lane : Byte) (s : State) : Result := s.receive (.laneRetry lane)

/-- LANE_BACKOUT (R92). -/
def execLaneBackout (lane : Byte) (s : State) : Result := s.receive (.laneBackout lane)

/-- BARRIER_COMMAND (R67). -/
def execBarrierCommand (lane : Byte) (barrier : Byte) (command : Byte) (s : State) : Result :=
  s.receive (.barrierCommand lane barrier command)

/-- BARRIER_RESET (R66). -/
def execBarrierReset (barrier : Byte) (s : State) : Result := s.receive (.barrierReset barrier)

/-- WEIGHT_READ (R37). -/
def execWeightRead (bridge : Selector) (s : State) : Result := s.receive (.weightRead bridge)

/-- ZERO_NOW (R31). -/
def execZeroNow (bridge : Byte) (s : State) : Result := s.receive (.zeroNow bridge)

/-- ZERO_WAIVE (R32). -/
def execZeroWaive (bridge : Byte) (s : State) : Result := s.receive (.zeroWaive bridge)

/-- CHANNEL_READ (R14). -/
def execChannelRead (channel : Selector) (s : State) : Result := s.receive (.channelRead channel)

/-- CHANNEL_CLEAR (R15). -/
def execChannelClear (channel : Selector) (s : State) : Result := s.receive (.channelClear channel)

/-- PERMIT_ANSWER (R136). -/
def execPermitAnswer (f : PermitAnswerFields) (s : State) : Result := s.receive (.permitAnswer f)

/-- INVALIDATE (R142). -/
def execInvalidate (code : Byte) (account : Half) (tag : Word) (s : State) : Result :=
  s.receive (.invalidate code account tag)

/-- CREDIT_SET (R124). -/
def execCreditSet (account : Half) (credit : Word) (stopped : Byte) (s : State) : Result :=
  s.receive (.creditSet account credit stopped)

/-- CACHE_READ (R125). -/
def execCacheRead (s : State) : Result := s.receive .cacheRead

/-- REFUSAL_READ (R128). -/
def execRefusalRead (s : State) : Result := s.receive .refusalRead

/-- REFUSAL_CLEAR (R129). -/
def execRefusalClear (records : Byte) (overflow : Byte) (s : State) : Result :=
  s.receive (.refusalClear records overflow)

/-- REFUSAL_MASK (R130). -/
def execRefusalMask (setting : Byte) (s : State) : Result := s.receive (.refusalMask setting)

/-- VISIT_READ (R155). -/
def execVisitRead (kind : Byte) (operand : Word) (s : State) : Result := s.receive (.visitRead kind operand)

/-- VISIT_CANCEL (R154). -/
def execVisitCancel (kind : Byte) (operand : Word) (s : State) : Result := s.receive (.visitCancel kind operand)

/-- TARE_WRITE (R159). -/
def execTareWrite (f : TareWriteFields) (s : State) : Result := s.receive (.tareWrite f)

/-- TARE_DELETE (R160). -/
def execTareDelete (tag : Word) (s : State) : Result := s.receive (.tareDelete tag)

/-- TARE_READ (R161). -/
def execTareRead (kind : Byte) (operand : Word) (s : State) : Result := s.receive (.tareRead kind operand)

/-- TICKET_READ (R177). -/
def execTicketRead (number : Word) (s : State) : Result := s.receive (.ticketRead number)

/-- TICKET_COLLECT (R176). -/
def execTicketCollect (number : Word) (s : State) : Result := s.receive (.ticketCollect number)

/-- TICKET_BASE (R180). -/
def execTicketBase (number : Word) (s : State) : Result := s.receive (.ticketBase number)

/-! ### Frames and the line -/

/-- HOST_FRAME_RECEIVED: a complete frame of a kind and a payload, at most 1,023 bytes of payload (R186, R188). -/
def execHostFrameReceived (kind : Byte) (payload : List Byte) (s : State) : Result :=
  s.run (fun s =>
    if payload.length ≤ 1023 then s.frameArrives (readFrame kind payload)
    else s.onLink (fun k => { k with receiver := .hunting }))

/-- HOST_FRAME_GAP_TIMEOUT (R186). -/
def execHostFrameGapTimeout (s : State) : Result := s.run (fun s => s.onLink (fun k => { k with receiver := .hunting }))

/-- TRANSMIT_FRAME_END (R191). -/
def execTransmitFrameEnd (s : State) : Result := s.run (fun s => s.endTransmission)

/-- HOST_LINK_BYTE_RECEIVED (R186). -/
def execHostLinkByteReceived (byte : Byte) (framingError : Bool) (s : State) : Result :=
  s.run (fun s => s.hostByte byte framingError)

end Sys2Proof.Machine
end

