-- ==== Sys2Proof/Machine/Dispatch.lean ====
section
/-! DEFINITION. The meaning of every command of the table, one arm for each. -/

namespace Sys2Proof.Machine

def exec (i : Instr) (s : State) : Host.Outcome State Fault Refusal :=
  match i with
  | .identify => Sys2Proof.Machine.execIdentify s
  | .statusRead => Sys2Proof.Machine.execStatusRead s
  | .reset => Sys2Proof.Machine.execReset s
  | .configLane f => Sys2Proof.Machine.execConfigLane f s
  | .configBridgeTiming f => Sys2Proof.Machine.execConfigBridgeTiming f s
  | .configStream f => Sys2Proof.Machine.execConfigStream f s
  | .configTimers f => Sys2Proof.Machine.execConfigTimers f s
  | .calDeckMap decks => Sys2Proof.Machine.execCalDeckMap decks s
  | .calCell f => Sys2Proof.Machine.execCalCell f s
  | .calBridge f => Sys2Proof.Machine.execCalBridge f s
  | .calReferenceZero f => Sys2Proof.Machine.execCalReferenceZero f s
  | .timeSet value => Sys2Proof.Machine.execTimeSet value s
  | .arrival lane tag stream => Sys2Proof.Machine.execArrival lane tag stream s
  | .laneTakeover lane => Sys2Proof.Machine.execLaneTakeover lane s
  | .laneRelease lane => Sys2Proof.Machine.execLaneRelease lane s
  | .laneRetry lane => Sys2Proof.Machine.execLaneRetry lane s
  | .laneBackout lane => Sys2Proof.Machine.execLaneBackout lane s
  | .barrierCommand lane barrier command => Sys2Proof.Machine.execBarrierCommand lane barrier command s
  | .barrierReset barrier => Sys2Proof.Machine.execBarrierReset barrier s
  | .weightRead bridge => Sys2Proof.Machine.execWeightRead bridge s
  | .zeroNow bridge => Sys2Proof.Machine.execZeroNow bridge s
  | .zeroWaive bridge => Sys2Proof.Machine.execZeroWaive bridge s
  | .channelRead channel => Sys2Proof.Machine.execChannelRead channel s
  | .channelClear channel => Sys2Proof.Machine.execChannelClear channel s
  | .permitAnswer f => Sys2Proof.Machine.execPermitAnswer f s
  | .invalidate code account tag => Sys2Proof.Machine.execInvalidate code account tag s
  | .creditSet account credit stopped => Sys2Proof.Machine.execCreditSet account credit stopped s
  | .cacheRead => Sys2Proof.Machine.execCacheRead s
  | .refusalRead => Sys2Proof.Machine.execRefusalRead s
  | .refusalClear records overflow => Sys2Proof.Machine.execRefusalClear records overflow s
  | .refusalMask setting => Sys2Proof.Machine.execRefusalMask setting s
  | .visitRead kind operand => Sys2Proof.Machine.execVisitRead kind operand s
  | .visitCancel kind operand => Sys2Proof.Machine.execVisitCancel kind operand s
  | .tareWrite f => Sys2Proof.Machine.execTareWrite f s
  | .tareDelete tag => Sys2Proof.Machine.execTareDelete tag s
  | .tareRead kind operand => Sys2Proof.Machine.execTareRead kind operand s
  | .ticketRead number => Sys2Proof.Machine.execTicketRead number s
  | .ticketCollect number => Sys2Proof.Machine.execTicketCollect number s
  | .ticketBase number => Sys2Proof.Machine.execTicketBase number s
  | .hostFrameReceived kind payload => Sys2Proof.Machine.execHostFrameReceived kind payload s
  | .hostFrameGapTimeout => Sys2Proof.Machine.execHostFrameGapTimeout s
  | .transmitFrameEnd => Sys2Proof.Machine.execTransmitFrameEnd s
  | .sampleArrival channel counts status => Sys2Proof.Machine.execSampleArrival channel counts status s
  | .cellFrameGapTimeout channel => Sys2Proof.Machine.execCellFrameGapTimeout channel s
  | .stallTimerExpiry channel => Sys2Proof.Machine.execStallTimerExpiry channel s
  | .freshnessExpiry deck => Sys2Proof.Machine.execFreshnessExpiry deck s
  | .zeroTimerExpiry bridge => Sys2Proof.Machine.execZeroTimerExpiry bridge s
  | .captureDeadlineExpiry bridge => Sys2Proof.Machine.execCaptureDeadlineExpiry bridge s
  | .motionTimerExpiry barrier => Sys2Proof.Machine.execMotionTimerExpiry barrier s
  | .identityTimerExpiry lane => Sys2Proof.Machine.execIdentityTimerExpiry lane s
  | .entryTimerExpiry lane => Sys2Proof.Machine.execEntryTimerExpiry lane s
  | .agingTimerExpiry => Sys2Proof.Machine.execAgingTimerExpiry s
  | .queryDeadlineExpiry slot => Sys2Proof.Machine.execQueryDeadlineExpiry slot s
  | .clockTick => Sys2Proof.Machine.execClockTick s
  | .metrologyInputChange closed => Sys2Proof.Machine.execMetrologyInputChange closed s
  | .metrologySwitchChange => Sys2Proof.Machine.execMetrologySwitchChange s
  | .endSwitchInputChange barrier switch active => Sys2Proof.Machine.execEndSwitchInputChange barrier switch active s
  | .endSwitchChange barrier switch => Sys2Proof.Machine.execEndSwitchChange barrier switch s
  | .safetyLoopOccupied barrier inputs => Sys2Proof.Machine.execSafetyLoopOccupied barrier inputs s
  | .safetyLoopInputInactive barrier => Sys2Proof.Machine.execSafetyLoopInputInactive barrier s
  | .safetyLoopClear barrier => Sys2Proof.Machine.execSafetyLoopClear barrier s
  | .approachLoopOccupied loop inputs => Sys2Proof.Machine.execApproachLoopOccupied loop inputs s
  | .approachLoopInputInactive loop => Sys2Proof.Machine.execApproachLoopInputInactive loop s
  | .approachLoopClear loop => Sys2Proof.Machine.execApproachLoopClear loop s
  | .beamBroken beam => Sys2Proof.Machine.execBeamBroken beam s
  | .beamInputClear beam => Sys2Proof.Machine.execBeamInputClear beam s
  | .beamClear beam => Sys2Proof.Machine.execBeamClear beam s
  | .powerFailAssert => Sys2Proof.Machine.execPowerFailAssert s
  | .powerFailInputInactive => Sys2Proof.Machine.execPowerFailInputInactive s
  | .powerFailDeassert => Sys2Proof.Machine.execPowerFailDeassert s
  | .resetInput laneHold => Sys2Proof.Machine.execResetInput laneHold s
  | .loadCellByteReceived channel byte framingError => Sys2Proof.Machine.execLoadCellByteReceived channel byte framingError s
  | .hostLinkByteReceived byte framingError => Sys2Proof.Machine.execHostLinkByteReceived byte framingError s
  | .mainPowerLoss => Sys2Proof.Machine.execMainPowerLoss s
  | .backupSupplyFailure => Sys2Proof.Machine.execBackupSupplyFailure s

end Sys2Proof.Machine
end

