-- ==== Sys2Proof/Machine/Step.lean ====
section
/-! DEFINITION. One step: the command at the front of the queue, or, on an empty queue, one millisecond of the part's own
time (DESIGN CHOICE, log entry 10). -/

namespace Sys2Proof.Machine

/-- A millisecond of a timer; a timer at 0 waits for its expiry command. -/
def Timer.tick (t : Timer) : Timer := t.map (fun left => left - 1)

/-- A millisecond of a timer that power fail can hold. -/
def HeldTimer.tick : HeldTimer → HeldTimer
  | .running left => .running (left - 1)
  | .stopped      => .stopped
  | .expired      => .expired

/-- A millisecond of a channel: the sample age rises and stops at 65,535 (R3). -/
def Channel.tick (c : Channel) : Channel := { c with age := countTo 65535 c.age, stallTimer := Timer.tick c.stallTimer }

/-- A millisecond of a bridge. -/
def Bridge.tick (x : Bridge) : Bridge :=
  { x with zeroTimer := x.zeroTimer - 1, capture := x.capture.map (fun c => { c with deadline := c.deadline - 1 }) }

/-- A millisecond of a barrier. -/
def Barrier.tick (x : Barrier) : Barrier :=
  { x with
    motionTimer := Timer.tick x.motionTimer, upFilter := Timer.tick x.upFilter, downFilter := Timer.tick x.downFilter,
    clearFilter := Timer.tick x.clearFilter }

/-- A millisecond of a lane. -/
def Lane.tick (n : Lane) : Lane := { n with identityTimer := n.identityTimer.tick, entryTimer := n.entryTimer.tick }

/-- A millisecond of the admission unit. -/
def Admission.tick (a : Admission) : Admission :=
  { a with agingTimer := a.agingTimer - 1, slots := a.slots.each (fun q => { q with deadline := q.deadline.tick }) }

/-- A millisecond of the running part: every timer and filter counts down, every sample ages. Expiries are commands of
their own. -/
def State.tick (s : State) : State :=
  { s with
    channels := s.channels.each Channel.tick
    metrology := { s.metrology with hold := Timer.tick s.metrology.hold }
    decks := s.decks.each (fun d => { d with freshness := Timer.tick d.freshness })
    bridges := s.bridges.each Bridge.tick
    barriers := s.barriers.each Barrier.tick
    loops := s.loops.each (fun x => { x with clearFilter := Timer.tick x.clearFilter })
    beams := s.beams.each (fun x => { x with clearFilter := Timer.tick x.clearFilter })
    lanes := s.lanes.each Lane.tick
    adm := s.adm.tick
    powerFail := { s.powerFail with filter := Timer.tick s.powerFail.filter } }

/-- One step of the part. -/
def step (s : State) : Host.Outcome State Fault Refusal :=
  match s.pending with
  | [] => .next (if s.powered then s.tick else s)
  | c :: rest => exec c { s with pending := rest }

/-- The state with the command that a table word spells put at the front of its queue. -/
def State.withFetchWord (s : State) (nbits w : Nat) : State :=
  match Sys2Proof.decodeTableWord nbits w with
  | none => s
  | some c => { s with pending := c :: s.pending }

end Sys2Proof.Machine
end

