-- ==== Sys2Proof/Machine/Wire.lean ====
section
/-! DEFINITION. The bytes of the frames the part sends: fields, records, reports, replies, permit queries, and the frame
around them (R134, R186, R187, R189, R190, sections 12.7 and 12.8). -/

namespace Sys2Proof.Machine

/-! ### Fields (R189) -/

/-- A number in 1 byte. -/
def num1 (n : Nat) : List Byte := [BitVec.ofNat 8 n]
/-- A number in 2 bytes. -/
def num2 (n : Nat) : List Byte := halfBytes (BitVec.ofNat 16 n)
/-- A number in 4 bytes. -/
def num4 (n : Nat) : List Byte := wordBytes (BitVec.ofNat 32 n)
/-- A signed number in 4 bytes, in two's complement. A zero or candidate outside the weight range, which R26 and R35 do not
shut out, is sent modulo 2^32 (DESIGN CHOICE, log entry 46). -/
def int4 (v : Int) : List Byte := wordBytes (BitVec.ofInt 32 v)
/-- A flag or mark. -/
def flag1 (b : Bool) : List Byte := [if b then 1 else 0]
/-- The filtered state of an end switch, ACTIVE or INACTIVE (section 4.1). -/
def switch1 (active : Bool) : List Byte := [if active then 0 else 1]
/-- The state of a loop, OCCUPIED or CLEAR (section 4.1, R69). -/
def loop1 (occupied : Bool) : List Byte := [if occupied then 0 else 1]
/-- The state of the LANE_HOLD strap, Held or Open in the order of R100 (DESIGN CHOICE, log entry 7). -/
def strap1 (held : Bool) : List Byte := [if held then 0 else 1]
/-- A lane, bridge, deck or barrier, 0xFF for none. -/
def unit1 {n : Nat} : Option (Fin n) → List Byte
  | none => [0xFF]
  | some i => num1 i.val

/-- A field that may be absent: a form byte, then the value, or zeros of the value's width (R189). -/
def optional {α : Type} (width : Nat) (f : α → List Byte) : Option α → List Byte
  | none => 1 :: List.replicate width 0
  | some x => 0 :: f x

/-- A list of varying length, preceded by the number of its entries. -/
def counted {α : Type} (xs : List α) (f : α → List Byte) : List Byte := num1 xs.length ++ xs.flatMap f

/-- The bits of a set of members, bit n for member n. -/
def setBits {n : Nat} (xs : List (Fin n)) : Nat := (xs.map (fun i => 2 ^ i.val)).sum

/-- A timer shown as seconds, STOPPED or EXPIRED. -/
def shown1 : ShownTimer → List Byte
  | .seconds n => 0 :: num1 n
  | .stopped   => [1, 0]
  | .expired   => [2, 0]

/-! ### Enumerated values, numbered from 0 in the order their rules list them -/

def Role.byte : Role → Byte
  | .none => 0 | .inbound => 1 | .outbound => 2 | .bypass => 3
def Fallback.byte : Fallback → Byte
  | .refuse => 0 | .provisional => 1
def DeckCondition.byte : DeckCondition → Byte
  | .noChannels => 0 | .uncalibrated => 1 | .stale => 2 | .over => 3 | .valid => 4
def Judgement.byte : Judgement → Byte
  | .uncalibrated => 0 | .stale => 1 | .faulted => 2 | .over => 3 | .good => 4 | .unused => 5
def BridgeState.byte : BridgeState → Byte
  | .notReady => 0 | .calibrating => 1 | .over => 2 | .under => 3 | .motion => 4 | .stable => 5
def Blocking.byte : Blocking → Byte
  | .notReady => 0 | .calibrating => 1 | .over => 2 | .under => 3 | .motion => 4 | .beam => 5 | .barrier => 6
def Cancellation.byte : Cancellation → Byte
  | .takeover => 0 | .barrierFault => 1 | .powerFail => 2
/-- A refusal reason, by the list of R121, in the LATE_REFUSAL report and the LATE reply too (R138, R139, R189; DESIGN
CHOICE, log entry 59). -/
def RefusalReason.byte : RefusalReason → Byte
  | .alreadyOnSite => 0 | .streamNotPermitted => 1 | .accountStopped => 2 | .credit => 3 | .unknownTag => 4
  | .queryTimeout => 5 | .noVisit => 6 | .alreadyInLane => 7 | .notTicketed => 8 | .backedOut => 9
/-- A last reason: refusal reasons, then capture failure reasons, then cancellation reasons (DESIGN CHOICE, log entry 7). -/
def Reason.byte : Reason → Byte
  | .refusal r   => r.byte
  | .capture b   => 10 + b.byte
  | .cancelled c => 17 + c.byte
def BarrierState.byte : BarrierState → Byte
  | .down => 0 | .raising => 1 | .up => 2 | .lowering => 3 | .fault => 4
def FaultReason.byte : FaultReason → Byte
  | .none => 0 | .motionTimeout => 1 | .forced => 2 | .switchConflict => 3 | .unknownPosition => 4
def LaneState.byte : LaneState → Byte
  | .idle => 0 | .awaitId => 1 | .noId => 2 | .admitting => 3 | .siteFull => 4 | .refused => 5 | .awaitBridge => 6
  | .entering => 7 | .weighing => 8 | .captureFailed => 9 | .ticketWait => 10 | .leaving => 11 | .backingOut => 12
  | .passing => 13 | .laneFault => 14 | .takeoverPending => 15 | .manual => 16
def CrossingMark.byte : CrossingMark → Byte
  | .none => 0 | .seen => 1 | .passed => 2
def Signal.byte : Signal → Byte
  | .red => 0 | .green => 1
def SlotState.byte : SlotState → Byte
  | .free => 0 | .active => 1 | .late => 2
def ZeroEvent.byte : ZeroEvent → Byte
  | .urgent => 0 | .captured => 1 | .limit => 2
def ResetCause.byte : ResetCause → Byte
  | .input => 0 | .request => 1
def VisitState.byte : VisitState → Byte
  | .admitted => 0 | .weighingIn => 1 | .onSite => 2 | .weighingOut => 3 | .ticketPending => 4 | .ticketed => 5
  | .exiting => 6
def Direction.byte : Direction → Byte
  | .delivery => 0 | .collection => 1
def Source.byte : Source → Byte
  | .secondWeighing => 0 | .storedTare => 1
def Granularity.byte : Granularity → Byte
  | .all => 0 | .account => 1 | .covering => 2 | .none => 3
def sampleStatusByte : SampleStatus → Byte
  | .ok => 0 | .overrange => 1 | .cellFault => 2
/-- The status codes (section 12.7). -/
def Status.byte : Status → Byte
  | .ok => 0x00 | .late => 0x01 | .busy => 0x02 | .unknownKind => 0x03 | .badLength => 0x04 | .outOfRange => 0x05
  | .calLocked => 0x06 | .laneBusy => 0x07 | .bridgeHeld => 0x08 | .notStable => 0x09 | .zeroRange => 0x0A
  | .noSuchQuery => 0x0B | .noSuchVisit => 0x0C | .noSuchTicket => 0x0D | .visitBusy => 0x0E | .powerFail => 0x0F
  | .sharedBarrier => 0x11

/-! ### Records (section 12.8) -/

/-- A flags byte: bit n for the nth mark. -/
def flagBits : List Bool → Nat
  | [] => 0
  | b :: rest => (if b then 1 else 0) + 2 * flagBits rest

/-- A weighing record, 19 bytes. -/
def WeighingRecord.bytes (r : WeighingRecord) : List Byte :=
  int4 r.weight ++ num4 r.interval ++ num1 r.bridge.val ++ num1 (setBits r.decks) ++ num4 r.time ++ num4 r.calCounter ++
    num1 (flagBits [r.belowMin, r.zeroWaived])

/-- A ticket record, 70 bytes, of a body and the fields set at issue. -/
def TicketBody.bytes (b : TicketBody) (number issueTime calCounter : Nat) (timeUnset collected : Bool) : List Byte :=
  num4 number ++ num2 b.visit ++ wordBytes b.tag ++ num2 b.account ++ num1 b.stream.val ++ [b.direction.byte] ++
    int4 b.firstWeight ++ num4 b.firstInterval ++ num1 b.firstBridge.val ++ num4 b.firstTime ++ int4 b.secondValue ++
    num4 b.secondInterval ++ num4 b.secondTime ++ [b.source.byte] ++ unit1 b.secondBridge ++ int4 b.net ++
    num4 b.ticketInterval ++ num4 b.rate ++ num4 b.minCharge ++ num4 b.charge ++
    num1 (flagBits [b.provisional, b.belowMin, b.zeroWaived, timeUnset, collected]) ++ num4 issueTime ++ num4 calCounter

/-- The record of a ticket of the journal. -/
def Ticket.bytes (t : Ticket) : List Byte :=
  t.body.bytes t.number t.issueTime t.calCounter t.timeUnset t.collected

/-- The optional parts of a visit record, each only when it is present. -/
def present {α : Type} (f : α → List Byte) : Option α → List Byte
  | none => []
  | some x => f x

/-- A visit record; `place` is the pending ticket's place in the pending-ticket order. -/
def Visit.bytes (v : Visit) (place : Nat) : List Byte :=
  num2 v.number ++ wordBytes v.tag ++ num2 v.account ++ num1 v.stream.val ++ [v.state.byte] ++
    num1 (flagBits [v.provisional, v.storedTare, v.singlePass]) ++
    num1 (flagBits [v.first.isSome, v.pending.isSome, v.ticketNumber.isSome]) ++ num1 v.entryLane.val ++ num4 v.arrival ++
    unit1 v.currentLane ++ present WeighingRecord.bytes v.first ++ present num4 v.ticketNumber ++
    present (fun b => b.bytes 0 0 0 false false ++ num1 place) v.pending

/-! ### Entries of reads -/

def LaneConfig.bytes (k : LaneConfig) : List Byte :=
  [k.role.byte] ++ unit1 k.bridge ++ unit1 k.front ++ unit1 k.rear ++ optional 1 (fun a => num1 a.val) k.loop ++
    [k.fallback.byte]

def identityBytes (x : Option Identity) : List Byte := optional 5 (fun i => wordBytes i.tag ++ num1 i.stream.val) x

def ChannelEntry.bytes (e : ChannelEntry) : List Byte :=
  num1 e.channel.val ++ unit1 e.deck ++ flag1 e.lead ++ int4 e.zero ++ num4 e.span ++ flag1 e.calibrated ++
    optional 5 (fun x => int4 x.1 ++ [sampleStatusByte x.2]) e.sample ++ num2 e.age ++ optional 4 int4 e.weight ++
    [e.judgement.byte] ++ flag1 e.fault ++ flag1 e.stall

def MemberEntry.bytes (e : MemberEntry) : List Byte :=
  num1 e.deck.val ++ [e.condition.byte] ++ optional 4 int4 e.filtered

def BridgeEntry.bytes (e : BridgeEntry) : List Byte :=
  num1 e.bridge.val ++ flag1 e.calibrated ++ counted e.members MemberEntry.bytes ++ num2 e.interval ++ num4 e.maximum ++
    num2 e.zr ++ [e.state.byte] ++ optional 4 int4 e.gross ++ optional 4 int4 e.weight ++ num1 e.run ++ int4 e.z0 ++
    int4 e.zb ++ num1 e.backlog ++ flag1 e.urgent ++ num2 e.zeroTimer ++ flag1 e.waived ++ flag1 e.limit ++
    unit1 e.holder ++ num1 (setBits e.waiting) ++ optional 3 (fun c => num1 c.1.val ++ num2 c.2) e.capture

def BarrierEntry.bytes (e : BarrierEntry) : List Byte :=
  num1 e.barrier.val ++ [e.state.byte] ++ flag1 e.pendingLower ++ [e.reason.byte] ++ num2 e.reversals ++
    switch1 e.upActive ++ switch1 e.downActive ++ loop1 e.occupied ++ flag1 e.presence ++ flag1 e.fault ++
    num1 (setBits e.lanes)

def LoopEntry.bytes (e : LoopEntry) : List Byte :=
  num1 e.loop.val ++ loop1 e.occupied ++ flag1 e.presence ++ flag1 e.fault ++ num1 (setBits e.lanes)

def BeamEntry.bytes (e : BeamEntry) : List Byte :=
  num1 e.beam.val ++ num1 e.bridge.val ++ num1 e.side ++ flag1 e.broken

def LaneEntry.bytes (e : LaneEntry) : List Byte :=
  num1 e.lane.val ++ e.config.bytes ++ [e.state.byte] ++ identityBytes e.identity ++ optional 2 num2 e.visit ++
    [e.signal.byte] ++ shown1 e.idTimer ++ shown1 e.entryTimer ++ [e.frontMark.byte, e.rearMark.byte] ++
    flag1 e.entered ++ optional 1 num1 e.query ++ optional 1 (fun r => [r.byte]) e.lastReason

def SlotDetail.bytes (d : SlotDetail) : List Byte :=
  num1 d.number ++ wordBytes d.tag ++ num1 d.stream.val ++ shown1 d.deadline ++ flag1 d.noInstall ++
    flag1 d.answerHeld ++ optional 2 num2 d.provisional

def SlotEntry.bytes (e : SlotEntry) : List Byte := [e.state.byte] ++ present SlotDetail.bytes e.detail

def CacheItem.bytes (i : CacheItem) : List Byte :=
  num1 i.slot ++ wordBytes i.pfx ++ num1 i.length ++ num2 i.account ++ halfBytes i.streams ++ int4 i.credit ++
    flag1 i.stopped ++ flag1 i.storedTare ++ flag1 i.tareRefresh ++ num1 i.bucket

def RefusalEntry.bytes (r : RefusalEntry) : List Byte :=
  num1 r.record ++ wordBytes r.tag ++ num1 r.lane.val ++ [r.reason.byte] ++ num4 r.firstTime ++ num4 r.lastTime ++
    num1 r.repeats

def VisitSummary.bytes (v : VisitSummary) : List Byte :=
  num2 v.number ++ wordBytes v.tag ++ num2 v.account ++ num1 v.stream.val ++ [v.state.byte] ++ flag1 v.provisional ++
    flag1 v.storedTare ++ flag1 v.singlePass ++ unit1 v.currentLane

def TareEntry.bytes (e : TareEntry) : List Byte :=
  num1 e.record ++ wordBytes e.tare.tag ++ int4 e.tare.tare ++ num2 e.tare.interval ++ unit1 e.tare.bridge ++
    num4 e.tare.time ++ flag1 e.valid

def StatusReply.bytes (r : StatusReply) : List Byte :=
  num4 r.clock ++ flag1 r.clockUnset ++ strap1 r.laneHold ++ num1 r.reportCount ++ num1 r.requestCount ++ num1 r.visits ++
    num1 r.pendingTickets ++ num1 r.tickets ++ num1 r.uncollected ++ optional 4 num4 r.oldest ++ optional 4 num4 r.newest ++
    num4 r.ticketCounter ++ r.lanes.flatMap LaneEntry.bytes ++ r.slots.flatMap SlotEntry.bytes ++
    r.barriers.flatMap BarrierEntry.bytes ++ r.loops.flatMap LoopEntry.bytes ++ r.beams.flatMap BeamEntry.bytes

/-! ### Replies (R190) -/

/-- The outcome of an admission: its number in the order of R137 and R141, then the visit or the reason it carries. -/
def AdmitOutcome.bytes : AdmitOutcome → List Byte
  | .admitted n => [0] ++ optional 2 num2 (some n) ++ optional 1 num1 none
  | .siteFull   => [1] ++ optional 2 num2 none ++ optional 1 num1 none
  | .refused r  => [2] ++ optional 2 num2 none ++ optional 1 (fun x => [RefusalReason.byte x]) (some r)
  | .held       => [3] ++ optional 2 num2 none ++ optional 1 num1 none
  | .query _    => [1] ++ optional 2 num2 none ++ optional 1 num1 none

/-- The outcome of a TARE_WRITE, with the displaced tag and its time or zeros (R159). -/
def TarePlacement.bytes : TarePlacement → List Byte
  | .replacedSameTag   => [0] ++ optional 8 (fun (x : List Byte) => x) none
  | .new               => [1] ++ optional 8 (fun (x : List Byte) => x) none
  | .displaced tag time => [2] ++ optional 8 (fun (x : List Byte) => x) (some (wordBytes tag ++ num4 time))

/-- The identification (R194). -/
def identificationBytes : List Byte :=
  num2 0x0C47 ++ num2 0x3140 ++ num1 0x41 ++ [4, 4, 4, 16, 8, 16] ++ [48, 4, 8, 64, 128, 240, 4, 32] ++ num2 1024

/-- The contents of a reply after its status and link-flags bytes. -/
def ReplyBody.bytes : ReplyBody → List Byte
  | .empty => []
  | .identification => identificationBytes
  | .statusReply r => r.bytes
  | .resetAccepted => []
  | .laneConfig k st => k.bytes ++ [st.byte]
  | .bridgeTiming p t =>
    num1 p ++ num2 t.zeroInterval ++ num1 t.urgent ++ num1 t.hold ++ num1 t.empty ++ num1 t.captureTimeout
  | .stream e => num4 e.rate ++ num4 e.minCharge ++ [if e.enabled then 0 else 1]
  | .timers t =>
    num1 t.identity ++ num1 t.entry ++ num1 t.motion ++ num1 t.query ++ num1 t.aging ++ num2 t.tareDays ++
      num1 t.highWater
  | .deckMap map c => map.flatMap unit1 ++ num4 c
  | .cell ch z sp c => num1 ch.val ++ int4 z ++ num4 sp ++ num4 c
  | .bridgeCal k c =>
    counted k.members (fun d => num1 d.val) ++ num2 k.interval ++ num4 k.maximum ++ num1 k.filter ++ num1 k.window ++
      num4 k.band ++ num2 k.zr ++ num4 c
  | .referenceZero z0 c => int4 z0 ++ num4 c
  | .timeSet before unset => num4 before ++ flag1 unset
  | .arrival st v q r => [st.byte] ++ optional 2 num2 v ++ optional 1 num1 q ++ optional 1 (fun x => [Reason.byte x]) r
  | .laneState st => [st.byte]
  | .laneReleased st bs => [st.byte] ++ counted bs (fun b => num1 b.val)
  | .barrier e => e.bytes
  | .weights es => counted es BridgeEntry.bytes
  | .zeroTaken zb z0 d => int4 zb ++ int4 z0 ++ int4 d
  | .zeroWaived zb z0 n => int4 zb ++ int4 z0 ++ num1 n
  | .channels closed c p es => flag1 closed ++ num4 c ++ num1 p ++ counted es ChannelEntry.bytes
  | .stallsCleared cs => counted cs (fun c => num1 c.val)
  | .permitTimely o slot => o.bytes ++ optional 1 num1 slot
  | .permitLate slot v r => optional 1 num1 slot ++ optional 2 num2 v ++ optional 1 (fun x => [RefusalReason.byte x]) r
  | .invalidated code g n => [code, g.byte] ++ num1 n
  | .creditWritten a n => num2 a ++ num1 n
  | .cache secs items => num1 items.length ++ num1 secs ++ counted items CacheItem.bytes
  | .refusals o m p low rs =>
    flag1 o ++ flag1 m ++ flag1 p ++ optional 1 num1 low ++ counted rs RefusalEntry.bytes
  | .refusalsCleared n o => num1 n ++ flag1 o
  | .refusalMask m p => flag1 m ++ flag1 p
  | .visit v place => v.bytes (place.getD 0)
  | .visitList c vs => num1 vs.length ++ num2 c ++ counted vs VisitSummary.bytes
  | .visitCancelled n tag st l d => num2 n ++ wordBytes tag ++ [st.byte] ++ unit1 l ++ flag1 d
  | .tareWritten i p v => num1 i ++ p.bytes ++ flag1 v
  | .tareDeleted n => num1 n
  | .tareOfTag n days r => num1 n ++ num2 days ++ optional 17 TareEntry.bytes r
  | .tareList n days rs next => num1 n ++ num2 days ++ counted rs TareEntry.bytes ++ optional 1 num1 next
  | .ticket t => t.bytes
  | .collected m u o n => num1 m ++ num1 u ++ optional 4 num4 o ++ num1 n
  | .ticketBase c n => num4 c ++ num1 n

/-- The payload of a reply (R190). -/
def Reply.payload (r : Reply) : List Byte :=
  [r.status.byte, r.flags] ++ r.received.toList ++ r.body.bytes

/-! ### Reports -/

/-- The kind of a report (section 12.7). -/
def Report.kind : Report → Byte
  | .resetDone _ _ _ _ => 0x40
  | .laneState _ => 0x41
  | .barrierFault _ => 0x42
  | .captureDone _ => 0x43
  | .captureFailed _ => 0x44
  | .ticketIssued _ => 0x45
  | .journalHigh _ => 0x46
  | .journalFull _ => 0x47
  | .refusal _ _ _ => 0x48
  | .lateRefusal _ => 0x49
  | .zeroEvent _ => 0x4A
  | .channelStall _ _ _ _ => 0x4B
  | .channelFault _ _ _ _ => 0x4C
  | .takeoverGranted _ => 0x4D
  | .backupLost => 0x4E
  | .powerFail _ _ => 0x4F
  | .calChanged _ _ _ => 0x50

/-- The state of a lane visit after its treatment, 7 for REMOVED, absent without a visit (R96; DESIGN CHOICE, log
entry 7). -/
def takeoverAfter (visit : Option Nat) (after : Option VisitState) : List Byte :=
  match visit with
  | none => [1, 0]
  | some _ =>
    match after with
    | none => [0, 7]
    | some st => [0, st.byte]

/-- The payload of a report: its fields in the order of its rule. The fields that only one ZERO_EVENT carries follow in
that event without a form byte, and are left out of the others (R41, R189; DESIGN CHOICE, log entry 45). The five fields of
the record of a REFUSAL report stand under one form byte (R127, R189; DESIGN CHOICE, log entry 56). -/
def Report.payload : Report → List Byte
  | .resetDone cause kept hold c => [cause.byte] ++ [if kept then 0 else 1] ++ strap1 hold ++ num4 c
  | .laneState r =>
    num1 r.lane.val ++ [r.left.byte, r.entered.byte] ++ identityBytes r.identity ++ optional 2 num2 r.visit ++
      optional 1 (fun x => [Reason.byte x]) r.reason ++ num4 r.clock
  | .barrierFault r =>
    num1 r.barrier.val ++ [r.reason.byte, r.before.byte] ++ switch1 r.upActive ++ switch1 r.downActive ++ loop1 r.occupied ++
      num2 r.reversals ++ num1 (setBits r.lanes) ++ num4 r.clock
  | .captureDone r =>
    num1 r.bridge.val ++ num1 r.lane.val ++ num2 r.visit ++ num4 r.start ++ r.record.bytes
  | .captureFailed r =>
    num1 r.bridge.val ++ num1 r.lane.val ++ num2 r.visit ++ [r.reason.byte] ++ num4 r.start ++ num4 r.clock ++
      [r.state.byte] ++ optional 4 int4 r.gross ++ optional 4 int4 r.weight
  | .ticketIssued r =>
    num4 r.ticket.number ++ num2 r.ticket.body.visit ++ wordBytes r.ticket.body.tag ++ num2 r.ticket.body.account ++
      num1 r.ticket.body.stream.val ++ [r.ticket.body.direction.byte] ++ int4 r.ticket.body.net ++
      num2 r.ticket.body.ticketInterval ++ num4 r.ticket.body.charge ++ flag1 r.ticket.body.provisional ++
      flag1 r.ticket.body.belowMin ++ flag1 r.ticket.body.zeroWaived ++ flag1 r.ticket.timeUnset ++
      [r.ticket.body.source.byte] ++ unit1 r.currentLane ++ flag1 r.wasPending ++ num1 r.deducted ++
      optional 4 int4 r.credit ++ num4 r.ticket.issueTime
  | .journalHigh r => num1 r.uncollected ++ num1 r.mark ++ num4 r.oldest ++ num4 r.newest ++ num4 r.clock
  | .journalFull r => num4 r.oldest ++ num4 r.newest ++ num1 r.pending ++ num4 r.clock
  | .refusal item n o =>
    optional 11
      (fun i => num1 i.record ++ wordBytes i.tag ++ num1 i.lane.val ++ [RefusalReason.byte i.reason] ++ num4 i.time) item ++
      num1 n ++ flag1 o
  | .lateRefusal r =>
    num1 r.number ++ wordBytes r.tag ++ num1 r.lane.val ++ num2 r.visit ++ [r.state.byte] ++ num2 r.account ++
      [r.reason.byte] ++ num4 r.clock
  | .zeroEvent r =>
    num1 r.bridge.val ++ [r.event.byte] ++ int4 r.z0 ++ int4 r.zb ++ num1 r.backlog ++ flag1 r.waived ++ num4 r.clock ++
      present (fun x => int4 x ++ num4 (x - r.z0).natAbs) r.candidate ++ present int4 r.before
  | .channelStall ch d age c => num1 ch.val ++ unit1 d ++ num2 age ++ num4 c
  | .channelFault ch d n c => num1 ch.val ++ unit1 d ++ int4 n ++ num4 c
  | .takeoverGranted r =>
    num1 r.lane.val ++ [r.from_.byte] ++ optional 2 num2 r.visit ++ takeoverAfter r.visit r.after ++ flag1 r.cancelled ++
      num4 r.clock
  | .backupLost => []
  | .powerFail c n => num4 c ++ num1 n
  | .calChanged kind c item => [kind] ++ num4 c ++ optional 1 num1 item

/-! ### Frames (R186, section 12.8) -/

/-- The payload of a PERMIT_QUERY frame. -/
def QueryFrame.payload (q : QueryFrame) : List Byte := num1 q.number ++ wordBytes q.tag ++ num1 q.lane.val

/-- A frame around a kind and a payload: start byte, length, kind, payload, CRC. -/
def frameBytes (kind : Byte) (payload : List Byte) : List Byte :=
  let body := num2 (payload.length + 1) ++ [kind] ++ payload
  0x5A :: body ++ halfBytes (crcOf body)

/-- The bytes of a frame the part sends. -/
def TxFrame.bytes : TxFrame → List Byte
  | .reply r  => frameBytes r.kind r.payload
  | .busy r   => frameBytes r.kind r.payload
  | .query q  => frameBytes 0x60 q.payload
  | .report r => frameBytes r.kind r.payload

end Sys2Proof.Machine
end

