-- ==== Sys2Proof/Safety.lean ====
section
/-! DEFINITION. What the spec promises of the part at every moment, as properties of one state: the terms that statements
about runs use. -/

namespace Sys2Proof.Machine

/-- "A barrier's lower drive is never active while that barrier's safety loop is occupied or faulted" (R62). -/
def State.LowerSafe (s : State) : Prop :=
  ∀ b : BarrierNo, (s.barrier b).occupied = true → (s.barrier b).lowerDrive = false

/-- "The two drives are never active together" (R57). -/
def State.DrivesApart (s : State) : Prop :=
  ∀ b : BarrierNo, ((s.barrier b).raiseDrive && (s.barrier b).lowerDrive) = false

/-- "A bridge's working zero Zb always lies within Z0 ± zr·d of that bridge" (R26). -/
def State.ZeroHeld (s : State) : Prop :=
  ∀ b : BridgeNo, (s.bridgeCal b).zeroInRange (s.bridge b).zb = true

/-- "A bridge's zero backlog never exceeds 15" (R27), with the settings U that reset gives it (R33). -/
def State.BacklogHeld (s : State) : Prop :=
  ∀ b : BridgeNo, (s.bridge b).backlog ≤ 15 ∧ (s.timing b).urgent ≤ 15

/-- The limits of the link unit: a request queue of 0 to 4 frames, a BUSY list of 0 to 4 replies, a report queue of 0 to
32 reports (R188, R192). -/
def State.LinkHeld (s : State) : Prop :=
  s.link.queue.length ≤ 4 ∧ s.link.busy.length ≤ 4 ∧ s.link.reports.length ≤ 32

/-- The numbers run on from ticket to ticket, 4,294,967,295 going to 1 (R174). -/
def Consecutive : List Ticket → Prop
  | [] => True
  | [_] => True
  | a :: b :: rest => b.number = succSkipZero a.number ∧ Consecutive (b :: rest)

/-- The journal as R174 has it at every moment: at most 240 tickets, consecutive numbers from oldest to newest, the
ticket counter next after the newest, and the collected tickets a run from the oldest. -/
structure JournalStore.Sound (j : JournalStore) : Prop where
  size        : j.tickets.length ≤ 240
  consecutive : Consecutive j.tickets
  counter     : ∀ n, j.newest = some n → j.counter = succSkipZero n
  run         : j.tickets.Pairwise (fun a b => b.collected = true → a.collected = true)

/-- The ticket journal is sound (R174). -/
def State.JournalHeld (s : State) : Prop := s.ret.journal.Sound

/-- The visit table at every moment: 0 to 64 visits (R145), no number held by two of them (R146), no tag held by two of
them (R119). -/
structure VisitStore.Sound (t : VisitStore) : Prop where
  size    : t.records.length ≤ 64
  numbers : (t.records.map (·.number)).Nodup
  tags    : (t.records.map (·.tag)).Nodup

/-- The visit table is sound (R145). -/
def State.VisitsHeld (s : State) : Prop := s.ret.visits.Sound

/-- The stored check word of a running part agrees with its retained image (R181). -/
def State.Sealed (s : State) : Prop := s.powered = true → s.ret.intact = true

/-- The lane signal follows the lane state (R77): GREEN in PASSING, and in ENTERING until the entered mark is set; RED in
every other state. -/
def State.SignalsFollow (s : State) : Prop :=
  ∀ l : LaneNo, (s.lane l).signal = .green ↔
    (s.lane l).state = .passing ∨ ((s.lane l).state = .entering ∧ (s.lane l).entered = false)

/-- The admission unit at every moment: no two valid entries share prefix and length, the entries of one account hold one
credit and one STOPPED flag (R114), and no two refusal records hold one tag (R126). -/
structure Admission.Sound (a : Admission) : Prop where
  entries  : ∀ (i j : Fin 48) (p q : Permit), a.permit i = some p → a.permit j = some q → p.pfx = q.pfx →
    p.length = q.length → i = j
  accounts : ∀ (i j : Fin 48) (p q : Permit), a.permit i = some p → a.permit j = some q → p.account = q.account →
    p.credit = q.credit ∧ p.stopped = q.stopped
  records  : ∀ (i j : Fin 8) (r u : RefusalRecord), a.records.read i = some r → a.records.read j = some u →
    r.tag = u.tag → i = j

/-- The admission unit is sound (R114, R126). -/
def State.AdmissionHeld (s : State) : Prop := s.adm.Sound

/-- No two occupied tare records hold one tag (R157). -/
def TaresDistinct (t : Table 128 (Option Tare)) : Prop :=
  ∀ (i j : Fin 128) (x y : Tare), t.read i = some x → t.read j = some y → x.tag = y.tag → i = j

/-- The tare store is sound (R157). -/
def State.TaresHeld (s : State) : Prop := TaresDistinct s.ret.tares

/-- "A lane is in ADMITTING exactly when it has" an active query, and its query number "is the number of its ACTIVE slot, or
absent" (R132). -/
def State.QueriesHeld (s : State) : Prop :=
  ∀ l : LaneNo, ((s.lane l).state = .admitting ↔ (s.slot l).state = .active) ∧
    ∀ n : Nat, (s.lane l).query = some n ↔ (s.slot l).state = .active ∧ (s.slot l).number = n

/-- The SITE_FULL list: the lanes in SITE_FULL, each once (R153). A lane there or in ADMITTING holds an identity. -/
def State.SiteFullHeld (s : State) : Prop :=
  s.siteFull.Nodup ∧
    ∀ l : LaneNo, (l ∈ s.siteFull ↔ (s.lane l).state = .siteFull) ∧
      ((s.lane l).state = .siteFull ∨ (s.lane l).state = .admitting → (s.lane l).identity.isSome = true)

/-- A capture runs on the bridge of a lane that holds its grant, in WEIGHING or on its way to MANUAL (R43, R95). -/
def State.CapturesHeld (s : State) : Prop :=
  ∀ (b : BridgeNo) (k : Capture), (s.bridge b).capture = some k →
    (s.config k.lane).bridge = some b ∧ (s.grant b).holder = some k.lane ∧
      ((s.lane k.lane).state = .weighing ∨ (s.lane k.lane).state = .takeoverPending)

/-- In the running part a visit in WEIGHING_IN or WEIGHING_OUT has a capture, on the lane that serves it (R145). -/
def State.WeighingHeld (s : State) : Prop :=
  s.powered = true → ∀ v ∈ s.ret.visits.records, v.state = .weighingIn ∨ v.state = .weighingOut →
    ∃ (b : BridgeNo) (k : Capture), (s.bridge b).capture = some k ∧ k.visit = v.number ∧
      (s.lane k.lane).visit = some v.number

/-- No capture runs while the power-fail input is asserted (R43, R54). -/
def State.CapturesStopped (s : State) : Prop := s.failing = true → ∀ b : BridgeNo, (s.bridge b).capture = none

/-- No frame waits: no reply, no BUSY reply, no permit query and no report (R191). -/
structure Link.Quiet (k : Link) : Prop where
  current : k.current = none
  busy    : k.busy = []
  queries : ∀ l : LaneNo, k.queries.read l = none
  reports : k.reports = []

/-- The transmitter is never idle while a frame waits (R191). -/
def State.SendsWaiting (s : State) : Prop := s.link.sending = none → s.link.Quiet

/-- A step of the part answers a next state: it neither faults nor refuses. -/
def Proceeds (r : Result) : Prop := ∃ t, r = .next t

/-- The command resets the part: the reset input, or the end of the reply to RESET (R196, R197). -/
def State.resetsAt (s : State) : Instr → Bool
  | .resetInput _ => true
  | .transmitFrameEnd =>
    match s.link.sending with
    | some (.reply r) => r.body == .resetAccepted
    | _ => false
  | _ => false

/-- The bytes of a line received one after another. -/
def runBytes (f : Byte → Instr) : List Byte → State → Result
  | [], s => .next s
  | b :: rest, s =>
    match exec (f b) s with
    | .next t => runBytes f rest t
    | r => r

/-! ### What a command leaves as it was -/

/-- The reports not yet sent, in order: the one on the line, then the report queue. -/
def State.voiced (s : State) : List Report :=
  (match s.link.sending with
   | some (.report r) => [r]
   | _ => []) ++ s.link.reports

/-- The frame being sent is the one that R191 chooses of the frames that wait: the current reply and the BUSY replies, in
the order they were formed (`busyAhead` of the BUSY replies stand before the current reply), then the permit query of the
lowest lane, then the oldest report, which leaves the report queue. -/
structure State.Chose (t : State) : Prop where
  reply  : ∀ r : Reply, t.link.current = some r → (t.link.busy = [] ∨ t.link.busyAhead = 0) →
    t.link.sending = some (.reply r)
  ahead  : ∀ (r q : Reply) (rest : List Reply), t.link.current = some r → t.link.busy = q :: rest → 0 < t.link.busyAhead →
    t.link.sending = some (.busy q)
  busy   : ∀ (q : Reply) (rest : List Reply), t.link.current = none → t.link.busy = q :: rest →
    t.link.sending = some (.busy q)
  query  : t.link.current = none → t.link.busy = [] → ∀ (l : LaneNo) (q : QueryFrame), t.link.queries.read l = some q →
    (∀ m : LaneNo, m < l → t.link.queries.read m = none) → t.link.sending = some (.query q)
  report : t.link.current = none → t.link.busy = [] → (∀ l : LaneNo, t.link.queries.read l = none) →
    ∀ (r : Report) (rest : List Report), t.voiced = r :: rest →
      t.link.sending = some (.report r) ∧ t.link.reports = rest
  idle   : t.link.current = none → t.link.busy = [] → (∀ l : LaneNo, t.link.queries.read l = none) → t.voiced = [] →
    t.link.sending = none

/-- The parts of State. What the transmitter is sending is not one of them, but for the report on the line, which stands
among the reports: an idle transmitter chooses at the end of every event (R191). -/
inductive Part
  | pending | powered | journal | visits | tares | site | cal | calCounter | clock | checkWord | pins | channels
  | metrology | decks | bridges | grants | barriers | loops | beams | lanes | cache | queries | refusals | siteFull
  | marks | powerFail | strap | receiver | requests | reply | busy | queryFrames | reports | evaluations
  deriving DecidableEq, Repr

/-- One part is the same in two states. -/
def Part.same (s t : State) : Part → Prop
  | .pending     => t.pending = s.pending
  | .powered     => t.powered = s.powered
  | .journal     => t.ret.journal = s.ret.journal
  | .visits      => t.ret.visits = s.ret.visits
  | .tares       => t.ret.tares = s.ret.tares
  | .site        => t.ret.site = s.ret.site
  | .cal         => t.ret.cal = s.ret.cal
  | .calCounter  => t.ret.calCounter = s.ret.calCounter
  | .clock       => t.ret.clock = s.ret.clock ∧ t.ret.clockUnset = s.ret.clockUnset
  | .checkWord   => t.ret.checkWord = s.ret.checkWord
  | .pins        => t.pins = s.pins
  | .channels    => t.channels = s.channels
  | .metrology   => t.metrology = s.metrology
  | .decks       => t.decks = s.decks
  | .bridges     => t.bridges = s.bridges
  | .grants      => t.grants = s.grants
  | .barriers    => t.barriers = s.barriers
  | .loops       => t.loops = s.loops
  | .beams       => t.beams = s.beams
  | .lanes       => t.lanes = s.lanes
  | .cache       => t.adm.cache = s.adm.cache ∧ t.adm.agingTimer = s.adm.agingTimer
  | .queries     => t.adm.slots = s.adm.slots ∧ t.adm.queryCounter = s.adm.queryCounter
  | .refusals    =>
    t.adm.records = s.adm.records ∧ t.adm.overflow = s.adm.overflow ∧ t.adm.mask = s.adm.mask ∧
      t.adm.reportPending = s.adm.reportPending
  | .siteFull    => t.siteFull = s.siteFull
  | .marks       => t.marks = s.marks
  | .powerFail   => t.powerFail = s.powerFail
  | .strap       => t.laneHold = s.laneHold
  | .receiver    => t.link.receiver = s.link.receiver
  | .requests    => t.link.queue = s.link.queue
  | .reply       => t.link.current = s.link.current ∧ t.link.busyAhead = s.link.busyAhead
  | .busy        => t.link.busy = s.link.busy
  | .queryFrames => t.link.queries = s.link.queries
  | .reports     => t.voiced = s.voiced ∧ t.link.reportsLost = s.link.reportsLost
  | .evaluations => t.evaluations = s.evaluations

/-- Every part but those listed is the same in two states. -/
def SameBut (changed : List Part) (s t : State) : Prop := ∀ p : Part, p ∉ changed → p.same s t

/-! ### The setting of a statement -/

/-- The lane is alone at work: every other lane is in MANUAL with no ACTIVE query, and no lane waits for a bridge, for a
record of the visit table or for its ticket. -/
structure State.OnlyLane (s : State) (l : LaneNo) : Prop where
  others : ∀ m : LaneNo, m ≠ l → (s.lane m).state = .manual ∧ (s.slot m).state ≠ .active
  grants : ∀ b : BridgeNo, (s.grant b).waiting = []
  order  : s.ret.visits.order = []
  list   : s.siteFull = []

/-- No lane of the bridge is in a state that an evaluation can end: ENTERING, LEAVING, BACKING_OUT or PASSING (R78). -/
def State.NoCrossing (s : State) (b : BridgeNo) : Prop :=
  ∀ l ∈ s.listing b, (s.lane l).state ≠ .entering ∧ (s.lane l).state ≠ .leaving ∧ (s.lane l).state ≠ .backingOut ∧
    (s.lane l).state ≠ .passing

/-- An OK sample of the lead channel of a deck of the bridge arrives: `u` is the state with the sample and the deck's new
value, before the bridge is evaluated (R3, R17, R21). -/
structure State.EvaluatedBy (s u : State) (c : ChannelNo) (counts : BitVec 24) (d : DeckNo) (b : BridgeNo) : Prop where
  powered : s.powered = true
  deck    : s.deckOf c = some d
  lead    : s.leadOf d = some c
  bridge  : s.bridgeOfDeck d = some b
  arrived : u = (s.onChannel c (fun x => x.arrived counts.toInt .ok s.stallTime)).deckArrival d

/-- The sample completes the capture of a lane: R45's conditions hold at the evaluation it makes, with the weight `w`, and
the lane, its visit and its two barriers stand as they do while it weighs. -/
structure State.CompletesCapture (s u : State) (c : ChannelNo) (counts : BitVec 24) (d : DeckNo) (b : BridgeNo)
    (l : LaneNo) (k : Capture) (v : Visit) (r : BarrierNo) (w : Int) : Prop extends s.EvaluatedBy u c counts d b where
  failing : s.failing = false
  capture : (s.bridge b).capture = some k
  lane    : k.lane = l
  holder  : (s.grant b).holder = some l
  state   : (s.lane l).state = .weighing
  serves  : (s.lane l).visit = some k.visit
  visit   : s.visitOf k.visit = some v
  front   : ∃ f : BarrierNo, (s.config l).front = some f ∧ (s.barrier f).state = .down
  rear    : (s.config l).rear = some r
  others  : ∀ m ∈ s.listing b, m ≠ l → (s.lane m).state = .awaitBridge ∨ (s.lane m).state = .idle
  waiting : ∀ m : LaneNo, (s.lane m).state = .ticketWait → (s.lane m).visit ≠ some k.visit
  beams   : (s.beam ⟨2 * b.val, by omega⟩).broken = false ∧ (s.beam ⟨2 * b.val + 1, by omega⟩).broken = false
  stable  : (u.evaluation b).state = .stable
  held    : (s.timing b).hold ≤ (u.evaluation b).run
  weight  : (u.evaluation b).weight = some w

/-- The bridge can be granted to one of its waiting lanes: the metrology switch is OPEN (R10, R109; log entry 55), no lane
holds the bridge, its backlog is below U, it is STABLE or in MOTION, and it is empty (R104). -/
structure State.Grantable (s : State) (b : BridgeNo) : Prop where
  switch : s.metrology.closed = false
  free   : (s.grant b).holder = none
  urgent : (s.bridge b).backlog < (s.timing b).urgent
  state  : (s.bridge b).state = .stable ∨ (s.bridge b).state = .motion
  empty  : ∃ g : Int, (s.bridge b).gross = some g ∧ g.natAbs ≤ (s.timing b).empty * (s.bridgeCal b).interval

/-- The waiting lane that a grant decision chooses (R105): the only one, else the one that was not granted last, else the
lower-numbered. The waiting lanes stand in the order of their numbers. -/
def Grant.Chooses (g : Grant) (l : LaneNo) : Prop :=
  g.waiting = [l] ∨ (∃ m : LaneNo, g.waiting = [l, m] ∧ g.last ≠ some l) ∨
    ∃ m : LaneNo, g.waiting = [m, l] ∧ g.last = some m

/-- The lane has been granted its bridge and waits for a vehicle to enter (R85, R105, R106): its front barrier `f` is
raised, its signal is GREEN, its entry timer runs; no other lane and no other barrier has changed. -/
def EntersByGrant (s t : State) (b : BridgeNo) (l : LaneNo) (f : BarrierNo) : Prop :=
  t.grant b = { holder := some l, waiting := (s.grant b).waiting.filter (· ≠ l), last := some l } ∧
    t.lane l =
      { s.lane l with
        state := .entering, signal := .green, entered := false, entryTimer := .running (s.timers.entry * 1000),
        frontMark := if (s.barrier f).occupied then .seen else .none } ∧
    t.barrier f = (s.barrier f).raise s.motionTime ∧ (∀ o : BarrierNo, o ≠ f → t.barrier o = s.barrier o) ∧
    (∀ m : LaneNo, m ≠ l → t.lane m = s.lane m) ∧ ∀ o : BridgeNo, o ≠ b → t.grant o = s.grant o

/-- The lane states in which a lane watches the safety loops of its barriers: all but LANE_FAULT, TAKEOVER_PENDING and
MANUAL (R78; the model's choice, log entry 18). -/
def WatchesMarks (st : LaneState) : Prop := st ≠ .laneFault ∧ st ≠ .takeoverPending ∧ st ≠ .manual

/-- A change of a barrier's safety loop moves the crossing marks of a lane that watches it: a front or rear mark of that
barrier at `before` goes to `after`, any other stays (R78). A lane that does not watch keeps its marks. -/
def MarksMove (s t : State) (b : BarrierNo) (before after : CrossingMark) (l : LaneNo) : Prop :=
  (WatchesMarks (s.lane l).state →
    t.lane l =
      { s.lane l with
        frontMark :=
          if (s.config l).front = some b ∧ (s.lane l).frontMark = before then after else (s.lane l).frontMark,
        rearMark :=
          if (s.config l).rear = some b ∧ (s.lane l).rearMark = before then after else (s.lane l).rearMark }) ∧
  (¬ WatchesMarks (s.lane l).state → t.lane l = s.lane l)

/-- The cell weight of the latest sample of a channel by R6, 0 without one. -/
def State.cellWeightNow (s : State) (c : ChannelNo) : Int :=
  match (s.channel c).sample with
  | none => 0
  | some x => roundDiv ((x.counts - (s.channelCal c).zero) * (s.channelCal c).span) 65536

/-- A channel without a usable sample: none, one older than 2P, or the fault flag set (STALE or FAULTED by R7), or one that
is awaited since its deck's set of channels changed (R9). -/
def State.StaleAt (s : State) (c : ChannelNo) : Prop :=
  (s.channel c).sample = none ∨ 2 * s.period < (s.channel c).age ∨ (s.channel c).fault = true ∨
    (s.channel c).awaited = true

/-- A channel whose latest sample has the status OVERRANGE, or a cell weight outside the weight range (OVER by R7). -/
def State.OverAt (s : State) (c : ChannelNo) : Prop :=
  (∃ n : Int, (s.channel c).sample = some { counts := n, status := .overrange }) ∨ s.cellWeightNow c < -2147483648 ∨
    2147483647 < s.cellWeightNow c

/-- A setting given as `x` is taken as `y`: as given inside its range, else as the nearest end of the range (R193). -/
def NearestIn (lo hi x y : Nat) : Prop :=
  (x < lo → y = lo) ∧ (lo ≤ x → x ≤ hi → y = x) ∧ (hi < x → y = hi)

/-- The intervals d may take, in grams (R34). -/
def SixIntervals (d : Nat) : Prop := d = 1000 ∨ d = 2000 ∨ d = 5000 ∨ d = 10000 ∨ d = 20000 ∨ d = 50000

/-- The member list that two deck bytes give: each a deck number or none, no deck twice (R34, R189). -/
def ListedDecks (first second : Byte) (members : List DeckNo) : Prop :=
  (first = 0xFF ∧ second = 0xFF ∧ members = []) ∨
  (∃ d : DeckNo, first.toNat = d.val ∧ second = 0xFF ∧ members = [d]) ∨
  (∃ d : DeckNo, first = 0xFF ∧ second.toNat = d.val ∧ members = [d]) ∨
  (∃ d e : DeckNo, first.toNat = d.val ∧ second.toNat = e.val ∧ d ≠ e ∧ members = [d, e])

/-- The slot that an installation uses (R122): the one of the same prefix and length, else the lowest free one, else, of
the entries in the lowest bucket, the one in the lowest slot. -/
structure InstallsAt (s : State) (pfx : Word) (length : Nat) (j : Fin 48) : Prop where
  same   : (∃ (i : Fin 48) (r : Permit), s.adm.permit i = some r ∧ r.pfx = pfx ∧ r.length = length) →
    ∃ r : Permit, s.adm.permit j = some r ∧ r.pfx = pfx ∧ r.length = length
  free   : (∀ (i : Fin 48) (r : Permit), s.adm.permit i = some r → r.pfx ≠ pfx ∨ r.length ≠ length) →
    (∃ i : Fin 48, s.adm.permit i = none) → s.adm.permit j = none ∧ ∀ i : Fin 48, s.adm.permit i = none → j ≤ i
  victim : (∀ i : Fin 48, ∃ r : Permit, s.adm.permit i = some r ∧ (r.pfx ≠ pfx ∨ r.length ≠ length)) →
    ∃ v : Permit, s.adm.permit j = some v ∧ ∀ (i : Fin 48) (r : Permit), s.adm.permit i = some r →
      v.bucket ≤ r.bucket ∧ (r.bucket = v.bucket → j ≤ i)

/-- The entry of an answer has been taken into the cache: into the slot of R122, which the answer names, whole, with its
prefix bits beyond its length at 0 and with bucket 3, its standing copied into every other entry of its account, and every
other entry else as it was; or, for a query marked no-install, nowhere (R122, R137, R142). -/
def EntryTaken (s t : State) (p : Permit) (noInstall : Bool) (slot : Option Nat) : Prop :=
  t.adm.agingTimer = s.adm.agingTimer ∧
  (noInstall = true → slot = none ∧ t.adm.cache = s.adm.cache) ∧
  (noInstall = false →
    ∃ (j : Fin 48) (q : Permit), slot = some j.val ∧ InstallsAt s q.pfx p.length j ∧ t.adm.permit j = some q ∧
      q = { p with pfx := q.pfx, bucket := 3 } ∧
      (∀ k : Nat, q.pfx.getMsbD k = (decide (k < p.length) && p.pfx.getMsbD k)) ∧
      ∀ i : Fin 48, i ≠ j → t.adm.permit i = (s.adm.permit i).map (fun r =>
        if r.account = p.account then { r with credit := p.credit, stopped := p.stopped } else r))

/-! ### Requests -/

/-- The part runs and takes a request at its arrival: no current reply and an empty request queue (R188). -/
def State.Ready (s : State) : Prop := s.powered = true ∧ s.link.current = none ∧ s.link.queue = []

/-- The current reply: to a frame of a kind, with a status, the link-flags byte and contents (R189, R190). -/
def State.Answers (t : State) (kind : Byte) (status : Status) (body : ReplyBody) : Prop :=
  t.link.current = some (replyTo kind status t.linkFlags body)

/-- The request was answered with a status alone, and nothing but the link unit's receiver and reply changed. -/
def Turned (s t : State) (kind : Byte) (status : Status) : Prop :=
  t.Answers kind status .empty ∧ SameBut [.receiver, .reply] s t

end Sys2Proof.Machine
end

