-- ==== Sys2Proof/WellFormed.lean ====
section
/-! DEFINITION. The form of a command: what R189 fixes of a request's fields beyond their widths, and the length limit of a
received frame (R186). A command that is not well formed still has its meaning: the machine refuses no command. -/

namespace Sys2Proof

/-- The number of a selector is sent as 0 with a named value (R189). -/
def Selector.wellFormed (x : Selector) : Bool := x.form == 0 || x.number == 0

/-- The answer byte and the payload's length suit each other: an ENTRY answer has its entry, an UNKNOWN_TAG answer has none
(section 12.8). -/
def PermitAnswerFields.wellFormed (f : PermitAnswerFields) : Bool :=
  (f.answer == 0 && f.entry.isSome) || (f.answer == 1 && f.entry.isNone) || decide (2 ≤ f.answer.toNat)

/-- The operand of a visit selector: two low-order bytes for NUMBER, 0 for ALL (R189). -/
def visitOperandWellFormed (kind : Byte) (operand : Word) : Bool :=
  if kind = 0 then decide (operand.toNat < 65536) else if kind = 2 then operand == 0 else true

/-- The operand of a tare selector: one low-order byte for FROM (R189). -/
def tareOperandWellFormed (kind : Byte) (operand : Word) : Bool :=
  if kind = 1 then decide (operand.toNat < 256) else true

/-- The well-formed commands. -/
def Instr.wellFormed : Instr → Bool
  | .configLane f => f.loop.wellFormed
  | .calBridge f => f.zrForm == 0 || f.zr == 0
  | .weightRead x => x.wellFormed
  | .channelRead x => x.wellFormed
  | .channelClear x => x.wellFormed
  | .permitAnswer f => f.wellFormed
  | .visitRead kind operand => visitOperandWellFormed kind operand
  | .visitCancel kind operand => visitOperandWellFormed kind operand
  | .tareRead kind operand => tareOperandWellFormed kind operand
  | .hostFrameReceived _ payload => decide (payload.length ≤ 1023)
  | .identify | .statusRead | .reset | .configBridgeTiming _ | .configStream _ | .configTimers _ | .calDeckMap _
  | .calCell _ | .calReferenceZero _ | .timeSet _ | .arrival _ _ _ | .laneTakeover _ | .laneRelease _ | .laneRetry _
  | .laneBackout _ | .barrierCommand _ _ _ | .barrierReset _ | .zeroNow _ | .zeroWaive _ | .invalidate _ _ _
  | .creditSet _ _ _ | .cacheRead | .refusalRead | .refusalClear _ _ | .refusalMask _ | .tareWrite _ | .tareDelete _
  | .ticketRead _ | .ticketCollect _ | .ticketBase _ | .hostFrameGapTimeout | .transmitFrameEnd | .sampleArrival _ _ _
  | .cellFrameGapTimeout _ | .stallTimerExpiry _ | .freshnessExpiry _ | .zeroTimerExpiry _ | .captureDeadlineExpiry _
  | .motionTimerExpiry _ | .identityTimerExpiry _ | .entryTimerExpiry _ | .agingTimerExpiry | .queryDeadlineExpiry _
  | .clockTick | .metrologyInputChange _ | .metrologySwitchChange | .endSwitchInputChange _ _ _ | .endSwitchChange _ _
  | .safetyLoopOccupied _ _ | .safetyLoopInputInactive _ | .safetyLoopClear _ | .approachLoopOccupied _ _
  | .approachLoopInputInactive _ | .approachLoopClear _ | .beamBroken _ | .beamInputClear _ | .beamClear _
  | .powerFailAssert | .powerFailInputInactive | .powerFailDeassert | .resetInput _ | .loadCellByteReceived _ _ _
  | .hostLinkByteReceived _ _ | .mainPowerLoss | .backupSupplyFailure => true

end Sys2Proof
end

