-- ==== Sys2Proof/Certificates/Slice0/Obligations.lean ====
section
/-! DEFINITION. The statements for the provers: what the spec says the part does, command by command, and what every step
keeps. Each docstring names the rules it formalises. -/

open Sys2Proof Sys2Proof.Machine

/-! ### The machine -/

/-- A step takes the command at the front of the queue and runs it on the state with the queue's rest. -/
def Obligations.StepRunsTheFrontCommand : Prop :=
  ∀ (c : Instr) (s : State), step { s with pending := c :: s.pending } = exec c s

/-- No command ever stops the part: every command answers a next state in every state. -/
def Obligations.EveryCommandProceeds : Prop :=
  ∀ (c : Instr) (s : State), Proceeds (exec c s)

/-- On an empty queue a millisecond passes (the model's choice, log entry 10): with main power on, every sample age
rises by 1 and stops at 65,535 (R3), every running timer (R4, R20, R27, R50, R64, R79, R85, R116, R140) and filter (R10,
R58, R59, R69, R70, R182) counts down by 1, one at 0 staying there for its expiry command, and nothing else changes;
with main power off nothing does. -/
def Obligations.EmptyQueueLetsTimePass : Prop :=
  ∀ s : State, s.pending = [] →
    ∃ t, step s = .next t ∧ (s.powered = false → t = s) ∧
      (s.powered = true →
        (∀ c : ChannelNo,
          ((s.channel c).age < 65535 →
            t.channel c =
              { s.channel c with
                age := (s.channel c).age + 1, stallTimer := (s.channel c).stallTimer.map (· - 1) }) ∧
          (65535 ≤ (s.channel c).age →
            t.channel c = { s.channel c with stallTimer := (s.channel c).stallTimer.map (· - 1) })) ∧
        t.metrology = { s.metrology with hold := s.metrology.hold.map (· - 1) } ∧
        (∀ d : DeckNo, t.deck d = { s.deck d with freshness := (s.deck d).freshness.map (· - 1) }) ∧
        (∀ b : BridgeNo,
          t.bridge b =
            { s.bridge b with
              zeroTimer := (s.bridge b).zeroTimer - 1,
              capture := (s.bridge b).capture.map (fun k => { k with deadline := k.deadline - 1 }) }) ∧
        (∀ b : BarrierNo,
          t.barrier b =
            { s.barrier b with
              motionTimer := (s.barrier b).motionTimer.map (· - 1), upFilter := (s.barrier b).upFilter.map (· - 1),
              downFilter := (s.barrier b).downFilter.map (· - 1),
              clearFilter := (s.barrier b).clearFilter.map (· - 1) }) ∧
        (∀ a : LoopNo, t.loop a = { s.loop a with clearFilter := (s.loop a).clearFilter.map (· - 1) }) ∧
        (∀ m : BeamNo, t.beam m = { s.beam m with clearFilter := (s.beam m).clearFilter.map (· - 1) }) ∧
        (∀ l : LaneNo,
          t.lane l =
            { s.lane l with identityTimer := (t.lane l).identityTimer, entryTimer := (t.lane l).entryTimer } ∧
          (∀ left : Nat, (s.lane l).identityTimer = .running left → (t.lane l).identityTimer = .running (left - 1)) ∧
          ((∀ left : Nat, (s.lane l).identityTimer ≠ .running left) →
            (t.lane l).identityTimer = (s.lane l).identityTimer) ∧
          (∀ left : Nat, (s.lane l).entryTimer = .running left → (t.lane l).entryTimer = .running (left - 1)) ∧
          ((∀ left : Nat, (s.lane l).entryTimer ≠ .running left) → (t.lane l).entryTimer = (s.lane l).entryTimer)) ∧
        (∀ l : LaneNo,
          t.slot l = { s.slot l with deadline := (t.slot l).deadline } ∧
          (∀ left : Nat, (s.slot l).deadline = .running left → (t.slot l).deadline = .running (left - 1)) ∧
          ((∀ left : Nat, (s.slot l).deadline ≠ .running left) → (t.slot l).deadline = (s.slot l).deadline)) ∧
        t.adm.queryCounter = s.adm.queryCounter ∧ t.adm.cache = s.adm.cache ∧
        t.adm.agingTimer = s.adm.agingTimer - 1 ∧
        t.powerFail = { s.powerFail with filter := s.powerFail.filter.map (· - 1) } ∧
        SameBut [.channels, .metrology, .decks, .bridges, .barriers, .loops, .beams, .lanes, .cache, .queries, .powerFail]
          s t)

/-- R16, R38, R56, R58, R59, R72, R100, R111, R116, R131, R133, R144, R197: a reset leaves no current reply, empty
queues, an empty cache, FREE query slots, query counter 1, no refusal record, no capture, no grant, Zb at Z0, the
backlog at U, bridges NOT_READY with a full zero interval, decks STALE or NO_CHANNELS with no F and no timer, a full
aging interval, lanes without marks, an identity timer in AWAIT_ID alone, no sample; barriers, loops, beams and lanes
start as the inputs show them. R156, R183: where the check word agrees the retained contents are kept: the journal, the
pending-ticket order, the visit counter and the ticketing-held flag stay where no ticket can issue, the visits are
repaired by their states, and one pending ticket that can issue does; else the contents are lost. The start-up reports
stand in the order of R197. R184: a reset whose check word disagrees gives the part as State.reset has it when the yard
is at rest (log entry 3). The model's choices: RESET_INPUT carries the strap and acts also with main power off (log
entry 22), input levels at rest (log entry 3), the model's counter of evaluations runs on over a reset (log entry 40).
-/
def Obligations.ResetStartsAfresh : Prop :=
  (∀ (h : Bool) (s : State),
    ∃ t, exec (.resetInput h) s = .next t ∧ t.powered = true ∧ t.laneHold = h ∧ t.link.receiver = .hunting ∧
      t.link.queue = [] ∧ t.link.current = none ∧ t.link.busy = [] ∧
      (∀ i : Fin 48, t.adm.permit i = none) ∧ (∀ l : LaneNo, (t.slot l).state = .free) ∧ t.adm.queryCounter = 1 ∧
      (∀ i : Fin 8, t.adm.records.read i = none) ∧ t.adm.overflow = false ∧ t.adm.mask = false ∧
      t.adm.reportPending = false ∧ t.siteFull = [] ∧
      (∀ b : BridgeNo, (t.bridge b).capture = none ∧ (t.bridge b).zb = (t.bridgeCal b).z0 ∧
        (t.bridge b).backlog = (t.timing b).urgent ∧ (t.bridge b).state = .notReady ∧ (t.bridge b).waived = false ∧
        (t.bridge b).limitReported = false ∧ (t.bridge b).zeroTimer = (t.timing b).zeroInterval * 1000 ∧
        (t.bridge b).window = [] ∧ (t.bridge b).sum = none ∧ (t.bridge b).gross = none ∧ (t.bridge b).weight = none ∧
        (t.bridge b).run = 0 ∧ (t.bridge b).underlying = false ∧
        t.grant b = { holder := none, waiting := [], last := none }) ∧
      (∀ d : DeckNo, (t.deck d).history = [] ∧ (t.deck d).filtered = none ∧ (t.deck d).freshness = none ∧
        ((∃ c : ChannelNo, t.deckOf c = some d) → (t.deck d).condition = .stale) ∧
        ((∀ c : ChannelNo, t.deckOf c ≠ some d) → (t.deck d).condition = .noChannels)) ∧
      t.adm.agingTimer = t.timers.aging * 1000 ∧
      (∀ c : ChannelNo, (t.channel c).sample = none ∧ (t.channel c).age = 65535 ∧ (t.channel c).fault = false ∧
        (t.channel c).stall = false ∧ (t.channel c).awaited = false ∧ (t.channel c).receiver = .hunting ∧
        (t.channel c).stallTimer = if (t.deckOf c).isSome then some (4 * t.period) else none) ∧
      (∀ l : LaneNo, t.lane l =
          { state := (t.lane l).state, identity := none, visit := none,
            identityTimer :=
              if (t.lane l).state = .awaitId then .running (t.timers.identity * 1000) else .stopped,
            entryTimer := .stopped, frontMark := .none, rearMark := .none, entered := false, signal := .red,
            query := none, lastReason := none, takeoverFrom := none } ∧
        (h = true → (t.lane l).state = .manual)) ∧
      (s.ret.intact = false → t.ret = Retained.lost) ∧
      (s.ret.intact = true → t.ret.cal = s.ret.cal ∧ t.ret.site = s.ret.site ∧ t.ret.tares = s.ret.tares ∧
        t.ret.clock = s.ret.clock ∧ t.ret.clockUnset = s.ret.clockUnset ∧ t.ret.calCounter = s.ret.calCounter ∧
        t.ret.visits.counter = s.ret.visits.counter ∧ t.ret.journal.held = s.ret.journal.held) ∧
      t.pins = { s.pins with laneHold := h } ∧ t.pending = s.pending ∧ t.evaluations = s.evaluations ∧
      t.metrology = { closed := s.pins.metrologyClosed, hold := none } ∧
      t.powerFail = { asserted := s.pins.powerFail, filter := none } ∧
      (∀ l : LaneNo, t.link.queries.read l = none) ∧
      (∀ b : BarrierNo, (t.barrier b).upActive = s.pins.upSwitch.read b ∧
        (t.barrier b).downActive = s.pins.downSwitch.read b ∧
        (t.barrier b).occupied = (s.pins.safetyPresence.read b || s.pins.safetyFault.read b) ∧
        (t.barrier b).pendingLower = false ∧ (t.barrier b).reversals = 0 ∧ (t.barrier b).clearFilter = none ∧
        (t.barrier b).state =
          (if s.pins.upSwitch.read b = s.pins.downSwitch.read b then .fault
           else if s.pins.upSwitch.read b then .up else .down)) ∧
      (∀ a : LoopNo,
        t.loop a =
          { occupied := s.pins.approachPresence.read a || s.pins.approachFault.read a, clearFilter := none }) ∧
      (∀ m : BeamNo, t.beam m = { broken := !s.pins.beamLight.read m, clearFilter := none }) ∧
      (h = false → ∀ l : LaneNo,
        ((∃ b : BarrierNo, ((t.config l).front = some b ∨ (t.config l).rear = some b) ∧ (t.barrier b).state = .fault) →
          (t.lane l).state = .laneFault) ∧
        ((∀ b : BarrierNo, ((t.config l).front = some b ∨ (t.config l).rear = some b) → (t.barrier b).state ≠ .fault) →
          (t.lane l).state =
            if (t.config l).role ≠ .none ∧ t.approachOccupied l = true then .awaitId else .idle)) ∧
      ((s.ret.intact = false ∨ s.ret.visits.order = [] ∨ s.ret.journal.held = true ∨ s.pins.powerFail = true) →
        (s.ret.intact = true → t.ret.journal = s.ret.journal ∧ t.ret.visits.order = s.ret.visits.order ∧
          t.ret.visits.records = s.ret.visits.records.filterMap Visit.repaired) ∧
        t.voiced =
          [.resetDone .input s.ret.intact h t.ret.calCounter] ++ (if s.ret.intact then [] else [.backupLost]) ++
            (if s.pins.powerFail then [.powerFail t.ret.clock 0] else []) ++
            (allEight.filter (fun b => (t.barrier b).state == .fault)).map (fun b =>
              .barrierFault
                { barrier := b, reason := (t.barrier b).reason, before := .fault, upActive := (t.barrier b).upActive,
                  downActive := (t.barrier b).downActive, occupied := (t.barrier b).occupied, reversals := 0,
                  lanes := t.lanesNaming b, clock := t.ret.clock }) ++
            (if t.timers.highWater ≤ t.ret.journal.uncollected then
              [.journalHigh
                { uncollected := t.ret.journal.uncollected, mark := t.timers.highWater,
                  oldest := t.ret.journal.oldestUncollected.getD 0, newest := t.ret.journal.newest.getD 0,
                  clock := t.ret.clock }]
             else []) ∧
        t.link.reportsLost = false) ∧
      (∀ (m : Nat) (v : Visit) (body : TicketBody), s.ret.intact = true → s.pins.powerFail = false →
        s.ret.journal.held = false → s.ret.journal.tickets.length < 240 → s.ret.visits.order = [m] →
        s.visitOf m = some v → v.state = .ticketPending → v.pending = some body →
        t.ret.visits.order = [] ∧
          t.ret.journal =
            { tickets := s.ret.journal.tickets ++
                [{ body := body, number := s.ret.journal.counter, timeUnset := s.ret.clockUnset,
                   issueTime := s.ret.clock, calCounter := s.ret.calCounter, collected := false }],
              counter := succSkipZero s.ret.journal.counter, held := false } ∧
          t.visitOf m =
            some { v with
                   state := .ticketed, currentLane := none, pending := none,
                   ticketNumber := some s.ret.journal.counter })) ∧
  (∀ v : Visit,
    (v.state = .admitted ∨ v.state = .weighingIn → v.repaired = none) ∧
    (v.state = .weighingOut → v.repaired = some { v with state := .onSite, currentLane := none }) ∧
    (v.state = .exiting → v.repaired = some { v with state := .ticketed, currentLane := none }) ∧
    (v.state = .onSite ∨ v.state = .ticketPending ∨ v.state = .ticketed →
      v.repaired = some { v with currentLane := none })) ∧
  (∀ s : State, s.ret.intact = false → s.pins = Pins.atRest →
    exec (.resetInput false) s = .next { State.reset with pending := s.pending, evaluations := s.evaluations })

/-! ### What every step keeps -/

/-- What every step keeps holds right after reset. -/
def Obligations.ResetStateIsSound : Prop :=
  State.reset.LowerSafe ∧ State.reset.ZeroHeld ∧ State.reset.BacklogHeld ∧ State.reset.LinkHeld ∧
    State.reset.JournalHeld ∧ State.reset.VisitsHeld ∧ State.reset.TaresHeld ∧ State.reset.AdmissionHeld ∧
    State.reset.QueriesHeld ∧ State.reset.SiteFullHeld ∧ State.reset.CapturesHeld ∧ State.reset.WeighingHeld ∧
    State.reset.Sealed ∧ State.reset.SignalsFollow ∧ State.reset.CapturesStopped ∧ State.reset.SendsWaiting

/-- R62: "A barrier's lower drive is never active while that barrier's safety loop is occupied or faulted". -/
def Obligations.LowerDriveStaysOffOverAnOccupiedLoop : Prop :=
  ∀ s t : State, s.LowerSafe → step s = .next t → t.LowerSafe

/-- R26: "A bridge's working zero Zb always lies within Z0 ± zr·d of that bridge". R27, R33: "A bridge's zero backlog
never exceeds 15", and the threshold U that a reset gives the backlog stays within 15 with it. R29, R31, R36: while a
lane holds the grant no command but a reset or the loss of main power takes a zero: Zb stays, or a calibration, with the
metrology switch CLOSED, returns it to Z0 (also at an evaluation where that lane ends its movement and releases the
grant: the order within an evaluation is the model's choice, log entry 52). -/
def Obligations.ZeroAndBacklogStayInTheirRanges : Prop :=
  (∀ s t : State, s.ZeroHeld → step s = .next t → t.ZeroHeld) ∧
  (∀ s t : State, s.BacklogHeld → step s = .next t → t.BacklogHeld) ∧
  (∀ (c : Instr) (s t : State) (b : BridgeNo) (l : LaneNo), exec c s = .next t → s.resetsAt c = false →
    c ≠ .mainPowerLoss → (s.grant b).holder = some l →
    (t.bridge b).zb = (s.bridge b).zb ∨ (s.metrology.closed = true ∧ (t.bridge b).zb = (t.bridgeCal b).z0))

/-- R132, R153: a lane is in ADMITTING exactly when its query slot is ACTIVE, and holds a query number exactly when it
does, its slot's; the SITE_FULL list holds the lanes in SITE_FULL, each once, and a lane there or in ADMITTING holds an
identity. -/
def Obligations.LanesQueriesAndTheListAgree : Prop :=
  ∀ s t : State, s.QueriesHeld → s.SiteFullHeld → step s = .next t → t.QueriesHeld ∧ t.SiteFullHeld

/-- R43, R95, R145: a capture runs for a lane that holds the grant of its bridge, in WEIGHING or on its way to MANUAL,
and a visit in WEIGHING_IN or WEIGHING_OUT has a capture, of the lane that serves it. -/
def Obligations.WeighingVisitsHoldTheBridge : Prop :=
  ∀ s t : State, s.QueriesHeld → s.SiteFullHeld → s.VisitsHeld → s.CapturesHeld → s.WeighingHeld →
    step s = .next t → t.CapturesHeld ∧ t.WeighingHeld

/-- R174: "The ticket journal holds at most 240 tickets whose numbers are consecutive from oldest to newest, and no
uncollected ticket is ever overwritten": every step keeps the size, the run of numbers, the counter behind the newest
and the run of collected tickets, and keeps every uncollected ticket, but where a reset finds the retained contents
lost. -/
def Obligations.JournalKeepsItsTickets : Prop :=
  (∀ s t : State, s.JournalHeld → step s = .next t → t.JournalHeld) ∧
  (∀ (c : Instr) (s t : State), exec c s = .next t → (s.resetsAt c = true → s.ret.intact = true) →
    ∀ x ∈ s.ret.journal.tickets, x.collected = false →
      ∃ y ∈ t.ret.journal.tickets, y.number = x.number ∧ y.body = x.body ∧ y.issueTime = x.issueTime)

/-- R145, R146, R119: the visit table holds 0 to 64 visits, no number twice and no tag twice. R157, R158: no two tare
records hold one tag. R114, R122, R123, R126: no two cache entries share prefix and length, the entries of one account
hold one credit and one STOPPED flag, and no two refusal records hold one tag. -/
def Obligations.RecordTablesStaySound : Prop :=
  ∀ s t : State, step s = .next t →
    (s.VisitsHeld → t.VisitsHeld) ∧ (s.TaresHeld → t.TaresHeld) ∧ (s.AdmissionHeld → t.AdmissionHeld)

/-- R181: while the part runs, every event leaves the stored check word in agreement with the retained image. -/
def Obligations.CheckWordAgreesAfterEveryEvent : Prop :=
  ∀ s t : State, s.Sealed → step s = .next t → t.Sealed

/-- R77: a lane's signal is GREEN in PASSING, and in ENTERING until the entered mark is set, and RED in every other
case. -/
def Obligations.SignalFollowsTheLaneState : Prop :=
  ∀ s t : State, s.SignalsFollow → step s = .next t → t.SignalsFollow

/-- R43, R54: no capture runs while the power-fail input is asserted. -/
def Obligations.NoCaptureRunsUnderPowerFail : Prop :=
  ∀ s t : State, s.CapturesStopped → step s = .next t → t.CapturesStopped

/-- R188, R192: the request queue holds 0 to 4 frames, the BUSY list 0 to 4 replies, the report queue 0 to 32 reports.
R191: at the end of every event the transmitter is idle only where no reply, no BUSY reply, no permit query and no
report waits; and whenever a step changes what is being sent, it is the frame that R191 names: the replies in the order
they were formed, then the permit query of the lowest lane, then the oldest report (the choice falling at the end of the
event is the model's, log entry 8). -/
def Obligations.LinkKeepsItsQueuesAndSends : Prop :=
  (∀ s t : State, s.LinkHeld → step s = .next t → t.LinkHeld) ∧
  (∀ s t : State, s.SendsWaiting → step s = .next t → t.SendsWaiting) ∧
  (∀ s t : State, step s = .next t → t.link.sending ≠ s.link.sending → t.Chose)

/-- R11: with the metrology switch OPEN no command but a reset changes the calibration, the deck map or the calibration
counter. -/
def Obligations.CalibrationChangesOnlyWithTheSwitchClosed : Prop :=
  ∀ (c : Instr) (s t : State), s.metrology.closed = false → s.resetsAt c = false → exec c s = .next t →
    t.ret.cal = s.ret.cal ∧ t.ret.calCounter = s.ret.calCounter ∧ t.ret.site.deckMap = s.ret.site.deckMap

/-- R182: between the work of the assertion and that of the deassertion no command but a reset changes the journal, the
tare store, the site settings, the calibration or the state of a visit. -/
def Obligations.PowerFailFreezesTheRetainedContents : Prop :=
  ∀ (c : Instr) (s t : State), s.failing = true → s.CapturesStopped → s.resetsAt c = false → c ≠ .powerFailDeassert →
    exec c s = .next t →
    t.ret.journal = s.ret.journal ∧ t.ret.tares = s.ret.tares ∧ t.ret.site = s.ret.site ∧ t.ret.cal = s.ret.cal ∧
      t.ret.calCounter = s.ret.calCounter ∧ t.ret.visits.order = s.ret.visits.order ∧
      t.ret.visits.records.map (fun v => (v.number, v.state)) = s.ret.visits.records.map (fun v => (v.number, v.state))

/-! ### Frames and the link -/

/-- R189, section 12.8: the frame of every well-formed request is read back as that request, and a frame is read as a
request only if it is that request's own frame, byte for byte. -/
def Obligations.RequestFramesSpellTheirRequests : Prop :=
  (∀ r : Request, (Instr.ofRequest r).wellFormed = true → readFrame (requestKind r) (requestPayload r) = .request r) ∧
  (∀ (kind : Byte) (payload : List Byte) (r : Request), readFrame kind payload = .request r →
    kind = requestKind r ∧ payload = requestPayload r)

/-- R186, R187: the bytes of a complete frame, received one by one by a hunting receiver, do what the frame's reception
does; a framing error breaks a frame off and the receiver returns to hunting, a hunting receiver passes over every byte
but 0x5A, and a gap timeout returns the receiver to hunting. A frame with a wrong CRC is discarded whole, and a length
field of 0 or above 1,024 breaks the frame off; both leave the receiver hunting and change nothing (R186, R187). R1, R2:
the six bytes of a load-cell frame do what the sample's arrival does, and a frame whose sum is wrong or whose status is
none of the three changes nothing. That a hunting receiver passes over a start byte that comes with a framing error is
the model's choice (log entry 64). -/
def Obligations.LineBytesMakeFrames : Prop :=
  (∀ (kind : Byte) (payload : List Byte) (s : State), s.powered = true → s.SendsWaiting → s.link.receiver = .hunting →
    payload.length ≤ 1023 →
    runBytes (fun b => .hostLinkByteReceived b false) (frameBytes kind payload) s = exec (.hostFrameReceived kind payload) s) ∧
  ((∀ (b : Byte) (s : State) (bytes : List Byte), s.powered = true → s.link.receiver = .collecting bytes →
    ∃ t, exec (.hostLinkByteReceived b true) s = .next t ∧ t.link.receiver = .hunting ∧ SameBut [.receiver] s t) ∧
  (∀ (b : Byte) (e : Bool) (s : State), s.powered = true → s.link.receiver = .hunting → (b ≠ 0x5A ∨ e = true) →
    ∃ t, exec (.hostLinkByteReceived b e) s = .next t ∧ SameBut [] s t) ∧
  (∀ s : State, s.powered = true → s.link.receiver = .hunting →
    ∃ t, exec (.hostLinkByteReceived 0x5A false) s = .next t ∧ t.link.receiver = .collecting [] ∧
      SameBut [.receiver] s t) ∧
  (∀ s : State, s.powered = true →
    ∃ t, exec .hostFrameGapTimeout s = .next t ∧ t.link.receiver = .hunting ∧ SameBut [.receiver] s t)) ∧
  ((∀ (c : ChannelNo) (x y z : Byte) (s : State), s.powered = true → s.SendsWaiting → (s.channel c).receiver = .hunting →
    (∀ (st : Byte) (status : SampleStatus), sampleStatusOf st = some status →
      runBytes (fun b => .loadCellByteReceived c b false) [0xF5, x, y, z, st, x + y + z + st] s =
        exec (.sampleArrival c (x ++ y ++ z) status) s) ∧
    (∀ st check : Byte, (check ≠ x + y + z + st ∨ sampleStatusOf st = none) →
      ∃ t, runBytes (fun b => .loadCellByteReceived c b false) [0xF5, x, y, z, st, check] s = .next t ∧
        SameBut [] s t)) ∧
  (∀ (c : ChannelNo) (s : State), s.powered = true → (s.channel c).receiver = .hunting →
    ∃ t, exec (.loadCellByteReceived c 0xF5 false) s = .next t ∧
      t.channel c = { s.channel c with receiver := .collecting [] } ∧
      (∀ o : ChannelNo, o ≠ c → t.channel o = s.channel o) ∧ SameBut [.channels] s t) ∧
  (∀ (c : ChannelNo) (b : Byte) (bytes : List Byte) (s : State), s.powered = true →
    (s.channel c).receiver = .collecting bytes →
    (bytes.length < 4 →
      ∃ t, exec (.loadCellByteReceived c b false) s = .next t ∧
        t.channel c = { s.channel c with receiver := .collecting (bytes ++ [b]) } ∧
        (∀ o : ChannelNo, o ≠ c → t.channel o = s.channel o) ∧ SameBut [.channels] s t) ∧
    (∃ t, exec (.loadCellByteReceived c b true) s = .next t ∧
      t.channel c = { s.channel c with receiver := .hunting } ∧
      (∀ o : ChannelNo, o ≠ c → t.channel o = s.channel o) ∧ SameBut [.channels] s t))) ∧
  (∀ (body : List Byte) (a b hi lo : Byte) (s : State), s.powered = true → s.link.receiver = .hunting →
    body.length = (halfOf a b).toNat → 1 ≤ body.length → body.length ≤ 1024 →
    halfOf hi lo ≠ crcOf (a :: b :: body) →
    ∃ t, runBytes (fun x => .hostLinkByteReceived x false) (0x5A :: a :: b :: body ++ [hi, lo]) s = .next t ∧
      SameBut [] s t) ∧
  (∀ (a b : Byte) (s : State), s.powered = true → s.link.receiver = .hunting →
    ((halfOf a b).toNat < 1 ∨ 1024 < (halfOf a b).toNat) →
    ∃ t, runBytes (fun x => .hostLinkByteReceived x false) [0x5A, a, b] s = .next t ∧ SameBut [] s t)

/-- R188, R189: a received frame of a request's kind and payload is that request; a frame of no request kind is answered
UNKNOWN_KIND and one of a wrong payload length BAD_LENGTH, and neither changes anything else; a frame received while
there is a current reply joins the end of the queue. While there is a current reply a complete request joins the end of
a queue of fewer than 4 frames; with 4 in the queue it draws a BUSY reply, and with 4 BUSY replies it is discarded. It
has no other effect. -/
def Obligations.ReceivedFramesAreJudgedAndWait : Prop :=
  ((∀ (r : Request) (s : State), (Instr.ofRequest r).wellFormed = true →
      exec (.hostFrameReceived (requestKind r) (requestPayload r)) s = exec (Instr.ofRequest r) s) ∧
    (∀ (kind : Byte) (payload : List Byte) (s : State), s.Ready → payload.length ≤ 1023 → readerOf kind = none →
      ∃ t, exec (.hostFrameReceived kind payload) s = .next t ∧ Turned s t kind .unknownKind) ∧
    (∀ (kind : Byte) (payload : List Byte) (s : State) (read : List Byte → Option Request), s.Ready →
      payload.length ≤ 1023 → readerOf kind = some read → read payload = none →
      ∃ t, exec (.hostFrameReceived kind payload) s = .next t ∧ Turned s t kind .badLength) ∧
    (∀ (kind : Byte) (payload : List Byte) (s : State), s.powered = true → s.link.current.isSome = true →
      s.link.queue.length < 4 → payload.length ≤ 1023 →
      ∃ t, exec (.hostFrameReceived kind payload) s = .next t ∧
        t.link.queue = s.link.queue ++ [readFrame kind payload] ∧ SameBut [.receiver, .requests] s t)) ∧
  (∀ (r : Request) (s : State), s.powered = true → s.link.current.isSome = true →
      (s.link.queue.length < 4 →
        ∃ t, exec (Instr.ofRequest r) s = .next t ∧ t.link.queue = s.link.queue ++ [.request r] ∧
          SameBut [.receiver, .requests] s t) ∧
      (s.link.queue.length = 4 → s.link.busy.length < 4 →
        ∃ t, exec (Instr.ofRequest r) s = .next t ∧
          t.link.busy = s.link.busy ++ [replyTo (requestKind r) .busy s.linkFlags .empty] ∧
          SameBut [.receiver, .busy] s t) ∧
      (s.link.queue.length = 4 → s.link.busy.length = 4 →
        ∃ t, exec (Instr.ofRequest r) s = .next t ∧ SameBut [.receiver] s t))

/-- R188, R189, R191, R192, R196: when a frame's last byte has gone, a sent report has left, a sent BUSY reply leaves
the BUSY list, a sent reply makes way for the next waiting frame, a request being carried out and any other answered
UNKNOWN_KIND or BAD_LENGTH, and the reply to RESET resets the part. The transmitter then sends of the frames that wait,
in this order: the current reply and the BUSY replies as they were formed, a new current reply standing behind the BUSY
replies that waited at it; the permit query of the lowest lane; the oldest report, which leaves the queue; with none it
is idle. That it chooses once, at the end of the event, is the model's choice (log entry 8). -/
def Obligations.EndOfAFrame : Prop :=
  (∀ (s : State) (r : Report), s.powered = true → s.link.sending = some (.report r) →
    ∃ t, exec .transmitFrameEnd s = .next t ∧ t.voiced = s.link.reports ∧
      t.link.reportsLost = s.link.reportsLost ∧ t.Chose ∧ SameBut [.reports] s t) ∧
  (∀ (s : State) (r : Reply), s.powered = true → s.link.sending = some (.busy r) →
    ∃ t, exec .transmitFrameEnd s = .next t ∧ t.link.busy = s.link.busy.tail ∧
      t.link.busyAhead = s.link.busyAhead - 1 ∧ t.link.current = s.link.current ∧ t.Chose ∧
      SameBut [.busy, .reply] s t) ∧
  (∀ (s : State) (q : QueryFrame), s.powered = true → s.link.sending = some (.query q) →
    ∃ t, exec .transmitFrameEnd s = .next t ∧ t.Chose ∧
      (s.link.queries.read q.lane = some q → t.link.queries.read q.lane = none) ∧
      (s.link.queries.read q.lane ≠ some q → t.link.queries.read q.lane = s.link.queries.read q.lane) ∧
      (∀ l : LaneNo, l ≠ q.lane → t.link.queries.read l = s.link.queries.read l) ∧ SameBut [.queryFrames] s t) ∧
  (∀ (s : State) (r : Reply), s.powered = true → s.link.sending = some (.reply r) → r.body ≠ .resetAccepted →
    s.link.queue = [] →
    ∃ t, exec .transmitFrameEnd s = .next t ∧ t.link.current = none ∧ t.Chose ∧ SameBut [.reply] s t) ∧
  (∀ (s : State) (r : Reply) (x : Request) (rest : List LinkFrame), s.powered = true →
    s.link.sending = some (.reply r) → r.body ≠ .resetAccepted → s.link.queue = .request x :: rest →
    ∃ t u v, exec .transmitFrameEnd s = .next t ∧ t.link.queue = rest ∧
      u = s.onLink (fun k => { k with sending := none, current := none, queue := rest }) ∧ v = act x u ∧
      t.link.current = some (replyTo (requestKind x) v.status (flagsFor x u v.state) v.body) ∧
      t.link.busyAhead = t.link.busy.length ∧ t.Chose ∧ SameBut [.reply] v.state t) ∧
  (∀ (s : State) (r : Reply), s.powered = true → s.link.sending = some (.reply r) → r.body = .resetAccepted →
    ∃ t, exec .transmitFrameEnd s = .next t ∧ t.link.current = none ∧ t.link.queue = [] ∧ t.link.busy = [] ∧
      (∀ l : LaneNo, t.link.queries.read l = none) ∧
      t.link.sending = some (.report (.resetDone .request s.ret.intact t.laneHold t.ret.calCounter)) ∧
      (∀ b : BridgeNo, (t.bridge b).capture = none) ∧ ∀ i : Fin 48, t.adm.permit i = none) ∧
  (∀ (s : State) (r : Reply) (k : Byte) (rest : List LinkFrame), s.powered = true → s.link.sending = some (.reply r) →
    r.body ≠ .resetAccepted →
    (s.link.queue = .unknownKind k :: rest →
      ∃ t, exec .transmitFrameEnd s = .next t ∧ t.link.queue = rest ∧ t.Answers k .unknownKind .empty ∧
        t.link.busyAhead = t.link.busy.length ∧ t.Chose ∧ SameBut [.requests, .reply] s t) ∧
    (s.link.queue = .badLength k :: rest →
      ∃ t, exec .transmitFrameEnd s = .next t ∧ t.link.queue = rest ∧ t.Answers k .badLength .empty ∧
        t.link.busyAhead = t.link.busy.length ∧ t.Chose ∧ SameBut [.requests, .reply] s t))

/-- R11, R12, R15, R31 to R35, R67, R74, R81, R91, R95, R97, R112, R124, R129, R130, R136, R141, R154, R159 to R161,
R176, R177, R180, R189, R193: a refused request changes no state of the part but the receiver and the reply. -/
def Obligations.RefusedRequestsChangeNothing : Prop :=
  ∀ (r : Request) (s t : State) (p : Reply), s.Ready → exec (Instr.ofRequest r) s = .next t → t.link.current = some p →
    p.status ≠ .ok → p.status ≠ .late → SameBut [.receiver, .reply] s t

/-! ### Reads -/

/-- R194, R195, R196: IDENTIFY, STATUS_READ and RESET are answered OK in every state; STATUS_READ clears the
reports-lost flag after its own link-flags byte is formed, and neither of the others changes anything at its taking. -/
def Obligations.ReadsOfTheWholePart : Prop :=
  ∀ s : State, s.Ready →
    (∃ t, exec .identify s = .next t ∧ t.Answers 0x01 .ok .identification ∧ SameBut [.receiver, .reply] s t) ∧
    (∃ t r, exec .statusRead s = .next t ∧ t.link.current = some (replyTo 0x02 .ok s.linkFlags (.statusReply r)) ∧
      r.clock = s.ret.clock ∧ r.clockUnset = s.ret.clockUnset ∧ r.laneHold = s.laneHold ∧
      r.reportCount = s.link.reports.length ∧ r.visits = s.ret.visits.records.length ∧
      r.pendingTickets = s.ret.visits.order.length ∧ r.tickets = s.ret.journal.tickets.length ∧
      r.ticketCounter = s.ret.journal.counter ∧ r.lanes.map (·.lane) = [0, 1, 2, 3] ∧
      r.lanes.map (·.state) = [(s.lane 0).state, (s.lane 1).state, (s.lane 2).state, (s.lane 3).state] ∧
      r.barriers.map (·.barrier) = [0, 1, 2, 3, 4, 5, 6, 7] ∧ (∀ e ∈ r.barriers, e.state = (s.barrier e.barrier).state) ∧
      (∀ e ∈ r.beams, e.broken = (s.beam e.beam).broken) ∧
      t.link.reportsLost = false ∧ t.voiced = s.voiced ∧ SameBut [.receiver, .reply, .reports] s t) ∧
    (∃ t, exec .reset s = .next t ∧ t.Answers 0x03 .ok .resetAccepted ∧ SameBut [.receiver, .reply] s t)

/-- R14, R37, R125, R128: WEIGHT_READ and CHANNEL_READ show the selected bridge or channel, or all of them in order, and
refuse any other selector; CACHE_READ lists every valid entry once, in slot order, and REFUSAL_READ every valid record
with the flags. R155, R161, R177: VISIT_READ, TARE_READ and TICKET_READ answer with the record that holds the number or
tag asked for, or say that there is none; another selector, a visit number outside 1 to 65,535 or a record number above
127, of all four operand bytes (the model's choice, log entry 62), is refused. That ALL is answered whatever number or
operand stands beside it is the model's choice (log entry 31). A read changes nothing, buckets included. -/
def Obligations.ReadsOfUnitsAndRecords : Prop :=
  ((∀ (x : Selector) (s : State), s.Ready →
      (∀ b : BridgeNo, selectOf 4 x = some (.one b) →
        ∃ t e, exec (.weightRead x) s = .next t ∧ t.Answers 0x20 .ok (.weights [e]) ∧ e.bridge = b ∧
          e.state = (s.bridge b).state ∧ e.weight = (s.bridge b).weight ∧ e.zb = (s.bridge b).zb ∧
          e.z0 = (s.bridgeCal b).z0 ∧ e.backlog = (s.bridge b).backlog ∧
          (e.urgent = true ↔ (s.timing b).urgent ≤ (s.bridge b).backlog) ∧ e.run = (s.bridge b).run ∧
          e.waived = (s.bridge b).waived ∧ e.limit = (s.bridge b).limitReported ∧ e.holder = (s.grant b).holder ∧
          e.waiting = (s.grant b).waiting ∧ e.members.map (·.deck) = (s.bridgeCal b).members ∧
          (∀ g : Int, e.gross = some g ↔ ((s.bridge b).gross = some g ∧ -2147483648 ≤ g ∧ g ≤ 2147483647)) ∧
          SameBut [.receiver, .reply] s t) ∧
      (selectOf 4 x = some .all →
        ∃ t es, exec (.weightRead x) s = .next t ∧ t.Answers 0x20 .ok (.weights es) ∧ es.map (·.bridge) = [0, 1, 2, 3] ∧
          (∀ e ∈ es, e.zb = (s.bridge e.bridge).zb ∧ e.state = (s.bridge e.bridge).state) ∧
          SameBut [.receiver, .reply] s t) ∧
      (selectOf 4 x = none → ∃ t, exec (.weightRead x) s = .next t ∧ Turned s t 0x20 .outOfRange) ∧
      (∀ c : ChannelNo, selectOf 16 x = some (.one c) →
        ∃ t e, exec (.channelRead x) s = .next t ∧
          t.Answers 0x23 .ok (.channels s.metrology.closed s.ret.calCounter s.period [e]) ∧ e.channel = c ∧
          e.deck = s.deckOf c ∧ e.zero = (s.channelCal c).zero ∧ e.span = (s.channelCal c).span ∧
          e.calibrated = (s.channelCal c).calibrated ∧ e.age = (s.channel c).age ∧ e.fault = (s.channel c).fault ∧
          e.stall = (s.channel c).stall ∧
          (∀ v : Sample, (s.channel c).sample = some v → e.sample = some (v.counts, v.status)) ∧
          ((s.channel c).sample = none → e.sample = none ∧ e.weight = none) ∧
          (e.judgement = .unused ↔ s.deckOf c = none) ∧ SameBut [.receiver, .reply] s t) ∧
      (selectOf 16 x = some .all →
        ∃ t es, exec (.channelRead x) s = .next t ∧
          t.Answers 0x23 .ok (.channels s.metrology.closed s.ret.calCounter s.period es) ∧
          es.map (fun e => e.channel.val) = List.range 16 ∧ (∀ e ∈ es, e.age = (s.channel e.channel).age) ∧
          SameBut [.receiver, .reply] s t) ∧
      (selectOf 16 x = none → ∃ t, exec (.channelRead x) s = .next t ∧ Turned s t 0x23 .outOfRange)) ∧
    (∀ s : State, s.Ready →
      (∃ t secs items, exec .cacheRead s = .next t ∧ t.Answers 0x2B .ok (.cache secs items) ∧
        (∀ e : CacheItem, e ∈ items ↔ ∃ (i : Fin 48) (p : Permit), s.adm.permit i = some p ∧
          e = { slot := i.val, pfx := p.pfx, length := p.length, account := p.account, streams := p.streams,
                credit := p.credit, stopped := p.stopped, storedTare := p.storedTare, tareRefresh := p.tareRefresh,
                bucket := p.bucket }) ∧
        items.Pairwise (fun a b => a.slot < b.slot) ∧ SameBut [.receiver, .reply] s t) ∧
      (∃ t lowest items, exec .refusalRead s = .next t ∧
        t.Answers 0x2C .ok (.refusals s.adm.overflow s.adm.mask s.adm.reportPending lowest items) ∧
        (∀ e : RefusalEntry, e ∈ items ↔ ∃ (i : Fin 8) (r : RefusalRecord), s.adm.records.read i = some r ∧
          e = { record := i.val, tag := r.tag, lane := r.lane, reason := r.reason, firstTime := r.firstTime,
                lastTime := r.lastTime, repeats := r.repeats }) ∧
        (lowest = none ↔ ∀ i : Fin 8, s.adm.records.read i = none) ∧ SameBut [.receiver, .reply] s t))) ∧
  (∀ (kind : Byte) (operand : Word) (s : State), s.Ready →
      (∀ (n : Nat) (v : Visit), kind.toNat = 0 → n = operand.toNat → 1 ≤ n → n ≤ 65535 → s.visitOf n = some v →
        ∃ t place, exec (.visitRead kind operand) s = .next t ∧ t.Answers 0x30 .ok (.visit v place) ∧ v.number = n ∧
          (place = none ↔ v.number ∉ s.ret.visits.order) ∧ SameBut [.receiver, .reply] s t) ∧
      (∀ (tag : Word) (v : Visit), kind.toNat = 1 → tag = operand → s.visitOfTag tag = some v →
        ∃ t place, exec (.visitRead kind operand) s = .next t ∧ t.Answers 0x30 .ok (.visit v place) ∧ v.tag = tag ∧
          SameBut [.receiver, .reply] s t) ∧
      (∀ n : Nat, kind.toNat = 0 → n = operand.toNat → 1 ≤ n → n ≤ 65535 → s.visitOf n = none →
        ∃ t, exec (.visitRead kind operand) s = .next t ∧ Turned s t 0x30 .noSuchVisit) ∧
      (kind.toNat = 2 →
        ∃ t vs, exec (.visitRead kind operand) s = .next t ∧
          t.Answers 0x30 .ok (.visitList s.ret.visits.counter vs) ∧
          vs.map (fun e => (e.number, e.tag, e.account, e.state)) =
            s.ret.visits.records.map (fun v => (v.number, v.tag, v.account, v.state)) ∧
          SameBut [.receiver, .reply] s t) ∧
      ((2 < kind.toNat ∨ (kind.toNat = 0 ∧ (operand.toNat = 0 ∨ 65535 < operand.toNat))) →
        ∃ t, exec (.visitRead kind operand) s = .next t ∧ Turned s t 0x30 .outOfRange) ∧
      (kind = 0 →
        ∃ t occupied entry, exec (.tareRead kind operand) s = .next t ∧
          t.Answers 0x34 .ok (.tareOfTag occupied s.timers.tareDays entry) ∧
          (∀ e : TareEntry, entry = some e → e.tare.tag = operand ∧ ∃ i : Fin 128, s.ret.tares.read i = some e.tare) ∧
          (entry = none → ∀ (i : Fin 128) (x : Tare), s.ret.tares.read i = some x → x.tag ≠ operand) ∧
          SameBut [.receiver, .reply] s t) ∧
      (kind = 1 → operand.toNat ≤ 127 →
        ∃ t occupied entries next, exec (.tareRead kind operand) s = .next t ∧
          t.Answers 0x34 .ok (.tareList occupied s.timers.tareDays entries next) ∧ entries.length ≤ 32 ∧
          (∀ e ∈ entries, operand.toNat ≤ e.record ∧ ∃ i : Fin 128, i.val = e.record ∧ s.ret.tares.read i = some e.tare) ∧
          (next = none → ∀ (i : Fin 128) (x : Tare), operand.toNat ≤ i.val → s.ret.tares.read i = some x →
            ∃ e ∈ entries, e.record = i.val) ∧
          SameBut [.receiver, .reply] s t) ∧
      (∀ x : Ticket, operand ≠ 0 → s.ret.journal.tickets.find? (fun y => y.number == operand.toNat) = some x →
        ∃ t, exec (.ticketRead operand) s = .next t ∧ t.Answers 0x38 .ok (.ticket x) ∧ x.number = operand.toNat ∧
          SameBut [.receiver, .reply] s t) ∧
      (operand ≠ 0 → (∀ x ∈ s.ret.journal.tickets, x.number ≠ operand.toNat) →
        ∃ t, exec (.ticketRead operand) s = .next t ∧ Turned s t 0x38 .noSuchTicket) ∧
      (operand = 0 → ∃ t, exec (.ticketRead operand) s = .next t ∧ Turned s t 0x38 .outOfRange) ∧
      (∀ tag : Word, kind.toNat = 1 → tag = operand → s.visitOfTag tag = none →
        ∃ t, exec (.visitRead kind operand) s = .next t ∧ Turned s t 0x30 .noSuchVisit) ∧
      ((2 ≤ kind.toNat ∨ (kind = 1 ∧ 127 < operand.toNat)) →
        ∃ t, exec (.tareRead kind operand) s = .next t ∧ Turned s t 0x34 .outOfRange))

/-! ### Settings and calibration -/

/-- R74, R75, R102: an accepted CONFIG_LANE writes the lane's six items and no other setting; an IDLE lane with a role
and an occupied approach loop goes to AWAIT_ID, any other lane keeps its state. A lane number or an item that is not of
its list, items that do not suit the role, a bridge that two other lanes list, a loop that another lane names and a
barrier that another lane names otherwise than as the other barrier of the same bridge are refused with OUT_OF_RANGE,
and a lane that is neither IDLE nor in MANUAL with LANE_BUSY. -/
def Obligations.ConfigLaneWritesOneLane : Prop :=
  (∀ (f : ConfigLaneFields) (l : LaneNo) (k : LaneConfig) (s : State), s.Ready → ofByte 4 f.lane = some l →
      laneConfigOf f = some k → s.configFits l k = true → s.failing = false →
      ((s.lane l).state = .idle ∨ (s.lane l).state = .manual) →
      ∃ t, exec (.configLane f) s = .next t ∧ t.Answers 0x08 .ok (.laneConfig k (t.lane l).state) ∧
        t.ret.site = { s.ret.site with lanes := s.ret.site.lanes.write l k } ∧
        ((s.lane l).state = .idle → k.role ≠ .none → (∃ a : LoopNo, k.loop = some a ∧ (s.loop a).occupied = true) →
          (t.lane l).state = .awaitId ∧ (t.lane l).identityTimer = .running (s.timers.identity * 1000)) ∧
        (((s.lane l).state = .manual ∨ k.role = .none ∨ ∀ a : LoopNo, k.loop = some a → (s.loop a).occupied = false) →
          t.lanes = s.lanes) ∧
        (∀ m : LaneNo, m ≠ l → t.lane m = s.lane m) ∧
        (∀ b : BridgeNo, (t.grant b).holder = (s.grant b).holder ∧ (t.grant b).waiting = (s.grant b).waiting) ∧
        SameBut [.receiver, .reply, .site, .checkWord, .grants, .lanes, .reports] s t) ∧
  (∀ (f : ConfigLaneFields) (s : State), s.Ready →
    (ofByte 4 f.lane = none ∨ laneConfigOf f = none →
      ∃ t, exec (.configLane f) s = .next t ∧ Turned s t 0x08 .outOfRange) ∧
    (∀ (l : LaneNo) (k : LaneConfig), ofByte 4 f.lane = some l → laneConfigOf f = some k →
      (s.configFits l k = false → ∃ t, exec (.configLane f) s = .next t ∧ Turned s t 0x08 .outOfRange) ∧
      (s.configFits l k = true → s.failing = false → (s.lane l).state ≠ .idle → (s.lane l).state ≠ .manual →
        ∃ t, exec (.configLane f) s = .next t ∧ Turned s t 0x08 .laneBusy))) ∧
  (∀ (l : LaneNo) (k : LaneConfig) (s : State),
    s.configFits l k = true ↔
      ((k.role = .inbound ∨ k.role = .outbound →
          k.bridge ≠ none ∧ k.front ≠ none ∧ k.rear ≠ none ∧ k.loop ≠ none ∧ k.front ≠ k.rear) ∧
        (k.role = .bypass → k.bridge = none ∧ k.rear = none ∧ k.front ≠ none ∧ k.loop ≠ none) ∧
        (k.role = .none → k.bridge = none ∧ k.front = none ∧ k.rear = none ∧ k.loop = none) ∧
        (∀ (b : BridgeNo) (m n : LaneNo), k.bridge = some b → m ≠ l → n ≠ l → (s.config m).bridge = some b →
          (s.config n).bridge = some b → m = n) ∧
        ∀ o : LaneNo, o ≠ l →
          (k.loop ≠ none → (s.config o).loop ≠ k.loop) ∧
          ∀ b : BarrierNo, (k.front = some b ∨ k.rear = some b) →
            ((s.config o).front = some b ∨ (s.config o).rear = some b) →
            k.bridge ≠ none ∧ k.bridge = (s.config o).bridge ∧
              ((k.front = some b ∧ (s.config o).rear = some b) ∨ (k.rear = some b ∧ (s.config o).front = some b))))

/-- R33, R13, R20, R27, R193: an accepted CONFIG_BRIDGE_TIMING takes the period and the five settings, each as given
inside its range and as the nearest end of the range outside it, restarts the bridge's zero timer and the running stall
timers, and, where the period changes, the running freshness timers. That a freshness timer is left alone where P is
written with its own value is the model's reading (log entry 24). R28, R33: a U lowered to or below the backlog of a
bridge that was not zero-urgent queues a ZERO_EVENT with URGENT; any other U queues none. R104, R105, R33: a grant
decision follows by the new U and e: where its conditions hold and the metrology switch is OPEN (R10, R109), the lane
that R105 chooses is granted, and else nothing is granted. That a metrology switch closed since the latest evaluation
withholds the grant (R10 and R109, against the list of R104; log entry 55), and that the grant can be the first after
reset (R104, against R111; log entry 66), are the model's choices. -/
def Obligations.ConfigBridgeTimingTakesTheSettings : Prop :=
  ∀ (f : BridgeTimingFields) (b : BridgeNo) (s : State), s.Ready → ofByte 4 f.bridge = some b → s.failing = false →
    ∃ t, exec (.configBridgeTiming f) s = .next t ∧ t.Answers 0x09 .ok (.bridgeTiming t.period (t.timing b)) ∧
      NearestIn 5 100 f.period.toNat t.period ∧ NearestIn 10 3600 f.zeroInterval.toNat (t.timing b).zeroInterval ∧
      NearestIn 1 15 f.urgent.toNat (t.timing b).urgent ∧ NearestIn 1 16 f.hold.toNat (t.timing b).hold ∧
      NearestIn 1 50 f.empty.toNat (t.timing b).empty ∧
      NearestIn 5 120 f.captureTimeout.toNat (t.timing b).captureTimeout ∧
      t.ret.site = { s.ret.site with period := t.period, timing := s.ret.site.timing.write b (t.timing b) } ∧
      t.bridge b = { s.bridge b with zeroTimer := (t.timing b).zeroInterval * 1000 } ∧
      (∀ o : BridgeNo, o ≠ b → t.bridge o = s.bridge o) ∧
      (∀ c : ChannelNo, t.channel c =
        { s.channel c with stallTimer := (s.channel c).stallTimer.map (fun _ => 4 * t.period) }) ∧
      (∀ d : DeckNo, t.deck d = if s.period = t.period then s.deck d else
        { s.deck d with freshness := (s.deck d).freshness.map (fun _ => 2 * t.period) }) ∧
      SameBut [.receiver, .reply, .site, .checkWord, .channels, .decks, .bridges, .grants, .lanes, .barriers, .reports]
        s t ∧
      (∀ (l : LaneNo) (h : BarrierNo) (g : Int), s.metrology.closed = false → (s.grant b).holder = none → (s.grant b).Chooses l →
        (s.bridge b).backlog < (t.timing b).urgent → ((s.bridge b).state = .stable ∨ (s.bridge b).state = .motion) →
        (s.bridge b).gross = some g → g.natAbs ≤ (t.timing b).empty * (s.bridgeCal b).interval →
        (s.lane l).state = .awaitBridge → (s.config l).front = some h →
        EntersByGrant s t b l h ∧
          (s.link.reports.length < 32 → t.voiced = s.voiced ++ [.laneState
            { lane := l, left := .awaitBridge, entered := .entering, identity := (s.lane l).identity,
              visit := (s.lane l).visit, reason := none, clock := s.ret.clock }])) ∧
      ((s.metrology.closed = true ∨ (s.grant b).waiting = [] ∨ (s.grant b).holder.isSome = true ∨ (t.timing b).urgent ≤ (s.bridge b).backlog ∨
          ((s.bridge b).state ≠ .stable ∧ (s.bridge b).state ≠ .motion) ∨ (s.bridge b).gross = none ∨
          ∃ g : Int, (s.bridge b).gross = some g ∧ (t.timing b).empty * (s.bridgeCal b).interval < g.natAbs) →
        SameBut [.receiver, .reply, .site, .checkWord, .channels, .decks, .bridges, .reports] s t ∧
          ((s.bridge b).backlog < (s.timing b).urgent → (t.timing b).urgent ≤ (s.bridge b).backlog →
            s.link.reports.length < 32 →
            t.voiced = s.voiced ++ [.zeroEvent
              { bridge := b, event := .urgent, z0 := (s.bridgeCal b).z0, zb := (s.bridge b).zb,
                backlog := (s.bridge b).backlog, waived := (s.bridge b).waived, clock := s.ret.clock,
                candidate := none, before := none }]) ∧
          ((s.timing b).urgent ≤ (s.bridge b).backlog ∨ (s.bridge b).backlog < (t.timing b).urgent →
            t.voiced = s.voiced ∧ t.link.reportsLost = s.link.reportsLost))

/-- R76, R112, R116, R178, R185, R193: CONFIG_STREAM writes one stream entry, CONFIG_TIMERS the site-wide settings, each
as given inside its range and as the nearest end outside it, with the aging timer restarted and the high-water test
made, TIME_SET the yard clock with its unset mark cleared. -/
def Obligations.SiteSettingsAndClockAreWritten : Prop :=
  (∀ (f : ConfigStreamFields) (k : StreamNo) (s : State), s.Ready → ofByte 16 f.stream = some k →
    f.rate.toNat ≤ 10000000 → f.minCharge.toNat ≤ 10000000 → f.enabled.toNat ≤ 1 → s.failing = false →
    ∃ t, exec (.configStream f) s = .next t ∧ t.Answers 0x0A .ok (.stream (t.stream k)) ∧
      t.stream k = { rate := f.rate.toNat, minCharge := f.minCharge.toNat, enabled := f.enabled == 0 } ∧
      t.ret.site = { s.ret.site with streams := s.ret.site.streams.write k (t.stream k) } ∧
      t.ret.intact = true ∧
      SameBut [.receiver, .reply, .site, .checkWord] s t) ∧
  (∀ (f : ConfigStreamFields) (s : State), s.Ready →
    ((15 < f.stream.toNat ∨ 10000000 < f.rate.toNat ∨ 10000000 < f.minCharge.toNat ∨ 1 < f.enabled.toNat) →
      ∃ t, exec (.configStream f) s = .next t ∧ Turned s t 0x0A .outOfRange) ∧
    (f.stream.toNat ≤ 15 → f.rate.toNat ≤ 10000000 → f.minCharge.toNat ≤ 10000000 → f.enabled.toNat ≤ 1 →
      s.failing = true → ∃ t, exec (.configStream f) s = .next t ∧ Turned s t 0x0A .powerFail)) ∧
  (∀ (f : ConfigTimersFields) (s : State), s.Ready → s.failing = false →
    ∃ t, exec (.configTimers f) s = .next t ∧ t.Answers 0x0B .ok (.timers t.timers) ∧
      NearestIn 2 60 f.identity.toNat t.timers.identity ∧ NearestIn 5 120 f.entry.toNat t.timers.entry ∧
      NearestIn 1 20 f.motion.toNat t.timers.motion ∧ NearestIn 1 30 f.query.toNat t.timers.query ∧
      NearestIn 1 60 f.aging.toNat t.timers.aging ∧ NearestIn 1 365 f.tareDays.toNat t.timers.tareDays ∧
      NearestIn 1 240 f.highWater.toNat t.timers.highWater ∧
      t.ret.site = { s.ret.site with timers := t.timers } ∧ t.adm.agingTimer = t.timers.aging * 1000 ∧
      t.adm.cache = s.adm.cache ∧ (t.marks.high = true ↔ t.timers.highWater ≤ s.ret.journal.uncollected) ∧
      t.marks.fullReported = s.marks.fullReported ∧
      SameBut [.receiver, .reply, .site, .checkWord, .cache, .marks, .reports] s t) ∧
  (∀ (v : Word) (s : State), s.Ready → s.failing = false →
    ∃ t, exec (.timeSet v) s = .next t ∧ t.Answers 0x14 .ok (.timeSet s.ret.clock s.ret.clockUnset) ∧
      t.ret.clock = v.toNat ∧ t.ret.clockUnset = false ∧ SameBut [.receiver, .reply, .clock, .checkWord] s t)

/-- R33, R67, R74, R76, R81, R91, R92, R95, R97, R136, R141, R154, R159, R160, R176, R180, R185: while the power-fail
input is asserted, the requests that would change retained contents or move a lane are refused with POWER_FAIL and
change nothing, a late PERMIT_ANSWER that would give its visit another account among them. R11: the four calibration
requests are refused with CAL_LOCKED while the metrology switch is OPEN, else with POWER_FAIL under power fail. -/
def Obligations.PowerFailAndSealRefuse : Prop :=
  (∀ s : State, s.Ready → s.failing = true →
    (∀ f : ConfigTimersFields, ∃ t, exec (.configTimers f) s = .next t ∧ Turned s t 0x0B .powerFail) ∧
    (∀ v : Word, ∃ t, exec (.timeSet v) s = .next t ∧ Turned s t 0x14 .powerFail) ∧
    (∀ (f : BridgeTimingFields) (b : BridgeNo), ofByte 4 f.bridge = some b →
      ∃ t, exec (.configBridgeTiming f) s = .next t ∧ Turned s t 0x09 .powerFail) ∧
    (∀ (l : LaneNo) (x : Byte), ofByte 4 x = some l →
      (∃ t, exec (.laneTakeover x) s = .next t ∧ Turned s t 0x19 .powerFail) ∧
      (∃ t, exec (.laneRelease x) s = .next t ∧ Turned s t 0x1A .powerFail) ∧
      (∃ t, exec (.laneRetry x) s = .next t ∧ Turned s t 0x1B .powerFail) ∧
      (∃ t, exec (.laneBackout x) s = .next t ∧ Turned s t 0x1C .powerFail) ∧
      ∀ (tag : Word) (k : StreamNo) (y : Byte), ofByte 16 y = some k →
        ∃ t, exec (.arrival x tag y) s = .next t ∧ Turned s t 0x18 .powerFail) ∧
    (∀ tag : Word, ∃ t, exec (.tareDelete tag) s = .next t ∧ Turned s t 0x33 .powerFail) ∧
    (∀ n : Word, n ≠ 0 → ∃ t, exec (.ticketCollect n) s = .next t ∧ Turned s t 0x39 .powerFail) ∧
    (∀ n : Word, n ≠ 0 → s.ret.journal.tickets = [] →
      ∃ t, exec (.ticketBase n) s = .next t ∧ Turned s t 0x3A .powerFail) ∧
    (∀ (f : ConfigLaneFields) (l : LaneNo) (k : LaneConfig), ofByte 4 f.lane = some l → laneConfigOf f = some k →
      s.configFits l k = true → ∃ t, exec (.configLane f) s = .next t ∧ Turned s t 0x08 .powerFail) ∧
    (∀ (f : TareWriteFields) (x : Tare), tareOfFields f s.ret.clock = some x →
      ∃ t, exec (.tareWrite f) s = .next t ∧ Turned s t 0x32 .powerFail) ∧
    (∀ (kind : Byte) (operand : Word) (v : Visit),
      ((∃ n : Nat, visitSelect kind operand = some (.number n) ∧ s.visitOf n = some v) ∨
        ∃ tag : Word, visitSelect kind operand = some (.tag tag) ∧ s.visitOfTag tag = some v) →
      ∃ t, exec (.visitCancel kind operand) s = .next t ∧ Turned s t 0x31 .powerFail) ∧
    (∀ (x y command : Byte) (l : LaneNo) (b : BarrierNo), ofByte 4 x = some l → ofByte 8 y = some b →
      command.toNat ≤ 1 → ((s.config l).front = some b ∨ (s.config l).rear = some b) → (s.lane l).state = .manual →
      ∃ t, exec (.barrierCommand x y command) s = .next t ∧ Turned s t 0x1E .powerFail) ∧
    (∀ (f : PermitAnswerFields) (l : LaneNo) (p : Permit) (v : Visit) (n : Nat), answerOf f = .ok (.entry p) →
      s.adm.slotHolding f.number.toNat f.tag = some l → p.covers f.tag = true → (s.slot l).state = .late →
      (s.slot l).provisional = some n → s.visitOf n = some v → v.tag = (s.slot l).tag → v.provisional = true →
      v.account ≠ p.account → ∃ t, exec (.permitAnswer f) s = .next t ∧ Turned s t 0x28 .powerFail)) ∧
  (∀ s : State, s.Ready →
    (s.metrology.closed = false →
      (∀ d : Table 16 Byte, ∃ t, exec (.calDeckMap d) s = .next t ∧ Turned s t 0x10 .calLocked) ∧
      (∀ f : CalCellFields, ∃ t, exec (.calCell f) s = .next t ∧ Turned s t 0x11 .calLocked) ∧
      (∀ f : CalBridgeFields, ∃ t, exec (.calBridge f) s = .next t ∧ Turned s t 0x12 .calLocked) ∧
      ∀ f : CalZeroFields, ∃ t, exec (.calReferenceZero f) s = .next t ∧ Turned s t 0x13 .calLocked) ∧
    (s.metrology.closed = true → s.failing = true →
      (∀ d : Table 16 Byte, ∃ t, exec (.calDeckMap d) s = .next t ∧ Turned s t 0x10 .powerFail) ∧
      (∀ f : CalCellFields, ∃ t, exec (.calCell f) s = .next t ∧ Turned s t 0x11 .powerFail) ∧
      (∀ f : CalBridgeFields, ∃ t, exec (.calBridge f) s = .next t ∧ Turned s t 0x12 .powerFail) ∧
      ∀ f : CalZeroFields, ∃ t, exec (.calReferenceZero f) s = .next t ∧ Turned s t 0x13 .powerFail))

/-- R12, R35, R36: an accepted CAL_CELL writes the channel's zero and span and its calibrated mark, counts the
calibration, reports CAL_CHANGED and returns the zero of the channel's bridge to its reference; an accepted
CAL_REFERENCE_ZERO writes Z0, from the request or from the latest underlying-stable bridge sum, and sets Zb to it; a
source of CURRENT without underlying stability is refused with NOT_STABLE. Nothing else changes. -/
def Obligations.ChannelAndZeroCalibration : Prop :=
  (∀ (f : CalCellFields) (c : ChannelNo) (z : Int) (s : State), s.Ready → s.metrology.closed = true → s.failing = false →
    ofByte 16 f.channel = some c → 1 ≤ f.span.toNat → f.span.toNat ≤ 16777215 →
    ((f.source = 0 ∧ f.zero.toInt = z ∧ -8388608 ≤ z ∧ z ≤ 8388607) ∨
      (f.source = 1 ∧ (s.channel c).sample = some { counts := z, status := .ok } ∧ (s.channel c).fault = false ∧
        (s.channel c).age ≤ 2 * s.period)) →
    ∃ t, exec (.calCell f) s = .next t ∧ t.Answers 0x11 .ok (.cell c z f.span.toNat t.ret.calCounter) ∧
      t.ret.calCounter = succSkipZero s.ret.calCounter ∧
      t.channelCal c = { zero := z, span := f.span.toNat, calibrated := true } ∧
      (∀ o : ChannelNo, o ≠ c → t.channelCal o = s.channelCal o) ∧ t.ret.cal.bridges = s.ret.cal.bridges ∧
      (∀ b : BridgeNo, s.bridgeOfChannel c = some b →
        t.bridge b = { s.bridge b with zb := (s.bridgeCal b).z0, limitReported := false }) ∧
      (∀ b : BridgeNo, s.bridgeOfChannel c ≠ some b → t.bridge b = s.bridge b) ∧
      (s.link.reports.length < 32 →
        t.voiced = s.voiced ++ [.calChanged 0x11 t.ret.calCounter (some c.val)]) ∧
      SameBut [.receiver, .reply, .cal, .calCounter, .checkWord, .bridges, .reports] s t) ∧
  (∀ (f : CalCellFields) (s : State), s.Ready → s.metrology.closed = true → s.failing = false →
    ((16 ≤ f.channel.toNat ∨ 1 < f.source.toNat ∨ f.span.toNat < 1 ∨ 16777215 < f.span.toNat ∨
        (f.source = 0 ∧ (f.zero.toInt < -8388608 ∨ 8388607 < f.zero.toInt))) →
      ∃ t, exec (.calCell f) s = .next t ∧ Turned s t 0x11 .outOfRange) ∧
    (∀ c : ChannelNo, f.channel.toNat = c.val → f.source = 1 → 1 ≤ f.span.toNat → f.span.toNat ≤ 16777215 →
      ((s.channel c).sample = none ∨ 2 * s.period < (s.channel c).age ∨ (s.channel c).fault = true ∨
        (∃ x : Sample, (s.channel c).sample = some x ∧ x.status ≠ .ok)) →
      ∃ t, exec (.calCell f) s = .next t ∧ Turned s t 0x11 .notStable)) ∧
  (∀ (f : CalZeroFields) (s : State), s.Ready → s.metrology.closed = true → s.failing = false →
    4 ≤ f.bridge.toNat → ∃ t, exec (.calReferenceZero f) s = .next t ∧ Turned s t 0x13 .outOfRange) ∧
  (∀ (f : CalZeroFields) (b : BridgeNo) (s : State), s.Ready → s.metrology.closed = true → s.failing = false →
    ofByte 4 f.bridge = some b →
    (∀ z : Int, ((f.source = 0 ∧ z = f.zero.toInt) ∨
        (f.source = 1 ∧ (s.bridge b).underlying = true ∧ (s.bridge b).sum = some z)) →
      ∃ t, exec (.calReferenceZero f) s = .next t ∧ t.Answers 0x13 .ok (.referenceZero z t.ret.calCounter) ∧
        t.ret.calCounter = succSkipZero s.ret.calCounter ∧ t.bridgeCal b = { s.bridgeCal b with z0 := z } ∧
        t.bridge b = { s.bridge b with zb := z, limitReported := false } ∧
        (∀ o : BridgeNo, o ≠ b → t.bridgeCal o = s.bridgeCal o ∧ t.bridge o = s.bridge o) ∧
        t.ret.cal.channels = s.ret.cal.channels ∧
        SameBut [.receiver, .reply, .cal, .calCounter, .checkWord, .bridges, .reports] s t) ∧
    (f.source = 1 → (s.bridge b).underlying = false →
      ∃ t, exec (.calReferenceZero f) s = .next t ∧ Turned s t 0x13 .notStable) ∧
    (1 < f.source.toNat → ∃ t, exec (.calReferenceZero f) s = .next t ∧ Turned s t 0x13 .outOfRange))

/-- R34, R36: a CAL_BRIDGE past the gate of R11 is refused with OUT_OF_RANGE, and nothing changes, for a bad bridge or
deck number, a deck named twice, a member deck of another bridge, a d that is none of the six intervals, a Max that is
no multiple of d or lies outside 100d to 150,000,000 g, an L, M or band out of range, and a zr form that is neither a
number nor DEFAULT. Any other writes the bridge's calibration, keeping Z0, with zr as given, or for DEFAULT 2% of Max in
whole divisions, held at the 4% limit; it empties the filters of the decks that were or are its members, and counts the
calibration; where no lane of the bridge is at the end of a movement, the bridge is left NOT_READY with an empty window
and Zb at Z0, and CAL_CHANGED is queued. The model's choices: the member list as two deck bytes with 0xFF for none (log
entry 7), and DEFAULT with any zr number (log entry 31). -/
def Obligations.CalBridgeCalibratesTheBridge : Prop :=
  (∀ (f : CalBridgeFields) (b : BridgeNo) (members : List DeckNo) (s : State), s.Ready → s.metrology.closed = true →
    s.failing = false → f.bridge.toNat = b.val → ListedDecks f.first f.second members →
    (∀ d ∈ members, ∀ o : BridgeNo, o ≠ b → d ∉ (s.bridgeCal o).members) → SixIntervals f.interval.toNat →
    f.maximum.toNat % f.interval.toNat = 0 → 100 * f.interval.toNat ≤ f.maximum.toNat →
    f.maximum.toNat ≤ 150000000 →
    (f.filter.toNat = 1 ∨ f.filter.toNat = 2 ∨ f.filter.toNat = 4 ∨ f.filter.toNat = 8 ∨ f.filter.toNat = 16) →
    2 ≤ f.window.toNat → f.window.toNat ≤ 32 → f.band.toNat ≤ 5 * f.interval.toNat → f.zrForm.toNat ≤ 1 →
    ∃ t, exec (.calBridge f) s = .next t ∧ t.Answers 0x12 .ok (.bridgeCal (t.bridgeCal b) t.ret.calCounter) ∧
      t.ret.calCounter = succSkipZero s.ret.calCounter ∧ (t.bridgeCal b).members = members ∧
      (t.bridgeCal b).interval = f.interval.toNat ∧ (t.bridgeCal b).maximum = f.maximum.toNat ∧
      (t.bridgeCal b).filter = f.filter.toNat ∧ (t.bridgeCal b).window = f.window.toNat ∧
      (t.bridgeCal b).band = f.band.toNat ∧ (t.bridgeCal b).z0 = (s.bridgeCal b).z0 ∧
      ((t.bridgeCal b).calibrated = true ↔ members ≠ []) ∧
      (f.zrForm.toNat = 0 →
        (100 * (f.zr.toNat * f.interval.toNat) ≤ 4 * f.maximum.toNat → (t.bridgeCal b).zr = f.zr.toNat) ∧
        (4 * f.maximum.toNat < 100 * (f.zr.toNat * f.interval.toNat) →
          100 * ((t.bridgeCal b).zr * f.interval.toNat) ≤ 4 * f.maximum.toNat ∧
            4 * f.maximum.toNat < 100 * (((t.bridgeCal b).zr + 1) * f.interval.toNat))) ∧
      (f.zrForm.toNat = 1 →
        100 * ((t.bridgeCal b).zr * f.interval.toNat) ≤ 2 * f.maximum.toNat ∧
          2 * f.maximum.toNat < 100 * (((t.bridgeCal b).zr + 1) * f.interval.toNat)) ∧
      (∀ o : BridgeNo, o ≠ b → t.bridgeCal o = s.bridgeCal o) ∧ t.ret.cal.channels = s.ret.cal.channels ∧
      (∀ d : DeckNo, d ∈ (s.bridgeCal b).members ++ members →
        (t.deck d).history = [] ∧ (t.deck d).filtered = none ∧ (t.deck d).condition = (s.deck d).condition) ∧
      (∀ d : DeckNo, d ∉ (s.bridgeCal b).members ++ members → t.deck d = s.deck d) ∧
      ((∀ l ∈ s.listing b, (s.lane l).state ≠ .entering ∧ (s.lane l).state ≠ .leaving ∧
          (s.lane l).state ≠ .backingOut ∧ (s.lane l).state ≠ .passing) →
        (t.bridge b).state = .notReady ∧ (t.bridge b).window = [] ∧ (t.bridge b).run = 0 ∧
          (t.bridge b).zb = (s.bridgeCal b).z0 ∧ (t.bridge b).gross = none ∧
          (t.bridge b).backlog = (s.bridge b).backlog ∧ (∀ o : BridgeNo, o ≠ b → t.bridge o = s.bridge o) ∧
          (s.link.reports.length < 32 →
            t.voiced = s.voiced ++ [.calChanged 0x12 t.ret.calCounter (some b.val)]) ∧
          SameBut [.receiver, .reply, .cal, .calCounter, .checkWord, .decks, .bridges, .reports, .evaluations] s t)) ∧
  (∀ (f : CalBridgeFields) (s : State), s.Ready → s.metrology.closed = true → s.failing = false →
    (4 ≤ f.bridge.toNat ∨ (4 ≤ f.first.toNat ∧ f.first ≠ 0xFF) ∨ (4 ≤ f.second.toNat ∧ f.second ≠ 0xFF) ∨
      (f.first = f.second ∧ f.first ≠ 0xFF) ∨
      (∃ (b o : BridgeNo) (d : DeckNo), f.bridge.toNat = b.val ∧ (f.first.toNat = d.val ∨ f.second.toNat = d.val) ∧
        o ≠ b ∧ d ∈ (s.bridgeCal o).members) ∨
      ¬ SixIntervals f.interval.toNat ∨ f.maximum.toNat % f.interval.toNat ≠ 0 ∨
      f.maximum.toNat < 100 * f.interval.toNat ∨ 150000000 < f.maximum.toNat ∨
      (f.filter.toNat ≠ 1 ∧ f.filter.toNat ≠ 2 ∧ f.filter.toNat ≠ 4 ∧ f.filter.toNat ≠ 8 ∧ f.filter.toNat ≠ 16) ∨
      f.window.toNat < 2 ∨ 32 < f.window.toNat ∨ 5 * f.interval.toNat < f.band.toNat ∨ 1 < f.zrForm.toNat) →
    ∃ t, exec (.calBridge f) s = .next t ∧ Turned s t 0x12 .outOfRange)

/-- R5, R9, R11, R23, R25, R36: an accepted CAL_DECK_MAP writes the map; a channel whose assignment changes starts
without a sample and with clear flags, its stall timer running only if it is assigned; a deck whose channels change
holds no F, and its channels are all awaited until their next arrival (a mark that is the model's reading, log entry
43); a bridge of such a deck returns Zb to Z0, which ends a limit episode, empties its window and is evaluated at once:
NOT_READY, stable run 0, a capture on it with NOT_READY as its blocking condition. CAL_CHANGED is queued, and where no
lane is at the end of a movement nothing else changes. R9, R11: past the gate, an assignment that is neither a deck
number nor UNUSED, or a deck given more than four channels, is refused with OUT_OF_RANGE and changes nothing. -/
def Obligations.CalDeckMapReassignsChannels : Prop :=
  (∀ (decks : Table 16 Byte) (s : State), s.Ready → s.metrology.closed = true → s.failing = false →
    ((∃ c : ChannelNo, 4 ≤ (decks.read c).toNat ∧ decks.read c ≠ 0xFF) ∨
      (∃ d : DeckNo, 4 < (allSixteen.filter (fun c => (decks.read c).toNat == d.val)).length)) →
    ∃ t, exec (.calDeckMap decks) s = .next t ∧ Turned s t 0x10 .outOfRange) ∧
  (∀ (decks : Table 16 Byte) (map : Table 16 (Option DeckNo)) (s : State), s.Ready → s.metrology.closed = true →
    s.failing = false →
    (∀ c : ChannelNo, (decks.read c = 0xFF ∧ map.read c = none) ∨
      ∃ d : DeckNo, (decks.read c).toNat = d.val ∧ map.read c = some d) →
    (∀ d : DeckNo, (allSixteen.filter (fun c => (decks.read c).toNat == d.val)).length ≤ 4) →
    ∃ t, exec (.calDeckMap decks) s = .next t ∧ t.Answers 0x10 .ok (.deckMap map.toList t.ret.calCounter) ∧
      t.ret.calCounter = succSkipZero s.ret.calCounter ∧ t.ret.site = { s.ret.site with deckMap := map } ∧
      t.ret.cal = s.ret.cal ∧
      (∀ c : ChannelNo, map.read c ≠ s.deckOf c →
        (t.channel c).sample = none ∧ (t.channel c).age = 65535 ∧ (t.channel c).fault = false ∧
          (t.channel c).stall = false ∧ (t.channel c).receiver = (s.channel c).receiver ∧
          (t.channel c).stallTimer = if (map.read c).isSome then some (4 * s.period) else none) ∧
      (∀ c : ChannelNo, map.read c = s.deckOf c →
        t.channel c = { s.channel c with awaited := (t.channel c).awaited }) ∧
      (∀ (c : ChannelNo) (d : DeckNo), map.read c = some d →
        ((∃ o : ChannelNo, ¬ (map.read o = some d ↔ s.deckOf o = some d)) → (t.channel c).awaited = true) ∧
        ((∀ o : ChannelNo, map.read o = some d ↔ s.deckOf o = some d) →
          (t.channel c).awaited = (s.channel c).awaited)) ∧
      (∀ c : ChannelNo, map.read c = none →
        (t.channel c).awaited = if s.deckOf c = none then (s.channel c).awaited else false) ∧
      (∀ d : DeckNo, (∃ c : ChannelNo, ¬ (map.read c = some d ↔ s.deckOf c = some d)) →
        (t.deck d).history = [] ∧ (t.deck d).filtered = none ∧ (t.deck d).freshness = none ∧
          ((t.deck d).condition = .stale ∨ (t.deck d).condition = .noChannels) ∧
          ((t.deck d).condition = .noChannels ↔ ∀ c : ChannelNo, map.read c ≠ some d)) ∧
      (∀ d : DeckNo, (∀ c : ChannelNo, map.read c = some d ↔ s.deckOf c = some d) → t.deck d = s.deck d) ∧
      ((∀ b : BridgeNo, s.NoCrossing b) →
        (∀ b : BridgeNo, (∃ d ∈ (s.bridgeCal b).members, ∃ c : ChannelNo,
            ¬ (map.read c = some d ↔ s.deckOf c = some d)) →
          t.bridge b =
            { s.bridge b with
              zb := (s.bridgeCal b).z0, limitReported := false, window := [], sum := none, gross := none, weight := none,
              state := .notReady, underlying := false, run := 0,
              capture := (s.bridge b).capture.map (fun k => { k with blocking := .notReady }) }) ∧
        (∀ b : BridgeNo, (∀ d ∈ (s.bridgeCal b).members, ∀ c : ChannelNo,
            (map.read c = some d ↔ s.deckOf c = some d)) → t.bridge b = s.bridge b) ∧
        (s.link.reports.length < 32 → t.voiced = s.voiced ++ [.calChanged 0x10 t.ret.calCounter none]) ∧
        SameBut [.receiver, .reply, .site, .calCounter, .checkWord, .channels, .decks, .bridges, .reports,
          .evaluations] s t))

/-! ### Lanes, barriers and bridges by request -/

/-- R117, R82, R121, R126, R153: an ARRIVAL at an inbound lane is refused with ALREADY_ON_SITE for a tag on a visit,
waits in SITE_FULL for a full visit table, and is refused with STREAM_NOT_PERMITTED for a disabled stream, in this
order; a refused tag is recorded, or the overflow flag is set. R118, R133, R134: a tag that no cache entry covers sends
a query under a number no ACTIVE slot holds, and the lane goes to ADMITTING. Which of visit number, query number and
reason the reply carries in each lane state is the model's reading (log entry 30). -/
def Obligations.InboundArrivalIsJudgedInOrder : Prop :=
  (∀ (x y : Byte) (l : LaneNo) (k : StreamNo) (tag : Word) (s : State), s.Ready → ofByte 4 x = some l →
    ofByte 16 y = some k → s.failing = false → ((s.lane l).state = .awaitId ∨ (s.lane l).state = .noId) →
    (s.config l).role = .inbound →
    (∀ r : RefusalReason,
      (((s.visitOfTag tag).isSome = true ∧ r = .alreadyOnSite) ∨
        (s.visitOfTag tag = none ∧ s.ret.visits.records.length < 64 ∧ (s.stream k).enabled = false ∧
          r = .streamNotPermitted)) →
      ∃ t, exec (.arrival x tag y) s = .next t ∧
        t.Answers 0x18 .ok (.arrival .refused none none (some (.refusal r))) ∧ (t.lane l).state = .refused ∧
        (t.lane l).lastReason = some (.refusal r) ∧ (t.lane l).signal = .red ∧
        ((∃ (i : Fin 8) (q : RefusalRecord), t.adm.records.read i = some q ∧ q.tag = tag) ∨ t.adm.overflow = true) ∧
        (∀ m : LaneNo, m ≠ l → t.lane m = s.lane m) ∧
        SameBut [.receiver, .reply, .lanes, .refusals, .reports, .checkWord] s t) ∧
    (s.visitOfTag tag = none → 64 ≤ s.ret.visits.records.length →
      ∃ t, exec (.arrival x tag y) s = .next t ∧ t.Answers 0x18 .ok (.arrival .siteFull none none none) ∧
        (t.lane l).state = .siteFull ∧ (t.lane l).identity = some { tag := tag, stream := k } ∧
        t.siteFull = (if s.siteFull.contains l then s.siteFull else s.siteFull ++ [l]) ∧
        (∀ m : LaneNo, m ≠ l → t.lane m = s.lane m) ∧
        SameBut [.receiver, .reply, .lanes, .siteFull, .reports, .checkWord] s t)) ∧
  (∀ (x y : Byte) (l : LaneNo) (k : StreamNo) (tag : Word) (s : State), s.Ready → ofByte 4 x = some l →
    ofByte 16 y = some k → s.failing = false → ((s.lane l).state = .awaitId ∨ (s.lane l).state = .noId) →
    (s.config l).role = .inbound → s.visitOfTag tag = none → s.ret.visits.records.length < 64 →
    (s.stream k).enabled = true → s.adm.search tag = none →
    ∃ t n, exec (.arrival x tag y) s = .next t ∧ t.Answers 0x18 .ok (.arrival .admitting none (some n) none) ∧
      (t.lane l).state = .admitting ∧ (t.lane l).identity = some { tag := tag, stream := k } ∧
      (t.lane l).query = some n ∧ (t.lane l).signal = .red ∧ (t.lane l).identityTimer = .stopped ∧
      t.slot l = { state := .active, number := n, tag := tag, stream := k,
                   deadline := .running (s.timers.query * 1000), noInstall := false, held := none, provisional := none } ∧
      t.link.queries.read l = some { number := n, tag := tag, lane := l } ∧ t.adm.queryCounter = succQuery n ∧
      (∀ m : LaneNo, (s.slot m).state = .active → (s.slot m).number ≠ n) ∧
      (∀ m : LaneNo, m ≠ l → t.lane m = s.lane m) ∧
      SameBut [.receiver, .reply, .lanes, .queries, .queryFrames, .reports, .checkWord] s t)

/-- R115, R118, R119, R147, R85: an ARRIVAL that an admitting cache entry covers creates a visit under a new number; the
entry's bucket becomes 3, and the lane waits for its bridge or enters with the grant. That the reply carries the visit
number, and no query number or reason, in AWAIT_BRIDGE and ENTERING is the model's reading (log entry 30). -/
def Obligations.ArrivalOnAHitCreatesAVisit : Prop :=
  ∀ (x y : Byte) (l : LaneNo) (k : StreamNo) (tag : Word) (i : Fin 48) (p : Permit) (s : State), s.Ready →
    ofByte 4 x = some l → ofByte 16 y = some k → s.failing = false →
    ((s.lane l).state = .awaitId ∨ (s.lane l).state = .noId) → (s.config l).role = .inbound →
    s.visitOfTag tag = none → s.ret.visits.records.length < 64 → (s.stream k).enabled = true →
    s.adm.search tag = some i → s.adm.permit i = some p → p.stopped = false → p.streams.getLsbD k.val = true →
    ((s.stream k).minCharge : Int) ≤ p.credit →
    ∃ t v, exec (.arrival x tag y) s = .next t ∧
      t.Answers 0x18 .ok (.arrival (t.lane l).state (some v.number) none none) ∧ v ∈ t.ret.visits.records ∧
      v.tag = tag ∧ v.account = p.account ∧ v.stream = k ∧ v.state = .admitted ∧ v.provisional = false ∧
      v.storedTare = p.storedTare ∧ v.entryLane = l ∧ v.currentLane = some l ∧ v.arrival = s.ret.clock ∧
      v.first = none ∧ v.pending = none ∧
      (∀ u ∈ s.ret.visits.records, u ∈ t.ret.visits.records ∧ u.number ≠ v.number) ∧
      t.ret.visits.records.length = s.ret.visits.records.length + 1 ∧ t.ret.visits.counter = succVisit v.number ∧
      (t.lane l).visit = some v.number ∧ (t.lane l).identity = some { tag := tag, stream := k } ∧
      ((t.lane l).state = .awaitBridge ∨ (t.lane l).state = .entering) ∧
      ((t.lane l).state = .entering →
        (t.lane l).signal = .green ∧ ∃ b : BridgeNo, (s.config l).bridge = some b ∧ (t.grant b).holder = some l) ∧
      t.adm.permit i = some { p with bucket := 3 } ∧ (∀ j : Fin 48, j ≠ i → t.adm.permit j = s.adm.permit j) ∧
      SameBut [.receiver, .reply, .lanes, .barriers, .grants, .visits, .cache, .reports, .checkWord] s t

/-- R83, R84, R85: an ARRIVAL at an outbound lane takes up an ON_SITE or TICKETED visit that no other lane holds, and
one at a bypass lane a TICKETED visit, which becomes EXITING while the lane shows GREEN; other tags are refused:
NO_VISIT, ALREADY_IN_LANE for a visit at another lane, NOT_TICKETED for one in another state. Which of visit number and
reason the reply carries in each lane state is the model's reading (log entry 30). -/
def Obligations.ArrivalAtOutboundAndBypassLanes : Prop :=
  ∀ (x y : Byte) (l : LaneNo) (k : StreamNo) (tag : Word) (s : State), s.Ready → ofByte 4 x = some l →
    ofByte 16 y = some k → s.failing = false → ((s.lane l).state = .awaitId ∨ (s.lane l).state = .noId) →
    (∀ v : Visit, (s.config l).role = .outbound → s.visitOfTag tag = some v →
      (v.currentLane = none ∨ v.currentLane = some l) → (v.state = .onSite ∨ v.state = .ticketed) →
      ∃ t, exec (.arrival x tag y) s = .next t ∧
        t.Answers 0x18 .ok (.arrival (t.lane l).state (some v.number) none none) ∧
        t.visitOfTag tag = some { v with currentLane := some l } ∧ (t.lane l).visit = some v.number ∧
        ((t.lane l).state = .awaitBridge ∨ (t.lane l).state = .entering) ∧
        SameBut [.receiver, .reply, .lanes, .barriers, .grants, .visits, .reports, .checkWord] s t) ∧
    (∀ v : Visit, (s.config l).role = .bypass → s.visitOfTag tag = some v →
      (v.currentLane = none ∨ v.currentLane = some l) → v.state = .ticketed →
      ∃ t, exec (.arrival x tag y) s = .next t ∧ t.Answers 0x18 .ok (.arrival .passing (some v.number) none none) ∧
        t.visitOfTag tag = some { v with currentLane := some l, state := .exiting } ∧
        (t.lane l).state = .passing ∧ (t.lane l).signal = .green ∧ (t.lane l).visit = some v.number ∧
        (∀ b : BarrierNo, (s.config l).front = some b →
          (t.lane l).frontMark = (if (s.barrier b).occupied then .seen else .none) ∧
          ((s.barrier b).state = .down → (t.barrier b).state = .raising)) ∧
        (∀ b : BarrierNo, (s.config l).front ≠ some b → t.barrier b = s.barrier b) ∧
        (∀ m : LaneNo, m ≠ l → t.lane m = s.lane m) ∧
        SameBut [.receiver, .reply, .lanes, .barriers, .visits, .reports, .checkWord] s t) ∧
    (∀ r : RefusalReason,
      (((s.config l).role = .outbound ∧ s.visitOfTag tag = none ∧ r = .noVisit) ∨
        (∃ v m, (s.config l).role = .outbound ∧ s.visitOfTag tag = some v ∧ v.currentLane = some m ∧ m ≠ l ∧
          r = .alreadyInLane) ∨
        (∃ v, (s.config l).role = .outbound ∧ s.visitOfTag tag = some v ∧
          (v.currentLane = none ∨ v.currentLane = some l) ∧ v.state ≠ .onSite ∧ v.state ≠ .ticketed ∧
          r = .notTicketed) ∨
        ((s.config l).role = .bypass ∧ (∀ v, s.visitOfTag tag = some v → v.state ≠ .ticketed) ∧ r = .notTicketed) ∨
        (∃ v m, (s.config l).role = .bypass ∧ s.visitOfTag tag = some v ∧ v.state = .ticketed ∧
          v.currentLane = some m ∧ m ≠ l ∧ r = .alreadyInLane)) →
      ∃ t, exec (.arrival x tag y) s = .next t ∧
        t.Answers 0x18 .ok (.arrival .refused none none (some (.refusal r))) ∧ (t.lane l).state = .refused ∧
        (t.lane l).lastReason = some (.refusal r) ∧
        SameBut [.receiver, .reply, .lanes, .refusals, .reports, .checkWord] s t)

/-- R95, R96: LANE_TAKEOVER leaves a lane in MANUAL or TAKEOVER_PENDING as it is; a lane with a moving barrier waits in
TAKEOVER_PENDING with its timers stopped; any other lane enters MANUAL with its items cleared and its signal RED. R96,
R152: its capture is cancelled, its grant released, and its visit treated by its state: ADMITTED and WEIGHING_IN are
removed, WEIGHING_OUT becomes ON_SITE (keeping its current lane, the model's reading, log entry 35), the others lose
their current lane and EXITING becomes TICKETED; TAKEOVER_GRANTED says so. R97, R61: LANE_RELEASE takes a lane out of
MANUAL, to LANE_FAULT with a barrier in FAULT, else to IDLE or, over an occupied approach loop, to AWAIT_ID; it gives
LOWER to each of its barriers but those shared with a lane that holds a grant, and the reply names those skipped. -/
def Obligations.TakeoverAndReleaseOfALane : Prop :=
  (∀ (x : Byte) (l : LaneNo) (s : State), s.Ready → ofByte 4 x = some l → s.failing = false →
      (((s.lane l).state = .manual ∨ (s.lane l).state = .takeoverPending) →
        ∃ t, exec (.laneTakeover x) s = .next t ∧ t.Answers 0x19 .ok (.laneState (s.lane l).state) ∧
          SameBut [.receiver, .reply, .checkWord] s t) ∧
      ((s.lane l).state ≠ .manual → (s.lane l).state ≠ .takeoverPending → s.laneMoving l = true →
        ∃ t, exec (.laneTakeover x) s = .next t ∧ t.Answers 0x19 .ok (.laneState .takeoverPending) ∧
          (t.lane l).state = .takeoverPending ∧ (t.lane l).identityTimer = .stopped ∧ (t.lane l).entryTimer = .stopped ∧
          (t.lane l).identity = (s.lane l).identity ∧ (t.lane l).visit = (s.lane l).visit ∧ (t.lane l).signal = .red ∧
          (∀ m : LaneNo, m ≠ l → t.lane m = s.lane m) ∧
          SameBut [.receiver, .reply, .lanes, .queries, .siteFull, .grants, .reports, .checkWord] s t) ∧
      ((s.lane l).state ≠ .manual → (s.lane l).state ≠ .takeoverPending → s.laneMoving l = false →
        ∃ t, exec (.laneTakeover x) s = .next t ∧ t.Answers 0x19 .ok (.laneState .manual) ∧
          (t.lane l).state = .manual ∧ (t.lane l).identity = none ∧ (t.lane l).visit = none ∧ (t.lane l).query = none ∧
          (t.lane l).frontMark = .none ∧ (t.lane l).rearMark = .none ∧ (t.lane l).entered = false ∧
          (t.lane l).signal = .red ∧
          SameBut [.receiver, .reply, .lanes, .queries, .queryFrames, .siteFull, .grants, .barriers, .bridges, .visits,
            .refusals, .cache, .reports, .checkWord] s t ∧
          (s.siteFull = [] → (∀ b : BridgeNo, ∀ m ∈ (s.grant b).waiting, m = l ∧ (s.lane l).state = .awaitBridge) →
            (∀ (b : BridgeNo) (k : Capture), (s.bridge b).capture = some k → k.lane = l →
              (∀ o : BridgeNo, o ≠ b → (s.bridge o).capture.all (fun j => j.lane != l) = true) →
              (t.bridge b).capture = none) ∧
            (∀ b : BridgeNo, (s.config l).bridge = some b → (t.grant b).holder ≠ some l) ∧
            (∀ m : LaneNo, m ≠ l → t.lane m = s.lane m) ∧
            ∃ (after : Option VisitState) (cancelled : Bool),
              (s.link.reports.length < 32 →
                t.voiced = s.voiced ++ [.takeoverGranted
                  { lane := l, from_ := (s.lane l).state, visit := (s.lane l).visit, after := after,
                    cancelled := cancelled, clock := s.ret.clock }]) ∧
              (cancelled = true ↔ ∃ (b : BridgeNo) (k : Capture), (s.bridge b).capture = some k ∧ k.lane = l) ∧
              ((s.lane l).visit = none → after = none ∧ t.ret.visits = s.ret.visits) ∧
              ∀ (n : Nat) (v : Visit), (s.lane l).visit = some n → s.visitOf n = some v →
                (v.state = .admitted ∨ v.state = .weighingIn →
                  after = none ∧ t.ret.visits.records = s.ret.visits.records.filter (fun w => w.number ≠ n)) ∧
                (v.state = .weighingOut → after = some .onSite ∧ t.visitOf n = some { v with state := .onSite }) ∧
                (v.state = .onSite ∨ v.state = .ticketPending ∨ v.state = .ticketed →
                  after = some v.state ∧ t.visitOf n = some { v with currentLane := none }) ∧
                (v.state = .exiting →
                  after = some .ticketed ∧ t.visitOf n = some { v with state := .ticketed, currentLane := none })))) ∧
  (∀ (x : Byte) (l : LaneNo) (s : State), s.Ready → ofByte 4 x = some l → s.failing = false →
      ((s.lane l).state = .manual →
        ∃ t skipped, exec (.laneRelease x) s = .next t ∧ t.Answers 0x1A .ok (.laneReleased (t.lane l).state skipped) ∧
          (∀ b : BarrierNo, b ∈ skipped ↔
            (((s.config l).front = some b ∨ (s.config l).rear = some b) ∧ s.heldByOther l b = true)) ∧
          (∀ b : BarrierNo, ((s.config l).front = some b ∨ (s.config l).rear = some b) → b ∉ skipped →
            t.barrier b = (s.barrier b).lower s.motionTime) ∧
          (∀ b : BarrierNo, (b ∈ skipped ∨ ((s.config l).front ≠ some b ∧ (s.config l).rear ≠ some b)) →
            t.barrier b = s.barrier b) ∧
          ((∃ b : BarrierNo, ((s.config l).front = some b ∨ (s.config l).rear = some b) ∧ (s.barrier b).state = .fault) →
            (t.lane l).state = .laneFault) ∧
          ((∀ b : BarrierNo, ((s.config l).front = some b ∨ (s.config l).rear = some b) → (s.barrier b).state ≠ .fault) →
            (t.lane l).state =
              if (s.config l).role ≠ .none ∧ s.approachOccupied l = true then .awaitId else .idle) ∧
          (∀ m : LaneNo, m ≠ l → t.lane m = s.lane m) ∧
          SameBut [.receiver, .reply, .lanes, .barriers, .reports] s t) ∧
      ((s.lane l).state ≠ .manual → ∃ t, exec (.laneRelease x) s = .next t ∧ Turned s t 0x1A .laneBusy))

/-- R91, R43, R92, R78: in CAPTURE_FAILED, LANE_RETRY starts a new capture for the lane visit and goes to WEIGHING, and
LANE_BACKOUT raises the front barrier and goes to BACKING_OUT; in any other state both are refused with LANE_BUSY. -/
def Obligations.RetryAndBackoutAfterAFailure : Prop :=
  ∀ (x : Byte) (l : LaneNo) (s : State), s.Ready → ofByte 4 x = some l → s.failing = false →
    (∀ (b : BridgeNo) (n : Nat), (s.lane l).state = .captureFailed → (s.config l).bridge = some b →
      (s.lane l).visit = some n → (s.grant b).holder = some l → (s.bridge b).capture = none →
      ∃ t, exec (.laneRetry x) s = .next t ∧ t.Answers 0x1B .ok (.laneState .weighing) ∧ (t.lane l).state = .weighing ∧
        (t.bridge b).capture = some
          { visit := n, lane := l, start := s.ret.clock, timeout := (s.timing b).captureTimeout,
            deadline := (s.timing b).captureTimeout * 1000, blocking := .notReady } ∧
        { t.bridge b with capture := none } = s.bridge b ∧
        (∀ o : BridgeNo, o ≠ b → t.bridge o = s.bridge o) ∧
        (∀ v : Visit, s.visitOf n = some v → v.state = .admitted →
          t.visitOf n = some { v with state := .weighingIn }) ∧
        (∀ v : Visit, s.visitOf n = some v → v.state = .onSite → t.visitOf n = some { v with state := .weighingOut }) ∧
        (t.lane l).frontMark = (s.lane l).frontMark ∧ (t.lane l).entryTimer = (s.lane l).entryTimer ∧
        (∀ m : LaneNo, m ≠ l → t.lane m = s.lane m) ∧
        SameBut [.receiver, .reply, .lanes, .bridges, .visits, .reports, .checkWord] s t) ∧
    ((s.lane l).state = .captureFailed →
      ∃ t, exec (.laneBackout x) s = .next t ∧ t.Answers 0x1C .ok (.laneState .backingOut) ∧
        (t.lane l).state = .backingOut ∧ (t.lane l).signal = .red ∧
        (∀ b : BarrierNo, (s.config l).front = some b →
          t.barrier b = (s.barrier b).raise s.motionTime ∧
            (t.lane l).frontMark = if (s.barrier b).occupied then .seen else .none) ∧
        (∀ b : BarrierNo, (s.config l).front ≠ some b → t.barrier b = s.barrier b) ∧
        (∀ m : LaneNo, m ≠ l → t.lane m = s.lane m) ∧
        SameBut [.receiver, .reply, .lanes, .barriers, .reports] s t) ∧
    ((s.lane l).state ≠ .captureFailed →
      (∃ t, exec (.laneRetry x) s = .next t ∧ Turned s t 0x1B .laneBusy) ∧
        ∃ t, exec (.laneBackout x) s = .next t ∧ Turned s t 0x1C .laneBusy)

/-- R60, R61, R67: BARRIER_COMMAND from a lane in MANUAL gives RAISE or LOWER to a barrier the lane names, by the tables
of the two commands, unless the barrier is shared with a lane that holds a grant. -/
def Obligations.BarrierCommandsMoveTheArm : Prop :=
  ∀ (x y : Byte) (l : LaneNo) (b : BarrierNo) (s : State), s.Ready → ofByte 4 x = some l → ofByte 8 y = some b →
    ((s.config l).front = some b ∨ (s.config l).rear = some b) → (s.lane l).state = .manual → s.failing = false →
    (s.heldByOther l b = false →
      (∃ t e, exec (.barrierCommand x y 0) s = .next t ∧ t.Answers 0x1E .ok (.barrier e) ∧ e.barrier = b ∧
        e.state = (t.barrier b).state ∧
        ((s.barrier b).state = .down →
          t.barrier b = { s.barrier b with state := .raising, motionTimer := some (s.timers.motion * 1000) }) ∧
        ((s.barrier b).state = .lowering →
          t.barrier b =
            { s.barrier b with
              state := .raising, motionTimer := some (s.timers.motion * 1000), pendingLower := false }) ∧
        ((s.barrier b).state = .up → t.barrier b = { s.barrier b with pendingLower := false }) ∧
        (((s.barrier b).state = .raising ∨ (s.barrier b).state = .fault) → t.barrier b = s.barrier b) ∧
        (∀ o : BarrierNo, o ≠ b → t.barrier o = s.barrier o) ∧ SameBut [.receiver, .reply, .barriers] s t) ∧
      (∃ t e, exec (.barrierCommand x y 1) s = .next t ∧ t.Answers 0x1E .ok (.barrier e) ∧ e.barrier = b ∧
        e.state = (t.barrier b).state ∧
        ((s.barrier b).state = .up → (s.barrier b).occupied = false →
          t.barrier b =
            { s.barrier b with
              state := .lowering, motionTimer := some (s.timers.motion * 1000), pendingLower := false }) ∧
        ((s.barrier b).state = .up → (s.barrier b).occupied = true →
          t.barrier b = { s.barrier b with pendingLower := true }) ∧
        ((s.barrier b).state = .raising → t.barrier b = { s.barrier b with pendingLower := true }) ∧
        (((s.barrier b).state = .down ∨ (s.barrier b).state = .lowering ∨ (s.barrier b).state = .fault) →
          t.barrier b = s.barrier b) ∧
        (∀ o : BarrierNo, o ≠ b → t.barrier o = s.barrier o) ∧ SameBut [.receiver, .reply, .barriers] s t)) ∧
    (s.heldByOther l b = true → ∀ command : Byte, command.toNat ≤ 1 →
      ∃ t, exec (.barrierCommand x y command) s = .next t ∧ Turned s t 0x1E .sharedBarrier)

/-- R66: BARRIER_RESET does nothing to a barrier that is not in FAULT; a barrier in FAULT goes where its two switches
show it, or stays in FAULT with the reason they give. -/
def Obligations.BarrierResetReadsTheSwitches : Prop :=
  ∀ (y : Byte) (b : BarrierNo) (s : State), s.Ready → ofByte 8 y = some b →
    ((s.barrier b).state ≠ .fault →
      ∃ t e, exec (.barrierReset y) s = .next t ∧ t.Answers 0x1F .ok (.barrier e) ∧ e.barrier = b ∧
        e.state = (s.barrier b).state ∧ SameBut [.receiver, .reply] s t) ∧
    ((s.barrier b).state = .fault → (s.barrier b).upActive = (s.barrier b).downActive →
      ∃ t e, exec (.barrierReset y) s = .next t ∧ t.Answers 0x1F .ok (.barrier e) ∧ e.state = .fault ∧
        t.barrier b =
          { s.barrier b with
            pendingLower := false,
            reason := if (s.barrier b).upActive then .switchConflict else .unknownPosition } ∧
        (∀ o : BarrierNo, o ≠ b → t.barrier o = s.barrier o) ∧ SameBut [.receiver, .reply, .barriers] s t) ∧
    ((s.barrier b).state = .fault → (s.barrier b).upActive ≠ (s.barrier b).downActive →
      (∀ l ∈ s.lanesNaming b, (s.lane l).state = .laneFault ∨ (s.lane l).state = .manual) →
      ∃ t e, exec (.barrierReset y) s = .next t ∧ t.Answers 0x1F .ok (.barrier e) ∧ e.state = (t.barrier b).state ∧
        t.barrier b =
          { s.barrier b with
            state := if (s.barrier b).upActive then .up else .down, pendingLower := false, reason := .none } ∧
        (∀ o : BarrierNo, o ≠ b → t.barrier o = s.barrier o) ∧ SameBut [.receiver, .reply, .barriers, .checkWord] s t)

/-- R31: ZERO_NOW is refused while a lane holds the grant, while the bridge is not STABLE, and where the new zero would
leave its range; else it takes the zero, sets the backlog to 0 and restarts the zero timer; that the difference in its
reply is Zb less Z0 with its sign is the model's choice (log entry 65). R32: ZERO_WAIVE sets the backlog to 0, leaves Zb
unchanged, sets the zero-waived flag and restarts the zero timer, whatever the bridge state and the power-fail input.
R15: CHANNEL_CLEAR clears the stall flag of the selected channel, or of all sixteen, touches nothing else, and lists the
channels whose flag was set; that ALL is taken whatever number stands beside it is the model's choice (log entry 31). -/
def Obligations.ZeroAndStallRequests : Prop :=
  (∀ (x : Byte) (b : BridgeNo) (s : State), s.Ready → ofByte 4 x = some b →
    ((s.grant b).holder.isSome = true → ∃ t, exec (.zeroNow x) s = .next t ∧ Turned s t 0x21 .bridgeHeld) ∧
    ((s.grant b).holder = none → (s.bridge b).state ≠ .stable →
      ∃ t, exec (.zeroNow x) s = .next t ∧ Turned s t 0x21 .notStable) ∧
    (∀ g : Int, (s.grant b).holder = none → (s.bridge b).state = .stable → (s.bridge b).gross = some g →
      (s.bridgeCal b).zeroInRange ((s.bridge b).zb + g) = false →
      ∃ t, exec (.zeroNow x) s = .next t ∧ Turned s t 0x21 .zeroRange) ∧
    (∀ g : Int, (s.grant b).holder = none → (s.bridge b).state = .stable → (s.bridge b).gross = some g →
      (s.bridgeCal b).zeroInRange ((s.bridge b).zb + g) = true →
      ∃ t, exec (.zeroNow x) s = .next t ∧
        t.Answers 0x21 .ok (.zeroTaken ((s.bridge b).zb + g) (s.bridgeCal b).z0
          ((s.bridge b).zb + g - (s.bridgeCal b).z0)) ∧
        t.bridge b =
          { s.bridge b with
            zb := (s.bridge b).zb + g, backlog := 0, waived := false, limitReported := false,
            zeroTimer := (s.timing b).zeroInterval * 1000 } ∧
        (∀ o : BridgeNo, o ≠ b → t.bridge o = s.bridge o) ∧
        SameBut [.receiver, .reply, .bridges, .grants, .lanes, .barriers, .reports] s t ∧
        ((s.grant b).waiting = [] → SameBut [.receiver, .reply, .bridges] s t))) ∧
  ((∀ (x : Byte) (b : BridgeNo) (s : State), s.Ready → ofByte 4 x = some b →
    ∃ t, exec (.zeroWaive x) s = .next t ∧
      t.Answers 0x22 .ok (.zeroWaived (s.bridge b).zb (s.bridgeCal b).z0 (s.bridge b).backlog) ∧
      t.bridge b =
        { s.bridge b with
          backlog := 0, waived := true, limitReported := false, zeroTimer := (s.timing b).zeroInterval * 1000 } ∧
      (∀ o : BridgeNo, o ≠ b → t.bridge o = s.bridge o) ∧
      SameBut [.receiver, .reply, .bridges, .grants, .lanes, .barriers, .reports] s t ∧
      ((s.grant b).waiting = [] → SameBut [.receiver, .reply, .bridges] s t)) ∧
  (∀ (x : Byte) (s : State), s.Ready → ofByte 4 x = none →
    (∃ t, exec (.zeroNow x) s = .next t ∧ Turned s t 0x21 .outOfRange) ∧
      ∃ t, exec (.zeroWaive x) s = .next t ∧ Turned s t 0x22 .outOfRange)) ∧
  (∀ (x : Selector) (s : State), s.Ready →
    (∀ c : ChannelNo, selectOf 16 x = some (.one c) →
      ∃ t cs, exec (.channelClear x) s = .next t ∧ t.Answers 0x24 .ok (.stallsCleared cs) ∧
        (∀ o : ChannelNo, o ∈ cs ↔ (o = c ∧ (s.channel c).stall = true)) ∧
        t.channel c = { s.channel c with stall := false } ∧ (∀ o : ChannelNo, o ≠ c → t.channel o = s.channel o) ∧
        SameBut [.receiver, .reply, .channels] s t) ∧
    (selectOf 16 x = some .all →
      ∃ t cs, exec (.channelClear x) s = .next t ∧ t.Answers 0x24 .ok (.stallsCleared cs) ∧
        (∀ o : ChannelNo, o ∈ cs ↔ (s.channel o).stall = true) ∧
        (∀ o : ChannelNo, t.channel o = { s.channel o with stall := false }) ∧
        SameBut [.receiver, .reply, .channels] s t) ∧
    (selectOf 16 x = none → ∃ t, exec (.channelClear x) s = .next t ∧ Turned s t 0x24 .outOfRange))

/-! ### Permits, queries and refusals -/

/-- R136, R137, R122, R142, R118, R119: a timely ENTRY answer is installed with bucket 3, in the slot of its prefix and
length, else the lowest free slot, else the lowest slot of the lowest bucket, its credit and STOPPED copied into the
other entries of its account and nothing else changed in any entry, unless an invalidation marked the slot no-install;
it frees its query slot and decides the vehicle by the tests of R118 in order: ACCOUNT_STOPPED, STREAM_NOT_PERMITTED,
CREDIT, then ALREADY_ON_SITE for a tag on a visit; one that admits waits in SITE_FULL for a full visit table (R120,
R153), else creates the visit, and the lane waits for its bridge or enters with the grant. R136, R137, R138, R141: an
UNKNOWN_TAG answer refuses the vehicle and installs nothing; under power fail a timely answer is installed and held; a
late answer for no provisional visit is installed and answered LATE; an answer that no slot awaits is refused with
NO_SUCH_QUERY, and an entry that does not cover the tag with OUT_OF_RANGE. -/
def Obligations.AnswersToQueries : Prop :=
  (∀ (f : PermitAnswerFields) (l : LaneNo) (p : Permit) (s : State), s.Ready → s.failing = false →
      answerOf f = .ok (.entry p) → s.adm.slotHolding f.number.toNat f.tag = some l → p.covers f.tag = true →
      (s.slot l).state = .active →
      (∀ why : RefusalReason, (s.lane l).state ≠ .refused →
        ((p.stopped = true ∧ why = .accountStopped) ∨
          (p.stopped = false ∧ p.streams.getLsbD (s.slot l).stream.val = false ∧ why = .streamNotPermitted) ∨
          (p.stopped = false ∧ p.streams.getLsbD (s.slot l).stream.val = true ∧
            p.credit < (s.stream (s.slot l).stream).minCharge ∧ why = .credit) ∨
          (p.stopped = false ∧ p.streams.getLsbD (s.slot l).stream.val = true ∧
            ((s.stream (s.slot l).stream).minCharge : Int) ≤ p.credit ∧ (s.visitOfTag f.tag).isSome = true ∧
            why = .alreadyOnSite)) →
        ∃ t slot, exec (.permitAnswer f) s = .next t ∧ t.Answers 0x28 .ok (.permitTimely (.refused why) slot) ∧
          EntryTaken s t p (s.slot l).noInstall slot ∧ (t.lane l).state = .refused ∧
          (t.lane l).lastReason = some (.refusal why) ∧ (t.lane l).query = none ∧ (t.slot l).state = .free ∧
          (∀ m : LaneNo, m ≠ l → t.lane m = s.lane m ∧ t.slot m = s.slot m) ∧
          SameBut [.receiver, .reply, .lanes, .cache, .queries, .refusals, .reports, .checkWord] s t) ∧
      (p.stopped = false → p.streams.getLsbD (s.slot l).stream.val = true →
        ((s.stream (s.slot l).stream).minCharge : Int) ≤ p.credit → s.visitOfTag f.tag = none →
        (64 ≤ s.ret.visits.records.length →
          ∃ t slot, exec (.permitAnswer f) s = .next t ∧ t.Answers 0x28 .ok (.permitTimely .siteFull slot) ∧
            EntryTaken s t p (s.slot l).noInstall slot ∧ (t.lane l).state = .siteFull ∧ (t.lane l).query = none ∧
            (t.lane l).identity = (s.lane l).identity ∧ (t.slot l).state = .free ∧
            (l ∉ s.siteFull → t.siteFull = s.siteFull ++ [l]) ∧
            (∀ m : LaneNo, m ≠ l → t.lane m = s.lane m ∧ t.slot m = s.slot m) ∧
            SameBut [.receiver, .reply, .lanes, .cache, .queries, .siteFull, .reports, .checkWord] s t) ∧
        (s.ret.visits.records.length < 64 →
          ∃ t slot v, exec (.permitAnswer f) s = .next t ∧
            t.Answers 0x28 .ok (.permitTimely (.admitted v.number) slot) ∧ EntryTaken s t p (s.slot l).noInstall slot ∧
            v ∈ t.ret.visits.records ∧ v.tag = f.tag ∧ v.account = p.account ∧ v.state = .admitted ∧
            v.provisional = false ∧ v.storedTare = p.storedTare ∧ v.stream = (s.slot l).stream ∧
            v.currentLane = some l ∧ (t.slot l).state = .free ∧ (t.lane l).query = none ∧
            (t.lane l).visit = some v.number ∧ ((t.lane l).state = .awaitBridge ∨ (t.lane l).state = .entering) ∧
            SameBut [.receiver, .reply, .lanes, .barriers, .grants, .visits, .cache, .queries, .reports, .checkWord]
              s t))) ∧
  (∀ (f : PermitAnswerFields) (a : Answer) (s : State), s.Ready → answerOf f = .ok a →
      (∀ l : LaneNo, s.adm.slotHolding f.number.toNat f.tag = some l → (s.slot l).state = .active → a = .unknownTag →
        s.failing = false → (s.lane l).state ≠ .refused →
        ∃ t, exec (.permitAnswer f) s = .next t ∧ t.Answers 0x28 .ok (.permitTimely (.refused .unknownTag) none) ∧
          (t.lane l).state = .refused ∧ (t.lane l).lastReason = some (.refusal .unknownTag) ∧
          (t.lane l).query = none ∧ (t.slot l).state = .free ∧ (∀ m : LaneNo, m ≠ l → t.lane m = s.lane m) ∧
          SameBut [.receiver, .reply, .lanes, .queries, .refusals, .reports, .checkWord] s t) ∧
      (∀ l : LaneNo, s.adm.slotHolding f.number.toNat f.tag = some l → (s.slot l).state = .active →
        a.covers f.tag = true → s.failing = true →
        ∃ t slot, exec (.permitAnswer f) s = .next t ∧ t.Answers 0x28 .ok (.permitTimely .held slot) ∧
          t.slot l = { s.slot l with held := some a } ∧
          (a = .unknownTag → slot = none ∧ SameBut [.receiver, .reply, .queries] s t) ∧
          (∀ p : Permit, a = .entry p → EntryTaken s t p (s.slot l).noInstall slot) ∧ (∀ m : LaneNo, m ≠ l → t.slot m = s.slot m) ∧
          SameBut [.receiver, .reply, .cache, .queries] s t) ∧
      (∀ l : LaneNo, s.adm.slotHolding f.number.toNat f.tag = some l → (s.slot l).state = .late →
        a.covers f.tag = true → (s.slot l).provisional = none →
        ∃ t slot, exec (.permitAnswer f) s = .next t ∧ t.Answers 0x28 .late (.permitLate slot none none) ∧
          (a = .unknownTag → slot = none ∧ SameBut [.receiver, .reply] s t) ∧
          (∀ p : Permit, a = .entry p → EntryTaken s t p (s.slot l).noInstall slot) ∧ t.adm.slots = s.adm.slots ∧
          SameBut [.receiver, .reply, .cache] s t) ∧
      ((∀ l : LaneNo, (s.slot l).state = .free ∨ (s.slot l).number ≠ f.number.toNat ∨ (s.slot l).tag ≠ f.tag) →
        ∃ t, exec (.permitAnswer f) s = .next t ∧ Turned s t 0x28 .noSuchQuery) ∧
      (∀ l : LaneNo, s.adm.slotHolding f.number.toNat f.tag = some l → a.covers f.tag = false →
        ∃ t, exec (.permitAnswer f) s = .next t ∧ Turned s t 0x28 .outOfRange))

/-- R118, R138, R139: a late ENTRY answer for a provisional visit that still carries PROVISIONAL gives the visit the
entry's account, and is judged by the tests of R118: a stopped account, a stream not permitted or a credit below the
stream's minimum charge queues LATE_REFUSAL with that reason, and an entry that admits queues nothing; the visit is not
ended, and the entry is installed as R122 gives. A late UNKNOWN_TAG answer for it installs nothing, leaves the visit
with its account (0, or, by the model's choice, one that an earlier late entry gave, log entry 58) and queues
LATE_REFUSAL with UNKNOWN_TAG and account 0. -/
def Obligations.LateAnswerNamesTheAccount : Prop :=
  (∀ (f : PermitAnswerFields) (l : LaneNo) (p : Permit) (v : Visit) (n : Nat) (s : State), s.Ready → s.failing = false →
    answerOf f = .ok (.entry p) → s.adm.slotHolding f.number.toNat f.tag = some l → p.covers f.tag = true →
    (s.slot l).state = .late → (s.slot l).provisional = some n → s.visitOf n = some v → v.tag = (s.slot l).tag →
    v.provisional = true →
    ∃ t slot judged, exec (.permitAnswer f) s = .next t ∧ t.Answers 0x28 .late (.permitLate slot (some n) judged) ∧
      EntryTaken s t p (s.slot l).noInstall slot ∧ t.visitOf n = some { v with account := p.account } ∧
      (p.stopped = true → judged = some .accountStopped) ∧
      (p.stopped = false → p.streams.getLsbD (s.slot l).stream.val = false → judged = some .streamNotPermitted) ∧
      (p.stopped = false → p.streams.getLsbD (s.slot l).stream.val = true →
        (p.credit < (s.stream (s.slot l).stream).minCharge → judged = some .credit) ∧
          ((s.stream (s.slot l).stream).minCharge ≤ p.credit → judged = none)) ∧
      (judged = none → t.voiced = s.voiced) ∧
      (∀ r : RefusalReason, judged = some r → s.link.reports.length < 32 →
        t.voiced = s.voiced ++ [.lateRefusal
          { number := (s.slot l).number, tag := (s.slot l).tag, lane := l, visit := n, state := v.state,
            account := p.account, reason := r, clock := s.ret.clock }]) ∧
      t.adm.slots = s.adm.slots ∧ SameBut [.receiver, .reply, .cache, .visits, .reports, .checkWord] s t) ∧
  (∀ (f : PermitAnswerFields) (l : LaneNo) (v : Visit) (n : Nat) (s : State), s.Ready → answerOf f = .ok .unknownTag →
    s.adm.slotHolding f.number.toNat f.tag = some l → (s.slot l).state = .late → (s.slot l).provisional = some n →
    s.visitOf n = some v → v.tag = (s.slot l).tag → v.provisional = true →
    ∃ t, exec (.permitAnswer f) s = .next t ∧ t.Answers 0x28 .late (.permitLate none none (some .unknownTag)) ∧
      (s.link.reports.length < 32 →
        t.voiced = s.voiced ++ [.lateRefusal
          { number := (s.slot l).number, tag := (s.slot l).tag, lane := l, visit := n, state := v.state, account := 0,
            reason := .unknownTag, clock := s.ret.clock }]) ∧
      SameBut [.receiver, .reply, .reports] s t)

/-- R142, R124: INVALIDATE removes every entry, the entries of an account or the entries that cover a tag, and marks
every slot that is not FREE no-install; an unknown code removes nothing. CREDIT_SET writes credit and STOPPED into every
entry of the account and nothing else. -/
def Obligations.InvalidateAndCreditSet : Prop :=
  ∀ (account : Half) (tag : Word) (s : State), s.Ready →
    (∀ (code : Byte) (gone : Permit → Bool) (g : Granularity),
      ((code = 0 ∧ gone = (fun _ => true) ∧ g = .all) ∨
        (code = 1 ∧ account ≠ 0 ∧ gone = (fun p => p.account == account.toNat) ∧ g = .account) ∨
        (code = 2 ∧ gone = (fun p => p.covers tag) ∧ g = .covering)) →
      ∃ t n, exec (.invalidate code account tag) s = .next t ∧ t.Answers 0x29 .ok (.invalidated code g n) ∧
        (∀ i : Fin 48, t.adm.permit i = (s.adm.permit i).filter (fun p => !gone p)) ∧
        n = ((List.finRange 48).filter (fun i => (s.adm.permit i).any gone)).length ∧
        t.adm.agingTimer = s.adm.agingTimer ∧
        (∀ l : LaneNo, (s.slot l).state ≠ .free → t.slot l = { s.slot l with noInstall := true }) ∧
        (∀ l : LaneNo, (s.slot l).state = .free → t.slot l = s.slot l) ∧
        t.adm.queryCounter = s.adm.queryCounter ∧ SameBut [.receiver, .reply, .cache, .queries] s t) ∧
    (∀ code : Byte, 3 ≤ code.toNat →
      ∃ t, exec (.invalidate code account tag) s = .next t ∧ t.Answers 0x29 .ok (.invalidated code .none 0) ∧
        SameBut [.receiver, .reply] s t) ∧
    (account = 0 → ∃ t, exec (.invalidate 1 account tag) s = .next t ∧ Turned s t 0x29 .outOfRange) ∧
    (∀ (credit : Word) (stopped : Byte), account ≠ 0 → stopped.toNat ≤ 1 →
      ∃ t n, exec (.creditSet account credit stopped) s = .next t ∧
        t.Answers 0x2A .ok (.creditWritten account.toNat n) ∧
        (∀ i : Fin 48, t.adm.permit i = (s.adm.permit i).map (fun p =>
          if p.account = account.toNat then { p with credit := credit.toInt, stopped := stopped == 0 } else p)) ∧
        n = ((List.finRange 48).filter (fun i => (s.adm.permit i).any (fun p => p.account == account.toNat))).length ∧
        t.adm.agingTimer = s.adm.agingTimer ∧ SameBut [.receiver, .reply, .cache] s t) ∧
    (∀ (credit : Word) (stopped : Byte), (account = 0 ∨ 1 < stopped.toNat) →
      ∃ t, exec (.creditSet account credit stopped) s = .next t ∧ Turned s t 0x2A .outOfRange)

/-- R129, R130: REFUSAL_CLEAR frees the records it names and, with CLEAR, the overflow flag; MASK sets the mask, UNMASK
clears it and lets a pending report out. -/
def Obligations.RefusalRecordsAreClearedAndMasked : Prop :=
  ∀ (records : Byte) (s : State), s.Ready →
    (∀ overflow : Byte, overflow.toNat ≤ 1 →
      ∃ t n, exec (.refusalClear records overflow) s = .next t ∧
        t.Answers 0x2D .ok (.refusalsCleared n t.adm.overflow) ∧
        n = ((List.finRange 8).filter (fun i => records.getLsbD i.val && (s.adm.records.read i).isSome)).length ∧
        (∀ i : Fin 8, t.adm.records.read i = if records.getLsbD i.val then none else s.adm.records.read i) ∧
        t.adm.overflow = (if overflow = 0 then false else s.adm.overflow) ∧ t.adm.mask = s.adm.mask ∧
        t.adm.reportPending = s.adm.reportPending ∧ SameBut [.receiver, .reply, .refusals] s t) ∧
    (∀ overflow : Byte, 1 < overflow.toNat →
      ∃ t, exec (.refusalClear records overflow) s = .next t ∧ Turned s t 0x2D .outOfRange) ∧
    (∃ t, exec (.refusalMask 0) s = .next t ∧ t.Answers 0x2E .ok (.refusalMask true s.adm.reportPending) ∧
      t.adm.mask = true ∧ t.adm.records = s.adm.records ∧ t.adm.overflow = s.adm.overflow ∧
      t.adm.reportPending = s.adm.reportPending ∧ SameBut [.receiver, .reply, .refusals] s t) ∧
    (∃ t, exec (.refusalMask 1) s = .next t ∧ t.Answers 0x2E .ok (.refusalMask false false) ∧ t.adm.mask = false ∧
      t.adm.reportPending = false ∧ t.adm.records = s.adm.records ∧ t.adm.overflow = s.adm.overflow ∧
      (s.adm.reportPending = false → t.voiced = s.voiced ∧ t.link.reportsLost = s.link.reportsLost) ∧
      (s.adm.reportPending = true → s.link.reports.length < 32 →
        t.voiced = s.voiced ++ [s.adm.refusalReport s.adm.lowestRecord]) ∧
      SameBut [.receiver, .reply, .refusals, .reports] s t) ∧
    (∀ setting : Byte, 1 < setting.toNat → ∃ t, exec (.refusalMask setting) s = .next t ∧ Turned s t 0x2E .outOfRange)

/-! ### Visits, tares and tickets -/

/-- R93, R120, R153, R154: VISIT_CANCEL by NUMBER or TAG removes a visit that is not weighing or leaving; a visit that
no lane serves leaves the table, and its pending ticket the order; a lane that waits for its bridge with the visit goes
to NO_ID; a busy visit is refused with VISIT_BUSY, one under power fail with POWER_FAIL, a missing one with
NO_SUCH_VISIT, and with OUT_OF_RANGE any other selector or a number outside 1 to 65,535 (of all four operand bytes, the
model's choice, log entry 62). The freed record serves the SITE_FULL list: the earliest lane is resumed at the stream
check, and after a refusal or a query the next, until one creates a visit. R158 to R160: TARE_WRITE is refused with
OUT_OF_RANGE for an interval that is none of the six, a tare that is no multiple of it, or a bridge that is neither 0 to
3 nor NONE; else it places the tare, valid, with the yard clock as its time, in the record that holds the tag, else in
the lowest free record, else in that of the smallest time, the lowest of equal ones, whose tag loses its tare; every
other record keeps its tare. TARE_DELETE frees the tag's record; a tag with none is no error. -/
def Obligations.VisitsAndTaresByRequest : Prop :=
  (∀ (kind : Byte) (operand : Word) (found : Option Visit) (s : State), s.Ready →
      ((kind.toNat = 0 ∧ 1 ≤ operand.toNat ∧ operand.toNat ≤ 65535 ∧ found = s.visitOf operand.toNat) ∨
        (kind.toNat = 1 ∧ found = s.visitOfTag operand)) →
      (found = none → ∃ t, exec (.visitCancel kind operand) s = .next t ∧ Turned s t 0x31 .noSuchVisit) ∧
      (found.isSome = true → s.failing = true →
        ∃ t, exec (.visitCancel kind operand) s = .next t ∧ Turned s t 0x31 .powerFail) ∧
      (∀ v : Visit, found = some v → s.failing = false →
        (v.state = .weighingIn ∨ v.state = .weighingOut ∨ v.state = .exiting) →
        ∃ t, exec (.visitCancel kind operand) s = .next t ∧ Turned s t 0x31 .visitBusy) ∧
      (∀ v : Visit, found = some v → s.failing = false → v.state ≠ .weighingIn → v.state ≠ .weighingOut →
        v.state ≠ .exiting → v.currentLane = none → s.siteFull = [] →
        ∃ t, exec (.visitCancel kind operand) s = .next t ∧
          t.Answers 0x31 .ok (.visitCancelled v.number v.tag v.state none v.pending.isSome) ∧
          t.ret.visits.records = s.ret.visits.records.filter (fun w => w.number ≠ v.number) ∧
          t.ret.visits.order = s.ret.visits.order.filter (· ≠ v.number) ∧ t.ret.visits.counter = s.ret.visits.counter ∧
          SameBut [.receiver, .reply, .visits, .checkWord] s t) ∧
      (∀ (v : Visit) (l : LaneNo), found = some v → s.failing = false → v.state ≠ .weighingIn →
        v.state ≠ .weighingOut → v.state ≠ .exiting → v.currentLane = some l → (s.lane l).visit = some v.number →
        (s.lane l).state = .awaitBridge → s.siteFull = [] →
        ∃ t, exec (.visitCancel kind operand) s = .next t ∧
          t.Answers 0x31 .ok (.visitCancelled v.number v.tag v.state (some l) v.pending.isSome) ∧
          t.ret.visits.records = s.ret.visits.records.filter (fun w => w.number ≠ v.number) ∧ (t.lane l).state = .noId ∧
          (t.lane l).visit = none ∧ (t.lane l).identity = none ∧
          (∀ b : BridgeNo, (s.config l).bridge = some b → l ∉ (t.grant b).waiting) ∧
          SameBut [.receiver, .reply, .visits, .lanes, .grants, .barriers, .reports, .checkWord] s t) ∧
    (∀ (v : Visit) (l : LaneNo) (rest : List LaneNo) (i : Identity), found = some v → s.failing = false →
      v.state ≠ .weighingIn → v.state ≠ .weighingOut → v.state ≠ .exiting → v.currentLane = none →
      s.siteFull = l :: rest → l ∉ rest → (∀ m ∈ l :: rest, (s.lane m).state = .siteFull) →
      (s.lane l).identity = some i →
      (∀ (j : Fin 48) (p : Permit), (s.stream i.stream).enabled = true → s.adm.search i.tag = some j →
        s.adm.permit j = some p → p.stopped = false → p.streams.getLsbD i.stream.val = true →
        ((s.stream i.stream).minCharge : Int) ≤ p.credit → s.visitOfTag i.tag = none →
        s.ret.visits.records.length ≤ 64 →
        ∃ t w, exec (.visitCancel kind operand) s = .next t ∧
          t.Answers 0x31 .ok (.visitCancelled v.number v.tag v.state none v.pending.isSome) ∧ t.siteFull = rest ∧
          w ∈ t.ret.visits.records ∧ w.tag = i.tag ∧ w.account = p.account ∧ w.state = .admitted ∧
          (t.lane l).visit = some w.number ∧ ((t.lane l).state = .awaitBridge ∨ (t.lane l).state = .entering) ∧
          ∀ m ∈ rest, t.lane m = s.lane m) ∧
      ((s.stream i.stream).enabled = false →
        ∃ t, exec (.visitCancel kind operand) s = .next t ∧ (t.lane l).state = .refused ∧
          (t.lane l).lastReason = some (.refusal .streamNotPermitted) ∧ l ∉ t.siteFull ∧
          ∀ (m : LaneNo) (k : Identity), rest = [m] → (s.lane m).identity = some k →
            (s.stream k.stream).enabled = true → s.adm.search k.tag = none →
            t.siteFull = [] ∧ (t.lane m).state = .admitting ∧ (t.slot m).state = .active ∧ (t.slot m).tag = k.tag) ∧
      ((s.stream i.stream).enabled = true → s.adm.search i.tag = none →
        ∃ t, exec (.visitCancel kind operand) s = .next t ∧ (t.lane l).state = .admitting ∧
          (t.slot l).state = .active ∧ (t.slot l).tag = i.tag ∧ l ∉ t.siteFull))) ∧
  (∀ (kind : Byte) (operand : Word) (s : State), s.Ready →
    (1 < kind.toNat ∨ (kind.toNat = 0 ∧ (operand.toNat = 0 ∨ 65535 < operand.toNat))) →
    ∃ t, exec (.visitCancel kind operand) s = .next t ∧ Turned s t 0x31 .outOfRange) ∧
  ((∀ (f : TareWriteFields) (bridge : Option BridgeNo) (s : State), s.Ready → s.failing = false →
      SixIntervals f.interval.toNat → (f.interval.toNat : Int) ∣ f.tare.toInt →
      ((f.bridge = 0xFF ∧ bridge = none) ∨ ∃ b : BridgeNo, f.bridge.toNat = b.val ∧ bridge = some b) →
      ∃ t i outcome, exec (.tareWrite f) s = .next t ∧ t.Answers 0x32 .ok (.tareWritten i outcome true) ∧
        (∃ j : Fin 128, j.val = i ∧
          t.ret.tares.read j =
            some { tag := f.tag, tare := f.tare.toInt, interval := f.interval.toNat, bridge := bridge,
                   time := s.ret.clock } ∧
          ∀ k : Fin 128, k ≠ j → t.ret.tares.read k = s.ret.tares.read k) ∧
        (∀ j : Fin 128, (∃ y, s.ret.tares.read j = some y ∧ y.tag = f.tag) →
          (∃ k : Fin 128, k.val = i ∧ ∃ y, s.ret.tares.read k = some y ∧ y.tag = f.tag) ∧ outcome = .replacedSameTag) ∧
        ((∀ (j : Fin 128) (y : Tare), s.ret.tares.read j = some y → y.tag ≠ f.tag) →
          (∃ j : Fin 128, s.ret.tares.read j = none) →
          outcome = .new ∧ ∃ k : Fin 128, k.val = i ∧ s.ret.tares.read k = none ∧
            ∀ j : Fin 128, s.ret.tares.read j = none → k ≤ j) ∧
        ((∀ j : Fin 128, ∃ y, s.ret.tares.read j = some y ∧ y.tag ≠ f.tag) →
          ∃ (k : Fin 128) (y : Tare), k.val = i ∧ s.ret.tares.read k = some y ∧ outcome = .displaced y.tag y.time ∧
            ∀ (j : Fin 128) (z : Tare), s.ret.tares.read j = some z → y.time ≤ z.time ∧ (z.time = y.time → k ≤ j)) ∧
        SameBut [.receiver, .reply, .tares, .checkWord] s t) ∧
    (∀ (f : TareWriteFields) (s : State), s.Ready →
      (¬ SixIntervals f.interval.toNat ∨ ¬ (f.interval.toNat : Int) ∣ f.tare.toInt ∨
        (4 ≤ f.bridge.toNat ∧ f.bridge ≠ 0xFF)) →
      ∃ t, exec (.tareWrite f) s = .next t ∧ Turned s t 0x32 .outOfRange) ∧
    (∀ (tag : Word) (s : State), s.Ready → s.failing = false →
      ((∀ (i : Fin 128) (y : Tare), s.ret.tares.read i = some y → y.tag ≠ tag) →
        ∃ t, exec (.tareDelete tag) s = .next t ∧ t.Answers 0x33 .ok (.tareDeleted 0) ∧ SameBut [.receiver, .reply] s t) ∧
      (∀ i : Fin 128, (∃ y, s.ret.tares.read i = some y ∧ y.tag = tag) →
        (∀ (j : Fin 128) (y : Tare), s.ret.tares.read j = some y → y.tag = tag → j = i) →
        ∃ t, exec (.tareDelete tag) s = .next t ∧ t.Answers 0x33 .ok (.tareDeleted 1) ∧
          t.ret.tares = s.ret.tares.write i none ∧ SameBut [.receiver, .reply, .tares, .checkWord] s t)))

/-- R176: TICKET_COLLECT marks the tickets from the oldest through number n, by the forward distance from the oldest to
n: where it is below the ticket count the tickets through n, where it is not but below 2,147,483,648 all, and where it
is 2,147,483,648 or more none; in an empty journal it marks nothing. The high-water mark is tested after it. R168 to
R170: the waiting tickets then issue, in their order, where ticketing is not held and while the journal has room: each
joins the journal with the next number, its charge leaves the account's entries, and a lane that waits for it goes to
LEAVING. R180, R168, R169: TICKET_BASE on an empty journal sets the ticket counter, clears the ticketing-held flag and
lets a pending ticket issue; with tickets in the journal, or a number of 0, it is refused with OUT_OF_RANGE. -/
def Obligations.TicketCollectAndTicketBase : Prop :=
  (∀ (n : Word) (s : State) (o : Nat), s.Ready → s.failing = false → n ≠ 0 →
    (s.ret.visits.order = [] ∨ s.ret.journal.held = true) → s.ret.journal.oldest = some o →
    ∃ t marked left oldest, exec (.ticketCollect n) s = .next t ∧
      t.Answers 0x39 .ok (.collected marked left oldest 0) ∧ left = t.ret.journal.uncollected ∧
      marked + left = s.ret.journal.uncollected ∧
      t.ret.journal.tickets.map (·.body) = s.ret.journal.tickets.map (·.body) ∧
      t.ret.journal.tickets.map (·.number) = s.ret.journal.tickets.map (·.number) ∧
      t.ret.journal.counter = s.ret.journal.counter ∧ t.ret.journal.held = s.ret.journal.held ∧
      (∀ (i : Nat) (x y : Ticket), s.ret.journal.tickets[i]? = some x → t.ret.journal.tickets[i]? = some y →
        (forwardDistance o n.toNat < s.ret.journal.tickets.length →
          y.collected = (x.collected || decide (i ≤ forwardDistance o n.toNat))) ∧
        (s.ret.journal.tickets.length ≤ forwardDistance o n.toNat → forwardDistance o n.toNat < 2147483648 →
          y.collected = true) ∧
        (s.ret.journal.tickets.length ≤ forwardDistance o n.toNat → 2147483648 ≤ forwardDistance o n.toNat →
          y.collected = x.collected)) ∧
      (t.marks.high = true ↔ s.timers.highWater ≤ t.ret.journal.uncollected) ∧
      SameBut [.receiver, .reply, .journal, .marks, .reports, .checkWord] s t) ∧
  (∀ (n : Word) (s : State) (o m : Nat) (v : Visit) (body : TicketBody), s.Ready → s.failing = false → n ≠ 0 →
    s.ret.visits.order = [m] → s.ret.journal.held = false → s.ret.journal.oldest = some o → s.visitOf m = some v →
    v.pending = some body →
    (s.ret.journal.tickets.length < 240 ∨ forwardDistance o n.toNat < 2147483648) →
    ∃ t x marked oldest, exec (.ticketCollect n) s = .next t ∧
      t.Answers 0x39 .ok (.collected marked t.ret.journal.uncollected oldest 1) ∧
      marked + t.ret.journal.uncollected = s.ret.journal.uncollected + 1 ∧
      t.ret.journal.tickets.map (·.number) =
        (if s.ret.journal.tickets.length < 240 then s.ret.journal.tickets else s.ret.journal.tickets.tail).map
          (·.number) ++ [s.ret.journal.counter] ∧
      t.ret.journal.tickets.getLast? = some x ∧ x.body = body ∧ x.issueTime = s.ret.clock ∧
      x.timeUnset = s.ret.clockUnset ∧ x.calCounter = s.ret.calCounter ∧ x.collected = false ∧
      t.ret.journal.counter = succSkipZero s.ret.journal.counter ∧ t.ret.journal.held = false ∧
      t.ret.visits.order = [] ∧ (t.marks.high = true ↔ s.timers.highWater ≤ t.ret.journal.uncollected) ∧
      (∀ (j : Fin 48) (p : Permit), s.adm.permit j = some p →
        t.adm.permit j =
          some (if body.provisional = false ∧ p.account = body.account then
            { p with credit := max (p.credit - body.charge) (-2147483648) } else p)) ∧
      ((∀ l : LaneNo, (s.lane l).state = .ticketWait → (s.lane l).visit ≠ some m) →
        t.visitOf m =
          some { v with state := .ticketed, pending := none, ticketNumber := some s.ret.journal.counter }) ∧
      (∀ l : LaneNo, (s.lane l).state = .ticketWait → (s.lane l).visit = some m →
        (∀ k : LaneNo, k ≠ l → (s.lane k).state = .ticketWait → (s.lane k).visit ≠ some m) →
        (t.lane l).state = .leaving ∧ (t.lane l).visit = some m ∧ (∀ k : LaneNo, k ≠ l → t.lane k = s.lane k) ∧
          t.visitOf m =
            some { v with
                   state := if (s.config l).role = .outbound then .exiting else .ticketed, pending := none,
                   ticketNumber := some s.ret.journal.counter })) ∧
  (∀ (n : Word) (s : State), s.Ready → s.failing = false → n ≠ 0 → s.ret.journal.tickets = [] →
    (s.ret.visits.order = [] ∨ s.ret.journal.held = true) →
    ∃ t, exec (.ticketCollect n) s = .next t ∧ t.Answers 0x39 .ok (.collected 0 0 none 0) ∧
      t.ret.journal = s.ret.journal ∧ (t.marks.high = true ↔ s.timers.highWater = 0) ∧
      SameBut [.receiver, .reply, .marks, .reports, .checkWord] s t) ∧
  (∀ (n : Word) (s : State) (bodies : List TicketBody), s.Ready → s.failing = false → n ≠ 0 →
    s.ret.journal.held = false → s.ret.visits.order.Nodup →
    s.ret.visits.order.map (fun m => (s.visitOf m).bind (·.pending)) = bodies.map some →
    s.ret.journal.tickets.length + bodies.length ≤ 240 → (∀ l : LaneNo, (s.lane l).state ≠ .ticketWait) →
    ∃ t marked oldest, exec (.ticketCollect n) s = .next t ∧
      t.Answers 0x39 .ok (.collected marked t.ret.journal.uncollected oldest bodies.length) ∧ t.ret.visits.order = [] ∧
      t.ret.journal.tickets.map (·.body) = s.ret.journal.tickets.map (·.body) ++ bodies ∧
      t.ret.journal.tickets.map (·.number) =
        s.ret.journal.tickets.map (·.number) ++
          (List.range bodies.length).map (fun i => succSkipZero^[i] s.ret.journal.counter) ∧
      t.ret.journal.counter = succSkipZero^[bodies.length] s.ret.journal.counter) ∧
  (∀ (n : Word) (s : State), s.Ready →
    (n ≠ 0 → s.ret.journal.tickets = [] → s.failing = false → s.ret.visits.order = [] →
      ∃ t, exec (.ticketBase n) s = .next t ∧ t.Answers 0x3A .ok (.ticketBase n.toNat 0) ∧
        t.ret.journal = { tickets := [], counter := n.toNat, held := false } ∧
        SameBut [.receiver, .reply, .journal, .checkWord] s t) ∧
    (∀ (v : Visit) (body : TicketBody) (m : Nat), n ≠ 0 → s.ret.journal.tickets = [] → s.failing = false →
      s.ret.visits.order = [m] → s.visitOf m = some v → v.pending = some body →
      (∀ l : LaneNo, (s.lane l).state ≠ .ticketWait) →
      ∃ t x, exec (.ticketBase n) s = .next t ∧ t.Answers 0x3A .ok (.ticketBase (succSkipZero n.toNat) 1) ∧
        t.ret.journal.tickets = [x] ∧ x.number = n.toNat ∧ x.body = body ∧ x.issueTime = s.ret.clock ∧
        x.timeUnset = s.ret.clockUnset ∧ x.calCounter = s.ret.calCounter ∧ x.collected = false ∧
        t.ret.visits.order = [] ∧
        t.visitOf m = some { v with state := .ticketed, pending := none, ticketNumber := some n.toNat }) ∧
    (s.ret.journal.tickets ≠ [] → ∃ t, exec (.ticketBase n) s = .next t ∧ Turned s t 0x3A .outOfRange) ∧
    (n = 0 →
      (∃ t, exec (.ticketBase n) s = .next t ∧ Turned s t 0x3A .outOfRange) ∧
        ∃ t, exec (.ticketCollect n) s = .next t ∧ Turned s t 0x39 .outOfRange))

/-- R163 to R167: a ticket's interval is the larger of the two; its net is the difference of the two parts rounded to
whole ticket intervals, ties away from zero, where that lies in the range; the direction follows the sign of the net;
the charge is the minimum below 20 ticket intervals, else the larger of the minimum and the rounded product, within the
range. -/
def Obligations.TicketsAreComputed : Prop :=
  ∀ (v : Visit) (first : WeighingRecord) (second : SecondPart) (k : Stream) (x : TicketBody) (dt raw : Int),
    x = computeTicket v first second k → dt = x.ticketInterval → raw = first.weight - second.value →
    1 ≤ first.interval → 1 ≤ second.interval →
    x.ticketInterval = max first.interval second.interval ∧ x.visit = v.number ∧ x.tag = v.tag ∧ x.account = v.account ∧
    x.firstWeight = first.weight ∧ x.secondValue = second.value ∧ x.rate = k.rate ∧ x.minCharge = k.minCharge ∧
    (∃ q : Int, x.net = q * dt) ∧ -2147483648 ≤ x.net ∧ x.net ≤ 2147483647 ∧
    (-2147483648 ≤ raw - dt → raw + dt ≤ 2147483647 →
      2 * (x.net - raw) ≤ dt ∧ 2 * (raw - x.net) ≤ dt ∧
        (2 * (x.net - raw) = dt → 0 < raw) ∧ (2 * (raw - x.net) = dt → raw < 0)) ∧
    (∀ rounded : Int, rounded = roundDiv raw x.ticketInterval * dt →
      (-2147483648 ≤ rounded → rounded ≤ 2147483647 → x.net = rounded) ∧
      (2147483647 < rounded → 2147483647 < x.net + dt) ∧ (rounded < -2147483648 → x.net - dt < -2147483648)) ∧
    (x.direction = .delivery ↔ 0 ≤ x.net) ∧ (x.direction = .collection ↔ x.net < 0) ∧
    (x.belowMin = true ↔ x.net.natAbs < 20 * x.ticketInterval) ∧
    (x.net.natAbs < 20 * x.ticketInterval → x.charge = k.minCharge) ∧
    (k.minCharge ≤ 2147483647 → k.minCharge ≤ x.charge) ∧
    (20 * x.ticketInterval ≤ x.net.natAbs → k.minCharge ≤ 2147483647 →
      x.charge ≤ 2147483647 ∧
      (x.charge < 2147483647 → 2 * (x.net.natAbs * k.rate) < 1000000 * (2 * x.charge + 1)) ∧
      (x.charge = k.minCharge ∨ 1000000 * (2 * x.charge) ≤ 2 * (x.net.natAbs * k.rate) + 1000000))

/-! ### Load-cell lines, decks and the evaluation of a bridge -/

/-- R3, R4, R5, R9, R1: a sample on an unused channel changes nothing but the line's receiver; one on an assigned
channel that is not its deck's lead channel becomes its latest sample with age 0, is awaited no more, and queues
CHANNEL_FAULT where it newly sets the fault flag. A gap timeout returns the receiver to hunting. A stall timer that
expires restarts and sets the stall flag, with CHANNEL_STALL where the flag was clear. That an expiry acts whatever time
is left is the model's choice (log entry 10), as is that one of a timer that does not run completes and changes nothing
(log entry 13), and that SAMPLE_ARRIVAL leaves the receiver hunting (log entry 37). -/
def Obligations.ChannelsTakeSamplesAndStalls : Prop :=
  ∀ (c : ChannelNo) (s : State), s.powered = true →
    (∀ (counts : BitVec 24) (st : SampleStatus), s.deckOf c = none →
      ∃ t, exec (.sampleArrival c counts st) s = .next t ∧ t.channel c = { s.channel c with receiver := .hunting } ∧
        (∀ o : ChannelNo, o ≠ c → t.channel o = s.channel o) ∧ SameBut [.channels] s t) ∧
    (∀ (counts : BitVec 24) (st : SampleStatus) (d : DeckNo), s.deckOf c = some d → s.leadOf d ≠ some c →
      ∃ t, exec (.sampleArrival c counts st) s = .next t ∧
        t.channel c =
          { s.channel c with
            sample := some { counts := counts.toInt, status := st }, age := 0, fault := decide (st = .cellFault),
            stallTimer := some (4 * s.period), awaited := false, receiver := .hunting } ∧
        (∀ o : ChannelNo, o ≠ c → t.channel o = s.channel o) ∧ SameBut [.channels, .reports] s t ∧
        ((st ≠ .cellFault ∨ (s.channel c).fault = true) → SameBut [.channels] s t) ∧
        (st = .cellFault → (s.channel c).fault = false → s.link.reports.length < 32 →
          t.voiced = s.voiced ++ [.channelFault c (some d) counts.toInt s.ret.clock] ∧
            t.link.reportsLost = s.link.reportsLost)) ∧
    (∃ t, exec (.cellFrameGapTimeout c) s = .next t ∧ t.channel c = { s.channel c with receiver := .hunting } ∧
      (∀ o : ChannelNo, o ≠ c → t.channel o = s.channel o) ∧ SameBut [.channels] s t) ∧
    ((s.channel c).stallTimer = none → ∃ t, exec (.stallTimerExpiry c) s = .next t ∧ SameBut [] s t) ∧
    ((s.channel c).stallTimer.isSome = true →
      ∃ t, exec (.stallTimerExpiry c) s = .next t ∧
        t.channel c = { s.channel c with stallTimer := some (4 * s.period), stall := true } ∧
        (∀ o : ChannelNo, o ≠ c → t.channel o = s.channel o) ∧ SameBut [.channels, .reports] s t ∧
        ((s.channel c).stall = true → SameBut [.channels] s t) ∧
        ((s.channel c).stall = false → s.link.reports.length < 32 →
          t.voiced = s.voiced ++ [.channelStall c (s.deckOf c) (s.channel c).age s.ret.clock] ∧
            t.link.reportsLost = s.link.reportsLost))

/-- R3, R6, R7, R9, R17 to R25: a sample of any status on the lead channel of a deck of any channels takes the deck
through the conditions of R17 in order: UNCALIBRATED with an uncalibrated channel; else STALE with one that has no
usable sample, or none since the deck's set of channels changed (R9, by a mark that is the model's reading, log entry
43); else OVER with one over or a sum of cell weights outside the weight range; else VALID, with the sum of round((c −
z) × s / 65,536) over its channels through the filter. Where not VALID there is no F; the freshness timer runs at 2P.
The bridge of the deck, of one or two member decks, is then evaluated: NOT_READY where it is uncalibrated or a member
shows NO_CHANNELS, UNCALIBRATED or STALE; CALIBRATING with the metrology switch CLOSED; OVER with a member OVER, also
where another is VALID without an F (the model's choice, log entry 53); and with every F there S is their sum (held
exact also outside the weight range, the model's reading, log entry 4), G = S − Zb, with W, the motion window, the state
by the first line of R23 that applies, and the stable run. -/
def Obligations.LeadArrivalWeighsTheBridge : Prop :=
  ∀ (c : ChannelNo) (counts : BitVec 24) (st : SampleStatus) (d : DeckNo) (cs : List ChannelNo) (fs : List Int) (f : Int)
    (s u : State), s.powered = true → s.deckOf c = some d → s.leadOf d = some c → cs = s.deckChannels d →
    u = s.onChannel c (fun x =>
      { x with
        sample := some { counts := counts.toInt, status := st }, age := 0, fault := decide (st = .cellFault),
        stallTimer := some (4 * s.period), awaited := false, receiver := .hunting }) →
    fs = lastOf (s.filterLength d) ((s.deck d).history ++ [sumInt (cs.map u.cellWeightNow)]) →
    f = roundDiv (sumInt fs) fs.length →
    (∀ x : ChannelNo, x ∈ cs ↔ s.deckOf x = some d) ∧ cs.Pairwise (· < ·) ∧
    ∃ t, exec (.sampleArrival c counts st) s = .next t ∧
      t.channels = u.channels ∧ (∀ e : DeckNo, e ≠ d → t.deck e = s.deck e) ∧
      ((∃ x ∈ cs, (s.channelCal x).calibrated = false) →
        t.deck d =
          { condition := .uncalibrated, history := [], filtered := none, freshness := some (2 * s.period) }) ∧
      ((∀ x ∈ cs, (s.channelCal x).calibrated = true) →
        ((∃ x ∈ cs, u.StaleAt x) →
          t.deck d = { condition := .stale, history := [], filtered := none, freshness := some (2 * s.period) }) ∧
        ((∀ x ∈ cs, ¬ u.StaleAt x) →
          (((∃ x ∈ cs, u.OverAt x) ∨ sumInt (cs.map u.cellWeightNow) < -2147483648 ∨
              2147483647 < sumInt (cs.map u.cellWeightNow)) →
            t.deck d = { condition := .over, history := [], filtered := none, freshness := some (2 * s.period) }) ∧
          ((∀ x ∈ cs, ¬ u.OverAt x) → -2147483648 ≤ sumInt (cs.map u.cellWeightNow) →
            sumInt (cs.map u.cellWeightNow) ≤ 2147483647 →
            t.deck d =
              { condition := .valid, history := fs, filtered := some f, freshness := some (2 * s.period) }))) ∧
      (s.bridgeOfDeck d = none → SameBut [.channels, .decks, .reports, .checkWord] s t) ∧
      (∀ (b : BridgeNo) (k : BridgeCal) (sum g : Int) (win values : List Int), s.bridgeOfDeck d = some b →
        k = s.bridgeCal b →
        ((k.calibrated = false ∨ ∃ e ∈ k.members, (t.deck e).condition = .noChannels ∨
            (t.deck e).condition = .uncalibrated ∨ (t.deck e).condition = .stale) →
          (t.bridge b).state = .notReady ∧ (t.bridge b).run = 0) ∧
        ((∃ e ∈ k.members, (t.deck e).condition ≠ .valid) →
          (t.bridge b).sum = none ∧ (t.bridge b).gross = none ∧ (t.bridge b).weight = none ∧ (t.bridge b).window = []) ∧
        (k.calibrated = true →
          (∀ e ∈ k.members, (t.deck e).condition = .over ∨ (t.deck e).condition = .valid) →
          (∃ e ∈ k.members, (t.deck e).condition = .over) →
          (t.bridge b).state = (if s.metrology.closed then .calibrating else .over) ∧ (t.bridge b).run = 0) ∧
        (k.calibrated = true → (∀ e ∈ k.members, (t.deck e).condition = .valid) →
          k.members.map (fun e => (t.deck e).filtered) = values.map some → sum = sumInt values →
          g = sum - (s.bridge b).zb →
          win = (if -(20 * (k.interval : Int)) ≤ g ∧ g ≤ (k.maximum : Int) + 9 * k.interval
            then lastOf k.window ((s.bridge b).window ++ [sum]) else []) →
          (t.bridge b).sum = some sum ∧ (t.bridge b).gross = some g ∧ (t.bridge b).window = win ∧
            (t.bridge b).state =
              (if s.metrology.closed then .calibrating
               else if (k.maximum : Int) + 9 * k.interval < g then .over
               else if g < -(20 * (k.interval : Int)) then .under
               else if win.length < k.window ∨ (k.band : Int) < spread win then .motion
               else .stable) ∧
            ((t.bridge b).state = .stable → (s.bridge b).run ≤ 255 → (t.bridge b).run = min 255 ((s.bridge b).run + 1)) ∧
            ((t.bridge b).state ≠ .stable → (t.bridge b).run = 0) ∧
            (∀ x : Int, x = roundDiv g k.interval * k.interval →
              (t.bridge b).weight =
                if -2147483648 ≤ g ∧ g ≤ 2147483647 ∧ -2147483648 ≤ x ∧ x ≤ 2147483647 then some x else none)))

/-- R29: an evaluation takes a new zero where the backlog is above 0, no lane holds the grant, the bridge is STABLE, its
stable run has reached the stable hold and the bridge is empty: Zb becomes Zb + G, the backlog 0, the zero-waived flag
and the limit-reported mark are cleared, the zero timer restarts and ZERO_EVENT CAPTURED is queued. R30: where Zb + G
would lie outside Z0 ± zr·d, Zb, backlog and flag stay, and one ZERO_EVENT LIMIT is queued per episode. Where one of the
conditions fails nothing of the zero changes; that a lane which releases the grant at this evaluation counts as its
holder is the model's choice (log entry 52). R29 and R108 leave the order of zero capture and grant decision open (log
entry 2, a free value), so the first two stand where no lane waits or the backlog is urgent, when no grant can come
first. -/
def Obligations.ZeroCaptureOfAnEvaluation : Prop :=
  ∀ (c : ChannelNo) (counts : BitVec 24) (d : DeckNo) (b : BridgeNo) (e : Evaluation) (s u : State),
    s.EvaluatedBy u c counts d b → e = u.evaluation b →
    (∀ g : Int, (s.grant b).holder = none → ((s.grant b).waiting = [] ∨ (s.timing b).urgent ≤ (s.bridge b).backlog) →
      0 < (s.bridge b).backlog → e.state = .stable → (s.timing b).hold ≤ e.run → e.gross = some g →
      g.natAbs ≤ (s.timing b).empty * (s.bridgeCal b).interval →
      (((s.bridge b).zb + g - (s.bridgeCal b).z0).natAbs ≤ (s.bridgeCal b).zr * (s.bridgeCal b).interval →
        ∃ t, exec (.sampleArrival c counts .ok) s = .next t ∧ (t.bridge b).zb = (s.bridge b).zb + g ∧
          (t.bridge b).backlog = 0 ∧ (t.bridge b).waived = false ∧ (t.bridge b).limitReported = false ∧
          (t.bridge b).zeroTimer = (s.timing b).zeroInterval * 1000 ∧
          (s.link.reports.length < 32 →
            .zeroEvent
              { bridge := b, event := .captured, z0 := (s.bridgeCal b).z0, zb := (s.bridge b).zb + g, backlog := 0,
                waived := false, clock := s.ret.clock, candidate := none, before := some (s.bridge b).zb } ∈ t.voiced) ∧
          ((s.grant b).waiting = [] → (s.bridge b).capture = none → s.NoCrossing b →
            t.bridge b =
              { s.bridge b with
                sum := e.sum, gross := e.gross, weight := e.weight, window := e.window, state := .stable,
                underlying := e.underlying, run := e.run, zb := (s.bridge b).zb + g, backlog := 0, waived := false,
                limitReported := false, zeroTimer := (s.timing b).zeroInterval * 1000 } ∧
            SameBut [.channels, .decks, .bridges, .reports, .checkWord, .evaluations] s t)) ∧
        ((s.bridgeCal b).zr * (s.bridgeCal b).interval < ((s.bridge b).zb + g - (s.bridgeCal b).z0).natAbs →
          ∃ t, exec (.sampleArrival c counts .ok) s = .next t ∧ (t.bridge b).zb = (s.bridge b).zb ∧
            (t.bridge b).backlog = (s.bridge b).backlog ∧ (t.bridge b).waived = (s.bridge b).waived ∧
            (t.bridge b).limitReported = true ∧ (t.bridge b).zeroTimer = (s.bridge b).zeroTimer ∧
            ((s.bridge b).limitReported = false → s.link.reports.length < 32 →
              .zeroEvent
                { bridge := b, event := .limit, z0 := (s.bridgeCal b).z0, zb := (s.bridge b).zb,
                  backlog := (s.bridge b).backlog, waived := (s.bridge b).waived, clock := s.ret.clock,
                  candidate := some ((s.bridge b).zb + g), before := none } ∈ t.voiced) ∧
            ((s.bridge b).limitReported = true → (s.grant b).waiting = [] → (s.bridge b).capture = none →
              s.NoCrossing b → SameBut [.channels, .decks, .bridges, .checkWord, .evaluations] s t))) ∧
    (((s.bridge b).backlog = 0 ∨ (s.grant b).holder.isSome = true ∨ e.state ≠ .stable ∨ e.run < (s.timing b).hold ∨
        ∀ g : Int, e.gross = some g → (s.timing b).empty * (s.bridgeCal b).interval < g.natAbs) →
      ∃ t, exec (.sampleArrival c counts .ok) s = .next t ∧ (t.bridge b).zb = (s.bridge b).zb ∧
        (t.bridge b).backlog = (s.bridge b).backlog ∧ (t.bridge b).waived = (s.bridge b).waived ∧
        (t.bridge b).limitReported = (s.bridge b).limitReported ∧ (t.bridge b).zeroTimer = (s.bridge b).zeroTimer)

/-- R104, R10, R109: a bridge is granted only where the metrology switch is OPEN, no lane holds it, it is not
zero-urgent, it is STABLE or in MOTION, it is empty and a lane waits. R105, R106, R85: the lane chosen is the only one
that waits, else the one not granted last, else the lower-numbered; it goes to ENTERING with its front barrier raised,
or under power fail holds the grant in AWAIT_BRIDGE. R108: an evaluation of a zero-urgent bridge that takes no zero
grants nothing, and one of a bridge with no backlog grants by the results it forms. R107: a lane that releases the grant
hands it to the waiting lane at the same event where the conditions hold, and else leaves that lane waiting. The
decision is stated at ZERO_WAIVE (R32), which empties the backlog first, at an evaluation, and at a LANE_TAKEOVER of the
holder. Where zero capture and grant could both follow one evaluation their order is open (log entry 2). That a
metrology switch closed since the latest evaluation withholds a grant (R10 and R109, against the list of R104; log entry
55), and that the first grant after reset can come at the ZERO_WAIVE or the capturing evaluation itself (R104 and R108,
against R111; log entry 66), are the model's choices. -/
def Obligations.GrantDecisions : Prop :=
  (∀ (x : Byte) (b : BridgeNo) (s w : State), s.Ready → ofByte 4 x = some b →
    w = s.onBridge b (fun y => { y with backlog := 0 }) →
    (∀ (l : LaneNo) (f : BarrierNo), w.Grantable b → (s.grant b).Chooses l → (s.lane l).state = .awaitBridge →
      (s.config l).front = some f →
      ∃ t, exec (.zeroWaive x) s = .next t ∧
        (s.failing = false → EntersByGrant s t b l f ∧
          SameBut [.receiver, .reply, .bridges, .grants, .lanes, .barriers, .reports] s t) ∧
        (s.failing = true →
          t.grant b = { holder := some l, waiting := (s.grant b).waiting.filter (· ≠ l), last := some l } ∧
            (∀ o : BridgeNo, o ≠ b → t.grant o = s.grant o) ∧ SameBut [.receiver, .reply, .bridges, .grants] s t)) ∧
    (¬ w.Grantable b ∨ (s.grant b).waiting = [] →
      ∃ t, exec (.zeroWaive x) s = .next t ∧ SameBut [.receiver, .reply, .bridges] s t)) ∧
  (∀ (c : ChannelNo) (counts : BitVec 24) (d : DeckNo) (b : BridgeNo) (e : Evaluation) (s u : State),
    s.EvaluatedBy u c counts d b → e = u.evaluation b → s.NoCrossing b → (s.bridge b).capture = none →
    s.failing = false →
    ((s.timing b).urgent ≤ (s.bridge b).backlog →
      (e.state ≠ .stable ∨ e.run < (s.timing b).hold ∨
        ∀ g : Int, e.gross = some g → (s.timing b).empty * (s.bridgeCal b).interval < g.natAbs) →
      ∃ t, exec (.sampleArrival c counts .ok) s = .next t ∧
        SameBut [.channels, .decks, .bridges, .checkWord, .evaluations] s t) ∧
    (∀ (l : LaneNo) (f : BarrierNo) (g : Int), (s.bridge b).backlog = 0 → 0 < (s.timing b).urgent →
      (s.grant b).holder = none → (e.state = .stable ∨ e.state = .motion) → e.gross = some g →
      g.natAbs ≤ (s.timing b).empty * (s.bridgeCal b).interval → (s.grant b).Chooses l →
      (s.lane l).state = .awaitBridge → (s.config l).front = some f →
      ∃ t, exec (.sampleArrival c counts .ok) s = .next t ∧ EntersByGrant s t b l f ∧
        SameBut [.channels, .decks, .bridges, .grants, .lanes, .barriers, .reports, .checkWord, .evaluations] s t)) ∧
  (∀ (x : Byte) (l m : LaneNo) (b : BridgeNo) (f : BarrierNo) (s w : State), s.Ready → ofByte 4 x = some l →
    s.failing = false → (s.lane l).state = .captureFailed → (s.config l).bridge = some b → (s.grant b).holder = some l →
    s.laneMoving l = false → s.siteFull = [] → (s.grant b).waiting = [m] → m ≠ l → (s.lane m).state = .awaitBridge →
    (s.config m).front = some f → w = s.onGrant b (fun g => { g with holder := none }) →
    ∃ t, exec (.laneTakeover x) s = .next t ∧ (t.lane l).state = .manual ∧
      (w.Grantable b →
        t.grant b = { holder := some m, waiting := [], last := some m } ∧ (t.lane m).state = .entering ∧
          (t.lane m).signal = .green ∧ t.barrier f = (s.barrier f).raise s.motionTime ∧
          ∀ o : BarrierNo, o ≠ f → t.barrier o = s.barrier o) ∧
      (¬ w.Grantable b →
        t.grant b = { s.grant b with holder := none } ∧ t.lane m = s.lane m ∧ t.barriers = s.barriers))

/-- R45 to R49, R148, R88: where the evaluation of a lead arrival leaves the bridge STABLE for at least the stable hold,
with both deck-end beams clear and the front barrier DOWN, the capture of an inbound lane completes: the visit takes the
weighing record and goes to ON_SITE, CAPTURE_DONE is queued, and the lane raises its rear barrier and goes to LEAVING.
-/
def Obligations.CaptureCompletionWeighsTheVisit : Prop :=
  ∀ (c : ChannelNo) (counts : BitVec 24) (d : DeckNo) (b : BridgeNo) (l : LaneNo) (k : Capture) (v : Visit)
    (f r : BarrierNo) (w : Int) (s u : State), s.powered = true → s.failing = false →
    s.deckOf c = some d → s.leadOf d = some c → s.bridgeOfDeck d = some b → (s.bridge b).capture = some k → k.lane = l →
    (s.grant b).holder = some l → (s.lane l).state = .weighing → (s.lane l).visit = some k.visit →
    s.visitOf k.visit = some v → v.state = .weighingIn → v.storedTare = false →
    (s.config l).role = .inbound → (s.config l).front = some f → (s.config l).rear = some r →
    (s.barrier f).state = .down → (∀ m ∈ s.listing b, m ≠ l → (s.lane m).state = .awaitBridge ∨ (s.lane m).state = .idle) →
    (s.beam ⟨2 * b.val, by omega⟩).broken = false → (s.beam ⟨2 * b.val + 1, by omega⟩).broken = false →
    u = (s.onChannel c (fun x => x.arrived counts.toInt .ok s.stallTime)).deckArrival d →
    (u.evaluation b).state = .stable → (s.timing b).hold ≤ (u.evaluation b).run → (u.evaluation b).weight = some w →
    ∃ t record, exec (.sampleArrival c counts .ok) s = .next t ∧
      record = { weight := w, interval := (s.bridgeCal b).interval, bridge := b, decks := (s.bridgeCal b).members,
                 time := s.ret.clock, calCounter := s.ret.calCounter,
                 belowMin := decide (w.natAbs < 20 * (s.bridgeCal b).interval), zeroWaived := (s.bridge b).waived } ∧
      t.visitOf k.visit = some { v with state := .onSite, first := some record } ∧ (t.bridge b).capture = none ∧
      (t.bridge b).zb = (s.bridge b).zb ∧ (t.lane l).state = .leaving ∧ (t.lane l).signal = .red ∧
      (t.lane l).visit = some k.visit ∧
      (t.lane l).rearMark = (if (s.barrier r).occupied then .seen else .none) ∧
      t.barrier r = (s.barrier r).raise s.motionTime ∧ (∀ o : BarrierNo, o ≠ r → t.barrier o = s.barrier o) ∧
      (∀ m : LaneNo, m ≠ l → t.lane m = s.lane m) ∧
      (s.link.reports.length < 31 →
        .captureDone { bridge := b, lane := l, visit := k.visit, start := k.start, record := record } ∈ t.voiced) ∧
      SameBut [.channels, .decks, .bridges, .barriers, .lanes, .visits, .reports, .checkWord, .evaluations] s t

/-- R148, R149, R163, R168 to R170, R88 to R90, R123, R162: a capture of an outbound visit, or of an inbound visit whose
stored-tare permission finds a valid tare of its tag, makes a ticket of the first weighing and the second weighing or
that tare. Where the journal has room, ticketing is not held and no ticket waits, the ticket issues at once: it joins
the journal under the ticket counter, its charge is deducted from every cache entry of the account unless it is
provisional, the visit is TICKETED, an outbound one EXITING, and the lane goes to LEAVING with its rear barrier raised.
Where ticketing is held or the journal is full of uncollected tickets the ticket joins the end of the pending-ticket
order, the visit is TICKET_PENDING and the lane goes to TICKET_WAIT. An outbound DELIVERY ticket that is not provisional
places the second weighing as the tag's tare where the tag's cache entry is of the account and permits it. An inbound
visit whose permission finds no valid tare goes to ON_SITE. -/
def Obligations.CaptureCompletionMakesTheTicket : Prop :=
  ∀ (c : ChannelNo) (counts : BitVec 24) (d : DeckNo) (b : BridgeNo) (l : LaneNo) (k : Capture) (v : Visit) (r : BarrierNo)
    (w : Int) (record : WeighingRecord) (s u : State), s.CompletesCapture u c counts d b l k v r w →
    record = { weight := w, interval := (s.bridgeCal b).interval, bridge := b, decks := (s.bridgeCal b).members,
               time := s.ret.clock, calCounter := s.ret.calCounter,
               belowMin := decide (w.natAbs < 20 * (s.bridgeCal b).interval), zeroWaived := (s.bridge b).waived } →
    (∀ (first : WeighingRecord) (second : SecondPart) (x : Visit) (body : TicketBody),
      ((v.state = .weighingOut ∧ (s.config l).role = .outbound ∧ v.first = some first ∧ x = v ∧
          second = { value := w, interval := (s.bridgeCal b).interval, time := s.ret.clock, source := .secondWeighing,
                     bridge := some b, waived := (s.bridge b).waived }) ∨
        (v.state = .weighingIn ∧ (s.config l).role = .inbound ∧ v.storedTare = true ∧ first = record ∧
          x = { v with singlePass := true, first := some record } ∧
          ∃ y : Tare, s.tareOf v.tag = some y ∧ y.time ≤ s.ret.clock ∧
            s.ret.clock - y.time ≤ s.timers.tareDays * 86400 ∧
            second = { value := y.tare, interval := y.interval, time := y.time, source := .storedTare,
                       bridge := y.bridge, waived := false })) →
      body = computeTicket v first second (s.stream v.stream) →
      (s.ret.journal.held = false → s.ret.journal.tickets.length < 240 → s.ret.visits.order = [] →
        ∃ t ticket, exec (.sampleArrival c counts .ok) s = .next t ∧
          ticket = { body := body, number := s.ret.journal.counter, timeUnset := s.ret.clockUnset,
                     issueTime := s.ret.clock, calCounter := s.ret.calCounter, collected := false } ∧
          t.ret.journal =
            { tickets := s.ret.journal.tickets ++ [ticket], counter := succSkipZero s.ret.journal.counter,
              held := false } ∧
          t.ret.visits.order = [] ∧
          t.visitOf k.visit =
            some { x with
                   state := if v.state = .weighingOut then .exiting else .ticketed, pending := none,
                   ticketNumber := some s.ret.journal.counter } ∧
          (∀ i : Fin 48, t.adm.permit i = (s.adm.permit i).map (fun p =>
            if p.account = v.account ∧ v.provisional = false then
              { p with
                credit := if p.credit - body.charge < -2147483648 then -2147483648 else p.credit - body.charge }
            else p)) ∧
          t.adm.agingTimer = s.adm.agingTimer ∧ (t.lane l).state = .leaving ∧ (t.lane l).signal = .red ∧
          (t.lane l).visit = some k.visit ∧
          (t.lane l).rearMark = (if (s.barrier r).occupied then .seen else .none) ∧
          t.barrier r = (s.barrier r).raise s.motionTime ∧ (∀ o : BarrierNo, o ≠ r → t.barrier o = s.barrier o) ∧
          (∀ m : LaneNo, m ≠ l → t.lane m = s.lane m) ∧ (t.bridge b).capture = none ∧
          (s.link.reports.length < 31 →
            .captureDone { bridge := b, lane := l, visit := k.visit, start := k.start, record := record } ∈ t.voiced ∧
              ∃ e : TicketIssuedReport, .ticketIssued e ∈ t.voiced ∧ e.ticket = ticket ∧ e.wasPending = false) ∧
          SameBut [.channels, .decks, .bridges, .barriers, .lanes, .visits, .journal, .tares, .cache, .marks, .reports,
            .checkWord, .evaluations] s t) ∧
      ((s.ret.journal.held = true ∨
          (240 ≤ s.ret.journal.tickets.length ∧
            ∀ y : Ticket, s.ret.journal.tickets.head? = some y → y.collected = false)) →
        ∃ t, exec (.sampleArrival c counts .ok) s = .next t ∧ t.ret.visits.order = s.ret.visits.order ++ [k.visit] ∧
          t.visitOf k.visit = some { x with state := .ticketPending, pending := some body } ∧
          (t.lane l).state = .ticketWait ∧ (t.lane l).signal = .red ∧ (t.lane l).visit = some k.visit ∧
          (∀ m : LaneNo, m ≠ l → t.lane m = s.lane m) ∧ (t.bridge b).capture = none ∧
          SameBut [.channels, .decks, .bridges, .lanes, .visits, .tares, .marks, .reports, .checkWord, .evaluations]
            s t) ∧
      ∃ t, exec (.sampleArrival c counts .ok) s = .next t ∧
        ((v.state = .weighingOut ∧ body.direction = .delivery ∧ v.provisional = false ∧
            ∃ (i : Fin 48) (p : Permit), s.adm.search v.tag = some i ∧ s.adm.permit i = some p ∧
              p.account = v.account ∧ p.tareRefresh = true) →
          t.ret.tares =
            s.ret.tares.write (s.tareSlotFor v.tag)
              (some { tag := v.tag, tare := w, interval := (s.bridgeCal b).interval, bridge := some b,
                      time := s.ret.clock })) ∧
        ((v.state = .weighingIn ∨ body.direction = .collection ∨ v.provisional = true ∨
            ∀ (i : Fin 48) (p : Permit), s.adm.search v.tag = some i → s.adm.permit i = some p →
              p.account ≠ v.account ∨ p.tareRefresh = false) →
          t.ret.tares = s.ret.tares)) ∧
    (v.state = .weighingIn → (s.config l).role = .inbound → v.storedTare = true →
      (∀ y : Tare, s.tareOf v.tag = some y →
        s.ret.clock < y.time ∨ s.timers.tareDays * 86400 < s.ret.clock - y.time) →
      ∃ t, exec (.sampleArrival c counts .ok) s = .next t ∧
        t.visitOf k.visit = some { v with state := .onSite, first := some record } ∧ (t.lane l).state = .leaving ∧
        t.barrier r = (s.barrier r).raise s.motionTime ∧
        SameBut [.channels, .decks, .bridges, .barriers, .lanes, .visits, .reports, .checkWord, .evaluations] s t)

/-! ### Timers -/

/-- R20, R27, R28, R50, R51, R88: a freshness timer that expires makes its deck STALE with an empty history, which
leaves its bridge NOT_READY; a zero timer that expires restarts and raises the backlog, up to 15, with ZERO_EVENT at the
passage into urgency; an expired capture deadline ends the capture, returns the visit to its state before, and its lane
in WEIGHING goes to CAPTURE_FAILED. That an expiry acts whatever time is left is the model's choice (log entry 10), as
is that one of a timer that does not run completes and changes nothing (log entry 13), and the capture deadline of a
bridge without a capture with it. -/
def Obligations.DeckAndBridgeTimersExpire : Prop :=
  (∀ (d : DeckNo) (s : State), s.powered = true →
    ((s.deck d).freshness = none → ∃ t, exec (.freshnessExpiry d) s = .next t ∧ SameBut [] s t) ∧
    ((s.deck d).freshness.isSome = true → (s.deck d).condition = .stale →
      ∃ t, exec (.freshnessExpiry d) s = .next t ∧ t.deck d = { s.deck d with freshness := none } ∧
        (∀ e : DeckNo, e ≠ d → t.deck e = s.deck e) ∧ SameBut [.decks] s t) ∧
    ((s.deck d).freshness.isSome = true → (s.deck d).condition ≠ .stale →
      ∃ t, exec (.freshnessExpiry d) s = .next t ∧
        t.deck d = { condition := .stale, history := [], filtered := none, freshness := none } ∧
        (∀ e : DeckNo, e ≠ d → t.deck e = s.deck e) ∧ t.channels = s.channels ∧
        (s.bridgeOfDeck d = none → SameBut [.decks, .checkWord] s t) ∧
        (∀ b : BridgeNo, s.bridgeOfDeck d = some b →
          (t.bridge b).state = .notReady ∧ (t.bridge b).gross = none ∧ (t.bridge b).window = [] ∧
            (t.bridge b).run = 0))) ∧
  (∀ (b : BridgeNo) (s : State), s.powered = true →
    ∃ t, exec (.zeroTimerExpiry b) s = .next t ∧
      t.bridge b =
        { s.bridge b with
          zeroTimer := (s.timing b).zeroInterval * 1000,
          backlog := if (s.bridge b).backlog < 15 then (s.bridge b).backlog + 1 else (s.bridge b).backlog } ∧
      (∀ o : BridgeNo, o ≠ b → t.bridge o = s.bridge o) ∧ SameBut [.bridges, .reports] s t ∧
      ((s.timing b).urgent ≠ (s.bridge b).backlog + 1 ∨ 15 ≤ (s.bridge b).backlog → SameBut [.bridges] s t) ∧
      ((s.timing b).urgent = (s.bridge b).backlog + 1 → (s.bridge b).backlog < 15 → s.link.reports.length < 32 →
        t.voiced = s.voiced ++ [.zeroEvent
          { bridge := b, event := .urgent, z0 := (s.bridgeCal b).z0, zb := (s.bridge b).zb,
            backlog := (s.bridge b).backlog + 1, waived := (s.bridge b).waived, clock := s.ret.clock,
            candidate := none, before := none }])) ∧
  (∀ (b : BridgeNo) (s : State), s.powered = true →
    ((s.bridge b).capture = none → ∃ t, exec (.captureDeadlineExpiry b) s = .next t ∧ SameBut [] s t) ∧
    (∀ k : Capture, (s.bridge b).capture = some k → (s.lane k.lane).state = .weighing →
      ∃ t, exec (.captureDeadlineExpiry b) s = .next t ∧ t.bridge b = { s.bridge b with capture := none } ∧
        (∀ o : BridgeNo, o ≠ b → t.bridge o = s.bridge o) ∧
        t.lane k.lane =
          { s.lane k.lane with
            state := .captureFailed, signal := .red, lastReason := some (.capture k.blocking) } ∧
        (∀ m : LaneNo, m ≠ k.lane → t.lane m = s.lane m) ∧
        (∀ v : Visit, s.visitOf k.visit = some v →
          (v.state = .weighingIn → t.visitOf k.visit = some { v with state := .admitted }) ∧
            (v.state = .weighingOut → t.visitOf k.visit = some { v with state := .onSite })) ∧
        (s.link.reports.length < 31 →
          .captureFailed
            { bridge := b, lane := k.lane, visit := k.visit, reason := k.blocking, start := k.start,
              clock := s.ret.clock, state := (s.bridge b).state,
              gross := (s.bridge b).gross.filter inInt32, weight := (s.bridge b).weight } ∈ t.voiced) ∧
        SameBut [.bridges, .lanes, .visits, .reports, .checkWord] s t))

/-- R79, R87, R151, R98, R116: an expired identity timer takes a lane from AWAIT_ID to NO_ID; an expired entry timer
withdraws the entry where the bridge is empty and the two loops are CLEAR, an inbound visit being removed and an
outbound one kept without a lane, and else restarts; under power fail both are held as expired. The aging timer lowers
every bucket above 0 by 1 and restarts. R140, R141: the deadline of an ACTIVE slot makes the slot LATE and falls back as
the lane is configured: REFUSE refuses the vehicle with QUERY_TIMEOUT, PROVISIONAL creates a provisional visit with
account 0 that the slot names; under power fail the expiry is held. That an expiry acts whatever time is left is the
model's choice (log entry 10), as is that one of a timer that does not run, or of a slot that is not ACTIVE, completes
and changes nothing (log entry 13). That the bridge is tested empty with the e held at the expiry is the model's choice
too (log entry 44). -/
def Obligations.LaneTimersAndQueryDeadlinesExpire : Prop :=
  ((∀ (l : LaneNo) (s : State), s.powered = true →
    (∀ left : Nat, (s.lane l).identityTimer = .running left →
      (s.failing = true →
        ∃ t, exec (.identityTimerExpiry l) s = .next t ∧ t.lane l = { s.lane l with identityTimer := .expired } ∧
          (∀ m : LaneNo, m ≠ l → t.lane m = s.lane m) ∧ SameBut [.lanes] s t) ∧
      (s.failing = false → (s.lane l).state = .awaitId →
        ∃ t, exec (.identityTimerExpiry l) s = .next t ∧
          t.lane l = { s.lane l with state := .noId, signal := .red, identityTimer := .stopped } ∧
          (∀ m : LaneNo, m ≠ l → t.lane m = s.lane m) ∧ SameBut [.lanes, .reports] s t)) ∧
    ((∀ left : Nat, (s.lane l).identityTimer ≠ .running left) →
      ∃ t, exec (.identityTimerExpiry l) s = .next t ∧ SameBut [] s t) ∧
    (∀ left : Nat, (s.lane l).entryTimer = .running left →
      (s.failing = true →
        ∃ t, exec (.entryTimerExpiry l) s = .next t ∧ t.lane l = { s.lane l with entryTimer := .expired } ∧
          (∀ m : LaneNo, m ≠ l → t.lane m = s.lane m) ∧ SameBut [.lanes] s t) ∧
      (s.failing = false → (s.lane l).state = .entering →
        (s.ownBridgeEmpty l = false ∨ s.approachOccupied l = true ∨ s.safetyOccupied (s.config l).front = true) →
        ∃ t, exec (.entryTimerExpiry l) s = .next t ∧
          t.lane l = { s.lane l with entryTimer := .running (s.timers.entry * 1000) } ∧
          (∀ m : LaneNo, m ≠ l → t.lane m = s.lane m) ∧ SameBut [.lanes, .checkWord] s t) ∧
      (∀ (b : BridgeNo) (n : Nat), s.failing = false → (s.lane l).state = .entering → s.ownBridgeEmpty l = true →
        s.approachOccupied l = false → s.safetyOccupied (s.config l).front = false → (s.config l).bridge = some b →
        (s.config l).role = .inbound → (s.lane l).visit = some n → (s.grant b).holder = some l →
        (s.grant b).waiting = [] → s.siteFull = [] →
        ∃ t, exec (.entryTimerExpiry l) s = .next t ∧
          t.lane l =
            { s.lane l with
              state := .idle, signal := .red, identity := none, visit := none, entryTimer := .stopped } ∧
          (t.grant b).holder = none ∧ t.ret.visits.records = s.ret.visits.records.filter (fun w => w.number ≠ n) ∧
          (∀ f : BarrierNo, (s.config l).front = some f → t.barrier f = (s.barrier f).lower s.motionTime) ∧
          (∀ f : BarrierNo, (s.config l).front ≠ some f → t.barrier f = s.barrier f) ∧
          (∀ m : LaneNo, m ≠ l → t.lane m = s.lane m) ∧
          SameBut [.lanes, .barriers, .grants, .visits, .reports, .checkWord] s t) ∧
      (∀ (b : BridgeNo) (n : Nat) (v : Visit), s.failing = false → (s.lane l).state = .entering →
        s.ownBridgeEmpty l = true → s.approachOccupied l = false → s.safetyOccupied (s.config l).front = false →
        (s.config l).bridge = some b → (s.config l).role = .outbound → (s.lane l).visit = some n →
        s.visitOf n = some v → (s.grant b).holder = some l → (s.grant b).waiting = [] →
        ∃ t, exec (.entryTimerExpiry l) s = .next t ∧
          t.lane l =
            { s.lane l with
              state := .idle, signal := .red, identity := none, visit := none, entryTimer := .stopped } ∧
          (t.grant b).holder = none ∧ t.visitOf n = some { v with currentLane := none } ∧
          (∀ f : BarrierNo, (s.config l).front = some f → t.barrier f = (s.barrier f).lower s.motionTime) ∧
          (∀ f : BarrierNo, (s.config l).front ≠ some f → t.barrier f = s.barrier f) ∧
          (∀ m : LaneNo, m ≠ l → t.lane m = s.lane m) ∧
          SameBut [.lanes, .barriers, .grants, .visits, .reports, .checkWord] s t))) ∧
  (∀ s : State, s.powered = true →
    ∃ t, exec .agingTimerExpiry s = .next t ∧
      (∀ i : Fin 48, t.adm.permit i = (s.adm.permit i).map (fun p => { p with bucket := p.bucket - 1 })) ∧
      t.adm.agingTimer = s.timers.aging * 1000 ∧ SameBut [.cache] s t)) ∧
  (∀ (l : LaneNo) (s : State), s.powered = true →
    ((s.slot l).state ≠ .active → ∃ t, exec (.queryDeadlineExpiry l) s = .next t ∧ SameBut [] s t) ∧
    (∀ left : Nat, (s.slot l).state = .active → (s.slot l).deadline = .running left →
      (s.failing = true →
        ∃ t, exec (.queryDeadlineExpiry l) s = .next t ∧ t.slot l = { s.slot l with deadline := .expired } ∧
          (∀ m : LaneNo, m ≠ l → t.slot m = s.slot m) ∧ t.adm.queryCounter = s.adm.queryCounter ∧
          SameBut [.queries] s t) ∧
      (s.failing = false → (s.config l).fallback = .refuse →
        ∃ t, exec (.queryDeadlineExpiry l) s = .next t ∧
          t.slot l = { s.slot l with state := .late, deadline := .stopped, held := none } ∧
          (∀ m : LaneNo, m ≠ l → t.slot m = s.slot m) ∧ (t.lane l).query = none ∧ (t.lane l).state = .refused ∧
          (t.lane l).lastReason = some (.refusal .queryTimeout) ∧ (∀ m : LaneNo, m ≠ l → t.lane m = s.lane m) ∧
          ((∃ (i : Fin 8) (q : RefusalRecord), t.adm.records.read i = some q ∧ q.tag = (s.slot l).tag) ∨
            t.adm.overflow = true) ∧
          SameBut [.queries, .lanes, .refusals, .reports, .checkWord] s t) ∧
      (s.failing = false → (s.config l).fallback = .provisional → s.visitOfTag (s.slot l).tag = none →
        s.ret.visits.records.length < 64 →
        ∃ t v, exec (.queryDeadlineExpiry l) s = .next t ∧ v ∈ t.ret.visits.records ∧ v.tag = (s.slot l).tag ∧
          v.account = 0 ∧ v.provisional = true ∧ v.state = .admitted ∧ v.stream = (s.slot l).stream ∧
          (∀ w ∈ s.ret.visits.records, w ∈ t.ret.visits.records ∧ w.number ≠ v.number) ∧
          t.slot l =
            { s.slot l with state := .late, deadline := .stopped, held := none, provisional := some v.number } ∧
          (∀ m : LaneNo, m ≠ l → t.slot m = s.slot m) ∧ (t.lane l).visit = some v.number ∧ (t.lane l).query = none ∧
          ((t.lane l).state = .awaitBridge ∨ (t.lane l).state = .entering) ∧
          SameBut [.queries, .lanes, .barriers, .grants, .visits, .reports, .checkWord] s t)))

/-! ### Field lines and power -/

/-- R58, R64, R65, R94: an end switch that takes a new level starts its 20 ms filter, and one back at its filtered state
stops it; a held level becomes the filtered state, and is an arrival, a fault (FORCED for an arm that leaves UP or DOWN,
SWITCH_CONFLICT for a second active switch) or nothing by the barrier's state. The motion timer of a moving barrier puts
it in FAULT with its lanes. That a filter or timer ends whatever time is left is the model's choice (log entry 10), as
is that END_SWITCH_CHANGE with no filter running and MOTION_TIMER_EXPIRY of a barrier that does not move change nothing
(log entry 13). -/
def Obligations.BarriersFollowTheirSwitches : Prop :=
  ∀ (b : BarrierNo) (s : State), s.powered = true →
    (∀ level : Bool, s.pins.upSwitch.read b ≠ level →
      ∃ t, exec (.endSwitchInputChange b .up level) s = .next t ∧
        t.pins = { s.pins with upSwitch := s.pins.upSwitch.write b level } ∧
        t.barrier b =
          { s.barrier b with upFilter := if level = (s.barrier b).upActive then none else some 20 } ∧
        (∀ o : BarrierNo, o ≠ b → t.barrier o = s.barrier o) ∧ SameBut [.pins, .barriers] s t) ∧
    (∀ level : Bool, s.pins.downSwitch.read b ≠ level →
      ∃ t, exec (.endSwitchInputChange b .down level) s = .next t ∧
        t.pins = { s.pins with downSwitch := s.pins.downSwitch.write b level } ∧
        t.barrier b =
          { s.barrier b with downFilter := if level = (s.barrier b).downActive then none else some 20 } ∧
        (∀ o : BarrierNo, o ≠ b → t.barrier o = s.barrier o) ∧ SameBut [.pins, .barriers] s t) ∧
    ((s.barrier b).upFilter = none → ∃ t, exec (.endSwitchChange b .up) s = .next t ∧ SameBut [] s t) ∧
    ((s.barrier b).upFilter.isSome = true → s.pins.upSwitch.read b = true → (s.barrier b).state = .raising →
      (s.barrier b).downActive = false →
      (∀ l ∈ s.lanesNaming b, (s.lane l).state = .idle ∨ (s.lane l).state = .manual) →
      ∃ t, exec (.endSwitchChange b .up) s = .next t ∧
        ((s.barrier b).pendingLower = false ∨ (s.barrier b).occupied = true →
          t.barrier b =
            { s.barrier b with state := .up, motionTimer := none, upActive := true, upFilter := none }) ∧
        ((s.barrier b).pendingLower = true → (s.barrier b).occupied = false →
          t.barrier b =
            { s.barrier b with
              state := .lowering, motionTimer := some (s.timers.motion * 1000), pendingLower := false,
              upActive := true, upFilter := none }) ∧
        (∀ o : BarrierNo, o ≠ b → t.barrier o = s.barrier o) ∧ SameBut [.barriers, .checkWord] s t) ∧
    ((s.barrier b).downFilter.isSome = true → s.pins.downSwitch.read b = true → (s.barrier b).state = .lowering →
      (s.barrier b).upActive = false →
      (∀ l ∈ s.lanesNaming b, (s.lane l).state = .idle ∨ (s.lane l).state = .manual) →
      ∃ t, exec (.endSwitchChange b .down) s = .next t ∧
        t.barrier b =
          { s.barrier b with state := .down, motionTimer := none, downActive := true, downFilter := none } ∧
        (∀ o : BarrierNo, o ≠ b → t.barrier o = s.barrier o) ∧ SameBut [.barriers, .checkWord] s t) ∧
    ((s.barrier b).downFilter.isSome = true → s.pins.downSwitch.read b = false →
      ((s.barrier b).state = .down →
        ∃ t, exec (.endSwitchChange b .down) s = .next t ∧
          t.barrier b =
            { s.barrier b with
              state := .fault, motionTimer := none, pendingLower := false, reason := .forced, downActive := false,
              downFilter := none } ∧
          ((∀ l ∈ s.lanesNaming b, (s.lane l).state ≠ .takeoverPending) →
            ∀ l ∈ s.lanesNaming b, (s.lane l).state ≠ .manual → (t.lane l).state = .laneFault)) ∧
      ((s.barrier b).state ≠ .down →
        ∃ t, exec (.endSwitchChange b .down) s = .next t ∧
          t.barrier b = { s.barrier b with downActive := false, downFilter := none } ∧
          (∀ o : BarrierNo, o ≠ b → t.barrier o = s.barrier o) ∧ SameBut [.barriers] s t)) ∧
    ((s.barrier b).upFilter.isSome = true → s.pins.upSwitch.read b = true → (s.barrier b).downActive = true →
      (s.barrier b).state ≠ .fault →
      ∃ t, exec (.endSwitchChange b .up) s = .next t ∧
        t.barrier b =
          { s.barrier b with
            state := .fault, motionTimer := none, pendingLower := false, reason := .switchConflict, upActive := true,
            upFilter := none }) ∧
    ((s.barrier b).downFilter.isSome = true → s.pins.downSwitch.read b = true → (s.barrier b).upActive = true →
      (s.barrier b).state ≠ .fault →
      ∃ t, exec (.endSwitchChange b .down) s = .next t ∧
        t.barrier b =
          { s.barrier b with
            state := .fault, motionTimer := none, pendingLower := false, reason := .switchConflict, downActive := true,
            downFilter := none }) ∧
    ((s.barrier b).upFilter.isSome = true → s.pins.upSwitch.read b = false →
      ((s.barrier b).state = .up →
        ∃ t, exec (.endSwitchChange b .up) s = .next t ∧
          t.barrier b =
            { s.barrier b with
              state := .fault, motionTimer := none, pendingLower := false, reason := .forced, upActive := false,
              upFilter := none } ∧
          ((∀ l ∈ s.lanesNaming b, (s.lane l).state ≠ .takeoverPending) →
            ∀ l ∈ s.lanesNaming b, (s.lane l).state ≠ .manual → (t.lane l).state = .laneFault)) ∧
      ((s.barrier b).state ≠ .up →
        ∃ t, exec (.endSwitchChange b .up) s = .next t ∧
          t.barrier b = { s.barrier b with upActive := false, upFilter := none } ∧
          (∀ o : BarrierNo, o ≠ b → t.barrier o = s.barrier o) ∧ SameBut [.barriers] s t)) ∧
    ((s.barrier b).state ≠ .raising → (s.barrier b).state ≠ .lowering →
      ∃ t, exec (.motionTimerExpiry b) s = .next t ∧ SameBut [] s t) ∧
    ((s.barrier b).state = .raising ∨ (s.barrier b).state = .lowering →
      ∃ t, exec (.motionTimerExpiry b) s = .next t ∧
        t.barrier b =
          { s.barrier b with
            state := .fault, motionTimer := none, pendingLower := false, reason := .motionTimeout } ∧
        ((∀ l ∈ s.lanesNaming b, (s.lane l).state ≠ .takeoverPending) →
          (∀ l ∈ s.lanesNaming b, (s.lane l).state ≠ .manual →
            (t.lane l).state = .laneFault ∧ (t.lane l).identityTimer = .stopped ∧ (t.lane l).entryTimer = .stopped ∧
              (t.lane l).lastReason = some (.cancelled .barrierFault)) ∧
          (∀ l ∈ s.lanesNaming b, (s.lane l).state = .manual → t.lane l = s.lane l) ∧
          (∀ o : BarrierNo, o ≠ b → t.barrier o = s.barrier o) ∧
            (∀ l : LaneNo, l ∉ s.lanesNaming b → t.lane l = s.lane l) ∧
            (∀ o : BridgeNo, (t.grant o).holder = (s.grant o).holder) ∧ t.pins = s.pins))

/-- R59, R62, R63, R78: a safety loop input going active makes the loop OCCUPIED at once, stops a running clear filter,
and reverses a LOWERING barrier; the lanes that watch the barrier note the vehicle in their crossing marks, front or
rear: NONE becomes SEEN, SEEN and PASSED stay. Both inputs inactive start the 500 ms clear filter; when it ends the loop
is CLEAR, the SEEN marks of the lanes that watch it become PASSED, NONE and PASSED stay, and an UP barrier with
pending-lower set goes to LOWERING; in LEAVING a rear mark that becomes PASSED lowers the rear barrier and the lane lets
go of its vehicle (R90). The model's choices: the filter ends whatever time is left (log entry 10), SAFETY_LOOP_CLEAR
with no filter running changes nothing (log entry 13), and lanes in LANE_FAULT, TAKEOVER_PENDING and MANUAL keep their
marks (log entry 18). -/
def Obligations.SafetyLoopsGuardTheArm : Prop :=
  ∀ (b : BarrierNo) (s : State), s.powered = true →
    (∀ inputs : LoopInputs, (s.barrier b).occupied = true →
      ∃ t, exec (.safetyLoopOccupied b inputs) s = .next t ∧ t.barrier b = { s.barrier b with clearFilter := none } ∧
        (∀ o : BarrierNo, o ≠ b → t.barrier o = s.barrier o) ∧ SameBut [.pins, .barriers] s t) ∧
    (∀ inputs : LoopInputs, (s.barrier b).occupied = false →
      ∃ t, exec (.safetyLoopOccupied b inputs) s = .next t ∧
        t.pins =
          { s.pins with
            safetyPresence := s.pins.safetyPresence.write b inputs.hasPresence,
            safetyFault := s.pins.safetyFault.write b inputs.hasFault } ∧
        ((s.barrier b).state = .lowering →
          t.barrier b =
            { s.barrier b with
              occupied := true, clearFilter := none, state := .raising, pendingLower := true,
              motionTimer := some (s.timers.motion * 1000), reversals := countTo 65535 (s.barrier b).reversals }) ∧
        ((s.barrier b).state ≠ .lowering →
          t.barrier b = { s.barrier b with occupied := true, clearFilter := none }) ∧
        (∀ o : BarrierNo, o ≠ b → t.barrier o = s.barrier o) ∧
        (∀ l : LaneNo, MarksMove s t b .none .seen l) ∧ SameBut [.pins, .barriers, .lanes] s t) ∧
    (∃ t, exec (.safetyLoopInputInactive b) s = .next t ∧
      t.pins =
        { s.pins with
          safetyPresence := s.pins.safetyPresence.write b false, safetyFault := s.pins.safetyFault.write b false } ∧
      ((s.barrier b).occupied = true → (s.barrier b).clearFilter = none →
        t.barrier b = { s.barrier b with clearFilter := some 500 }) ∧
      ((s.barrier b).occupied = false ∨ (s.barrier b).clearFilter ≠ none → t.barrier b = s.barrier b) ∧
      (∀ o : BarrierNo, o ≠ b → t.barrier o = s.barrier o) ∧ SameBut [.pins, .barriers] s t) ∧
    ((s.barrier b).clearFilter = none → ∃ t, exec (.safetyLoopClear b) s = .next t ∧ SameBut [] s t) ∧
    ((s.barrier b).clearFilter.isSome = true →
      (∀ l ∈ s.lanesNaming b, (s.lane l).state ≠ .entering ∧ (s.lane l).state ≠ .leaving ∧
        (s.lane l).state ≠ .backingOut ∧ (s.lane l).state ≠ .passing) →
      ∃ t, exec (.safetyLoopClear b) s = .next t ∧
        ((s.barrier b).state = .up → (s.barrier b).pendingLower = true →
          t.barrier b =
            { s.barrier b with
              occupied := false, clearFilter := none, state := .lowering, pendingLower := false,
              motionTimer := some (s.timers.motion * 1000) }) ∧
        ((s.barrier b).state ≠ .up ∨ (s.barrier b).pendingLower = false →
          t.barrier b = { s.barrier b with occupied := false, clearFilter := none }) ∧
        (∀ o : BarrierNo, o ≠ b → t.barrier o = s.barrier o) ∧
        (∀ l : LaneNo, MarksMove s t b .seen .passed l) ∧ SameBut [.barriers, .lanes, .checkWord] s t) ∧
    (∀ l : LaneNo, (s.barrier b).clearFilter.isSome = true → (s.barrier b).state = .up → s.failing = false →
      (s.lane l).state = .leaving → (s.config l).rear = some b → (s.config l).front ≠ some b →
      (∀ m ∈ s.lanesNaming b, m ≠ l → (s.lane m).state ≠ .entering ∧ (s.lane m).state ≠ .leaving ∧
        (s.lane m).state ≠ .backingOut ∧ (s.lane m).state ≠ .passing) →
      ∃ t, exec (.safetyLoopClear b) s = .next t ∧
        ((s.lane l).rearMark = .seen → (s.lane l).visit = none →
          t.lane l = { s.lane l with rearMark := .passed, identity := none } ∧
            t.barrier b =
              { s.barrier b with
                occupied := false, clearFilter := none, state := .lowering, pendingLower := false,
                motionTimer := some (s.timers.motion * 1000) } ∧
            (∀ o : BarrierNo, o ≠ b → t.barrier o = s.barrier o) ∧
            (∀ m : LaneNo, m ≠ l → MarksMove s t b .seen .passed m) ∧
            SameBut [.barriers, .lanes, .checkWord] s t) ∧
        ((s.lane l).rearMark ≠ .seen →
          t.lane l = s.lane l ∧ (∀ m : LaneNo, m ≠ l → MarksMove s t b .seen .passed m) ∧
            SameBut [.barriers, .lanes, .checkWord] s t))

/-- R69, R79, R80, R86, R135: an approach loop becoming OCCUPIED takes an IDLE lane with a role to AWAIT_ID; both inputs
inactive start the 500 ms clear filter; when it ends the loop is CLEAR, and a lane in AWAIT_ID, NO_ID, REFUSED,
ADMITTING, SITE_FULL or AWAIT_BRIDGE forgets its vehicle and goes to IDLE, its query abandoned, its place in the list or
its request given up, an inbound visit removed, while a lane in ENTERING whose front mark is PASSED over a loaded bridge
goes to WEIGHING with a capture. That the clear filter ends whatever time is left is the model's choice (log entry 10),
as is that APPROACH_LOOP_CLEAR with no filter running changes nothing (log entry 13). The bridge is tested loaded with
the e held at the event (the model's choice, log entry 44). -/
def Obligations.ApproachLoopsBringAndLoseVehicles : Prop :=
  ∀ (a : LoopNo) (s : State), s.powered = true → s.failing = false →
    (∀ inputs : LoopInputs, (s.loop a).occupied = true →
      ∃ t, exec (.approachLoopOccupied a inputs) s = .next t ∧ t.loop a = { s.loop a with clearFilter := none } ∧
        (∀ o : LoopNo, o ≠ a → t.loop o = s.loop o) ∧ SameBut [.pins, .loops] s t) ∧
    (∀ inputs : LoopInputs, (s.loop a).occupied = false →
      ∃ t, exec (.approachLoopOccupied a inputs) s = .next t ∧
        t.loop a = { occupied := true, clearFilter := none } ∧
        t.pins =
          { s.pins with
            approachPresence := s.pins.approachPresence.write a inputs.hasPresence,
            approachFault := s.pins.approachFault.write a inputs.hasFault } ∧
        (∀ l : LaneNo, (s.config l).loop = some a → (s.lane l).state = .idle → (s.config l).role ≠ .none →
          t.lane l =
            { s.lane l with
              state := .awaitId, signal := .red, identityTimer := .running (s.timers.identity * 1000) }) ∧
        (∀ l : LaneNo, ((s.config l).loop ≠ some a ∨ (s.lane l).state ≠ .idle ∨ (s.config l).role = .none) →
          t.lane l = s.lane l) ∧
        (∀ o : LoopNo, o ≠ a → t.loop o = s.loop o) ∧ SameBut [.pins, .loops, .lanes, .reports] s t) ∧
    (∃ t, exec (.approachLoopInputInactive a) s = .next t ∧
      ((s.loop a).occupied = true → (s.loop a).clearFilter = none →
        t.loop a = { s.loop a with clearFilter := some 500 }) ∧
      ((s.loop a).occupied = false ∨ (s.loop a).clearFilter ≠ none → t.loop a = s.loop a) ∧
      (∀ o : LoopNo, o ≠ a → t.loop o = s.loop o) ∧ SameBut [.pins, .loops] s t) ∧
    ((s.loop a).clearFilter = none → ∃ t, exec (.approachLoopClear a) s = .next t ∧ SameBut [] s t) ∧
    (∀ l : LaneNo, (s.loop a).clearFilter.isSome = true → s.lanesAtLoop a = [l] →
      ((s.lane l).state = .awaitId ∨ (s.lane l).state = .noId ∨ (s.lane l).state = .refused) →
      ∃ t, exec (.approachLoopClear a) s = .next t ∧ t.loop a = { occupied := false, clearFilter := none } ∧
        (t.lane l).state = .idle ∧ (t.lane l).identity = none ∧ (t.lane l).visit = none ∧ (t.lane l).signal = .red ∧
        ((s.lane l).state = .awaitId → (t.lane l).identityTimer = .stopped) ∧
        (∀ m : LaneNo, m ≠ l → t.lane m = s.lane m) ∧ (∀ o : LoopNo, o ≠ a → t.loop o = s.loop o) ∧
        SameBut [.loops, .lanes, .reports, .checkWord] s t) ∧
    (∀ (l : LaneNo) (b : BridgeNo) (f : BarrierNo) (n : Nat) (v : Visit), (s.loop a).clearFilter.isSome = true →
      s.lanesAtLoop a = [l] → (s.lane l).state = .entering → (s.lane l).entered = false →
      (s.lane l).frontMark = .passed → (s.config l).bridge = some b → (s.config l).front = some f →
      s.bridgeLoaded b = true → (s.lane l).visit = some n → s.visitOf n = some v → v.state = .admitted →
      (s.grant b).holder = some l → (s.bridge b).capture = none →
      ∃ t, exec (.approachLoopClear a) s = .next t ∧ (t.lane l).state = .weighing ∧ (t.lane l).signal = .red ∧
        (t.lane l).entryTimer = .stopped ∧ t.barrier f = (s.barrier f).lower s.motionTime ∧
        (t.bridge b).capture = some
          { visit := n, lane := l, start := s.ret.clock, timeout := (s.timing b).captureTimeout,
            deadline := (s.timing b).captureTimeout * 1000, blocking := .notReady } ∧
        t.visitOf n = some { v with state := .weighingIn } ∧ (∀ m : LaneNo, m ≠ l → t.lane m = s.lane m) ∧
        (∀ o : BarrierNo, o ≠ f → t.barrier o = s.barrier o) ∧
        SameBut [.loops, .lanes, .barriers, .bridges, .visits, .reports, .checkWord] s t) ∧
    (∀ l : LaneNo, (s.loop a).clearFilter.isSome = true → s.lanesAtLoop a = [l] →
      ((s.lane l).state = .admitting → (s.slot l).state = .active →
        ∃ t, exec (.approachLoopClear a) s = .next t ∧
          t.lane l = { s.lane l with state := .idle, signal := .red, identity := none, visit := none, query := none } ∧
          t.slot l = { s.slot l with state := .late, deadline := .stopped, held := none, provisional := none } ∧
          (∀ m : LaneNo, m ≠ l → t.lane m = s.lane m ∧ t.slot m = s.slot m) ∧
          t.adm.queryCounter = s.adm.queryCounter ∧ SameBut [.loops, .lanes, .queries, .reports, .checkWord] s t) ∧
      ((s.lane l).state = .siteFull →
        ∃ t, exec (.approachLoopClear a) s = .next t ∧
          t.lane l = { s.lane l with state := .idle, signal := .red, identity := none, visit := none } ∧
          t.siteFull = s.siteFull.filter (· ≠ l) ∧ (∀ m : LaneNo, m ≠ l → t.lane m = s.lane m) ∧
          SameBut [.loops, .lanes, .siteFull, .reports, .checkWord] s t) ∧
      (∀ (b : BridgeNo) (n : Nat) (v : Visit), (s.lane l).state = .awaitBridge → (s.config l).bridge = some b →
        (s.grant b).holder ≠ some l → (s.lane l).visit = some n → s.visitOf n = some v → s.siteFull = [] →
        ∃ t, exec (.approachLoopClear a) s = .next t ∧
          t.lane l = { s.lane l with state := .idle, signal := .red, identity := none, visit := none } ∧
          t.grant b = { s.grant b with waiting := (s.grant b).waiting.filter (· ≠ l) } ∧
          (∀ o : BridgeNo, o ≠ b → t.grant o = s.grant o) ∧
          ((s.config l).role = .inbound →
            t.ret.visits.records = s.ret.visits.records.filter (fun w => w.number ≠ n)) ∧
          ((s.config l).role ≠ .inbound → t.visitOf n = some { v with currentLane := none }) ∧
          (∀ m : LaneNo, m ≠ l → t.lane m = s.lane m) ∧
          SameBut [.loops, .lanes, .grants, .visits, .reports, .checkWord] s t))

/-- R90, R150: in LEAVING the rear safety loop becoming CLEAR over a SEEN mark makes it PASSED, lowers the rear barrier
and clears the lane's vehicle: an outbound visit leaves the table, an inbound one has no lane; the rear barrier then
coming to DOWN over an empty bridge releases the grant, and the lane goes to IDLE, or to AWAIT_ID over an occupied
approach loop. R86: a TICKETED vehicle passing out sets the entered mark in ENTERING, with the signal RED and the front
barrier lowered, also over a front barrier that is DOWN already (the model's choice, log entry 54), and its arrival at
DOWN takes the lane to LEAVING, the visit EXITING, the rear barrier raised. R92: a backout ends when the front loop
clears over a PASSED mark and an empty bridge: the front barrier lowers, the grant is released, an inbound visit is
removed and recorded as BACKED_OUT, an outbound one is kept without a lane. The lane's last reason stays (the model's
choice, log entry 49). R84: PASSING ends when the front loop clears over a PASSED mark with the approach loop CLEAR: the
front barrier lowers and the visit is removed (before the lane's change to IDLE, the model's choice, log entry 50). The
model's choices too: the ends of filters act whatever time is left (log entry 10), and the bridge is tested with the e
held at the event (log entry 44). -/
def Obligations.SequencesEnd : Prop :=
  ∀ (l : LaneNo) (s : State), s.powered = true → s.failing = false → s.siteFull = [] →
    (∀ (r : BarrierNo) (n : Nat) (v : Visit), (s.lane l).state = .leaving → (s.config l).rear = some r →
      (s.config l).front ≠ some r → s.lanesNaming r = [l] → (s.barrier r).clearFilter.isSome = true →
      (s.barrier r).state = .up → (s.lane l).rearMark = .seen → (s.lane l).visit = some n → s.visitOf n = some v →
      ∃ t, exec (.safetyLoopClear r) s = .next t ∧
        t.lane l = { s.lane l with rearMark := .passed, identity := none, visit := none } ∧
        t.barrier r =
          { s.barrier r with
            occupied := false, clearFilter := none, state := .lowering, pendingLower := false,
            motionTimer := some (s.timers.motion * 1000) } ∧
        ((s.config l).role = .outbound →
          t.ret.visits.records = s.ret.visits.records.filter (fun w => w.number ≠ n) ∧
            t.ret.visits.order = s.ret.visits.order.filter (· ≠ n)) ∧
        ((s.config l).role ≠ .outbound → t.visitOf n = some { v with currentLane := none } ∧
          t.ret.visits.order = s.ret.visits.order) ∧
        (∀ m : LaneNo, m ≠ l → t.lane m = s.lane m) ∧ (∀ o : BarrierNo, o ≠ r → t.barrier o = s.barrier o) ∧
        SameBut [.barriers, .lanes, .visits, .checkWord] s t) ∧
    (∀ (r : BarrierNo) (b : BridgeNo), (s.lane l).state = .leaving → (s.config l).rear = some r →
      s.lanesNaming r = [l] → (s.config l).bridge = some b → (s.barrier r).downFilter.isSome = true →
      s.pins.downSwitch.read r = true → (s.barrier r).state = .lowering → (s.barrier r).upActive = false →
      ((s.lane l).rearMark = .passed → s.bridgeEmpty b = true → (s.grant b).holder = some l → (s.grant b).waiting = [] →
        ∃ t, exec (.endSwitchChange r .down) s = .next t ∧
          (t.lane l).state =
            (if (s.config l).role ≠ .none ∧ s.approachOccupied l = true then .awaitId else .idle) ∧
          (t.lane l).signal = .red ∧ t.grant b = { s.grant b with holder := none } ∧
          t.barrier r =
            { s.barrier r with state := .down, motionTimer := none, downActive := true, downFilter := none } ∧
          (∀ m : LaneNo, m ≠ l → t.lane m = s.lane m) ∧ (∀ o : BridgeNo, o ≠ b → t.grant o = s.grant o) ∧
          SameBut [.barriers, .lanes, .grants, .reports, .checkWord] s t) ∧
      ((s.lane l).rearMark ≠ .passed ∨ s.bridgeEmpty b = false →
        ∃ t, exec (.endSwitchChange r .down) s = .next t ∧ SameBut [.barriers, .checkWord] s t)) ∧
    (∀ (a : LoopNo) (b : BridgeNo) (f : BarrierNo) (n : Nat) (v : Visit), (s.lane l).state = .entering →
      (s.config l).front = some f → (s.config l).bridge = some b → (s.lane l).visit = some n → s.visitOf n = some v →
      v.state = .ticketed →
      ((s.loop a).clearFilter.isSome = true → s.lanesAtLoop a = [l] → (s.lane l).entered = false →
        (s.lane l).frontMark = .passed → s.bridgeLoaded b = true →
        ∃ t, exec (.approachLoopClear a) s = .next t ∧
          t.lane l = { s.lane l with entered := true, signal := .red, entryTimer := .stopped } ∧
          t.barrier f = (s.barrier f).lower s.motionTime ∧ (∀ m : LaneNo, m ≠ l → t.lane m = s.lane m) ∧
          (∀ o : BarrierNo, o ≠ f → t.barrier o = s.barrier o) ∧ SameBut [.loops, .lanes, .barriers, .checkWord] s t) ∧
      (∀ r : BarrierNo, (s.lane l).entered = true → (s.config l).role = .outbound → (s.config l).rear = some r → r ≠ f →
        s.lanesNaming f = [l] → (s.barrier f).downFilter.isSome = true → s.pins.downSwitch.read f = true →
        (s.barrier f).state = .lowering → (s.barrier f).upActive = false →
        ∃ t, exec (.endSwitchChange f .down) s = .next t ∧
          t.lane l =
            { s.lane l with
              state := .leaving, signal := .red, rearMark := if (s.barrier r).occupied then .seen else .none } ∧
          t.visitOf n = some { v with state := .exiting } ∧ t.barrier r = (s.barrier r).raise s.motionTime ∧
          (t.barrier f).state = .down ∧ (∀ o : BarrierNo, o ≠ f → o ≠ r → t.barrier o = s.barrier o) ∧
          (∀ m : LaneNo, m ≠ l → t.lane m = s.lane m) ∧
          SameBut [.barriers, .lanes, .visits, .reports, .checkWord] s t)) ∧
    (∀ (f : BarrierNo) (n : Nat) (v : Visit), (s.config l).front = some f → (s.config l).rear ≠ some f →
      s.lanesNaming f = [l] → (s.barrier f).clearFilter.isSome = true → (s.barrier f).state = .up →
      (s.lane l).frontMark = .seen → (s.lane l).visit = some n → s.visitOf n = some v →
      (∀ (b : BridgeNo) (i : Identity), (s.lane l).state = .backingOut → (s.config l).bridge = some b →
        s.bridgeEmpty b = true → (s.grant b).holder = some l → (s.grant b).waiting = [] →
        (s.lane l).identity = some i →
        ∃ t, exec (.safetyLoopClear f) s = .next t ∧
          (t.lane l).state =
            (if (s.config l).role ≠ .none ∧ s.approachOccupied l = true then .awaitId else .idle) ∧
          (t.lane l).identity = none ∧ (t.lane l).visit = none ∧ (t.lane l).signal = .red ∧
          (t.lane l).lastReason = (s.lane l).lastReason ∧ t.grant b = { s.grant b with holder := none } ∧
          (t.barrier f).state = .lowering ∧
          ((s.config l).role = .inbound →
            t.ret.visits.records = s.ret.visits.records.filter (fun w => w.number ≠ n) ∧
              ((∃ (j : Fin 8) (q : RefusalRecord), t.adm.records.read j = some q ∧ q.tag = i.tag) ∨
                t.adm.overflow = true) ∧
              ((∀ (j : Fin 8) (q : RefusalRecord), s.adm.records.read j = some q → q.tag ≠ i.tag) →
                (∃ j : Fin 8, s.adm.records.read j = none) →
                ∃ j : Fin 8, t.adm.records.read j =
                  some { tag := i.tag, lane := l, reason := .backedOut, firstTime := s.ret.clock,
                         lastTime := s.ret.clock, repeats := 0 })) ∧
          ((s.config l).role ≠ .inbound → t.visitOf n = some { v with currentLane := none } ∧
            t.adm = s.adm) ∧
          (∀ m : LaneNo, m ≠ l → t.lane m = s.lane m) ∧ (∀ o : BarrierNo, o ≠ f → t.barrier o = s.barrier o) ∧
          SameBut [.barriers, .lanes, .grants, .visits, .refusals, .reports, .checkWord] s t) ∧
      ((s.lane l).state = .passing → s.approachOccupied l = false →
        ∃ t, exec (.safetyLoopClear f) s = .next t ∧
          t.lane l =
            { s.lane l with state := .idle, signal := .red, identity := none, visit := none, frontMark := .passed } ∧
          t.ret.visits.records = s.ret.visits.records.filter (fun w => w.number ≠ n) ∧
          (t.barrier f).state = .lowering ∧ (∀ m : LaneNo, m ≠ l → t.lane m = s.lane m) ∧
          (∀ o : BarrierNo, o ≠ f → t.barrier o = s.barrier o) ∧
          SameBut [.barriers, .lanes, .visits, .reports, .checkWord] s t))

/-- R70, R10: a broken beam shows at once and stops its clear filter; a beam whose input shows clear starts the 200 ms
filter and is clear when it ends. A metrology input at a new level starts the 50 ms hold; at the level the switch
already has, it stops the hold; a held level becomes the switch state. The model's choices: a filter ends whatever time
is left (log entry 10), and BEAM_CLEAR or METROLOGY_SWITCH_CHANGE with no filter running, and METROLOGY_INPUT_CHANGE to
the level the input has, change nothing (log entry 13). -/
def Obligations.BeamsAndMetrologySwitchAreFiltered : Prop :=
  (∀ (m : BeamNo) (s : State), s.powered = true →
    (∃ t, exec (.beamBroken m) s = .next t ∧ t.beam m = { broken := true, clearFilter := none } ∧
      t.pins = { s.pins with beamLight := s.pins.beamLight.write m false } ∧
      (∀ o : BeamNo, o ≠ m → t.beam o = s.beam o) ∧ SameBut [.pins, .beams] s t) ∧
    (∃ t, exec (.beamInputClear m) s = .next t ∧
      ((s.beam m).broken = true → (s.beam m).clearFilter = none → t.beam m = { broken := true, clearFilter := some 200 }) ∧
      ((s.beam m).broken = false ∨ (s.beam m).clearFilter ≠ none → t.beam m = s.beam m) ∧
      (∀ o : BeamNo, o ≠ m → t.beam o = s.beam o) ∧ SameBut [.pins, .beams] s t) ∧
    (∃ t, exec (.beamClear m) s = .next t ∧
      ((s.beam m).clearFilter ≠ none → t.beam m = { broken := false, clearFilter := none }) ∧
      ((s.beam m).clearFilter = none → t.beam m = s.beam m) ∧
      (∀ o : BeamNo, o ≠ m → t.beam o = s.beam o) ∧ SameBut [.beams] s t)) ∧
  (∀ s : State, s.powered = true →
    (∀ level : Bool, s.pins.metrologyClosed ≠ level →
      ∃ t, exec (.metrologyInputChange level) s = .next t ∧ t.pins = { s.pins with metrologyClosed := level } ∧
        t.metrology =
          { closed := s.metrology.closed, hold := if level = s.metrology.closed then none else some 50 } ∧
        SameBut [.pins, .metrology] s t) ∧
    (∃ t, exec (.metrologyInputChange s.pins.metrologyClosed) s = .next t ∧ SameBut [] s t) ∧
    (∃ t, exec .metrologySwitchChange s = .next t ∧
      (s.metrology.hold ≠ none → t.metrology = { closed := s.pins.metrologyClosed, hold := none }) ∧
      (s.metrology.hold = none → t.metrology = s.metrology) ∧ SameBut [.metrology] s t))

/-- R182, R54, R185, R181, R183: an assertion of the power-fail input cancels every capture, returns the visits and
queues POWER_FAIL; its input inactive starts the 100 ms filter, and the end of the filter is the deassertion. R99, R141,
R168: at the deassertion each lane takes what it missed: a held identity or entry expiry, a vehicle that has left or
come, a grant held in AWAIT_BRIDGE, a rear passage, an entry to MANUAL; a held answer or a held expiry decides its
vehicle, an entry by the tests of R118; R104, R105: each bridge makes a grant decision, and where its conditions hold
and the metrology switch is OPEN (R10, R109) the waiting lane is granted and goes to ENTERING; a pending ticket issues.
Where nothing was missed nothing changes. The yard clock advances on either supply, 4,294,967,295 going to 0. The loss
of main power keeps the retained contents; the failure of the backup supply makes the check word disagree. The model's
choices: the filter ends whatever time is left (log entry 10), POWER_FAIL_DEASSERT with no filter running changes
nothing (log entry 13), what commands do with main power off (log entries 9 and 34), BACKUP_SUPPLY_FAILURE acts only
while main power is off and keeps the items (log entry 23), a reset acts with main power off (log entry 22), an IDLE
lane over an occupied approach loop goes to AWAIT_ID at the deassertion (log entry 20), the bridge is tested there with
the e held (log entry 44), a metrology switch closed since the latest evaluation withholds the grant (log entry 55), and
the grant can be the first after reset (log entry 66). -/
def Obligations.PowerComesAndGoes : Prop :=
  (∀ s : State, s.powered = true → s.failing = false →
    ∃ t, exec .powerFailAssert s = .next t ∧ t.powerFail = { asserted := true, filter := none } ∧
      t.pins = { s.pins with powerFail := true } ∧
      (∀ b : BridgeNo, t.bridge b = { s.bridge b with capture := none }) ∧
      (∀ l : LaneNo, (∀ b : BridgeNo, ∀ k : Capture, (s.bridge b).capture = some k → k.lane ≠ l) →
        t.lane l = s.lane l) ∧
      (∀ (b : BridgeNo) (k : Capture), (s.bridge b).capture = some k → (s.lane k.lane).state = .weighing →
        (t.lane k.lane).state = .captureFailed ∧ (t.lane k.lane).lastReason = some (.cancelled .powerFail)) ∧
      (∀ (b : BridgeNo) (k : Capture) (v : Visit), (s.bridge b).capture = some k → s.visitOf k.visit = some v →
        (v.state = .weighingIn → t.visitOf k.visit = some { v with state := .admitted }) ∧
          (v.state = .weighingOut → t.visitOf k.visit = some { v with state := .onSite })) ∧
      ((∀ b : BridgeNo, (s.bridge b).capture = none) → s.link.reports.length < 32 →
        t.voiced = s.voiced ++ [.powerFail s.ret.clock 0]) ∧
      SameBut [.pins, .powerFail, .bridges, .visits, .lanes, .reports, .checkWord] s t) ∧
  (∀ s : State, s.powered = true → s.failing = true →
    (∃ t, exec .powerFailAssert s = .next t ∧ t.powerFail = { asserted := true, filter := none } ∧
      SameBut [.pins, .powerFail] s t) ∧
    (∃ t, exec .powerFailInputInactive s = .next t ∧ t.pins = { s.pins with powerFail := false } ∧
      (s.powerFail.filter = none → t.powerFail = { asserted := true, filter := some 100 }) ∧
      (s.powerFail.filter ≠ none → t.powerFail = s.powerFail) ∧ SameBut [.pins, .powerFail] s t) ∧
    (s.powerFail.filter ≠ none → (∀ l : LaneNo, (s.lane l).state = .manual ∧ (s.slot l).state ≠ .active) →
      (∀ b : BridgeNo, (s.grant b).waiting = []) → s.ret.visits.order = [] →
      ∃ t, exec .powerFailDeassert s = .next t ∧ t.powerFail = { asserted := false, filter := none } ∧
        SameBut [.powerFail, .checkWord] s t)) ∧
  (∀ (s : State) (l : LaneNo), s.powered = true → s.failing = true → s.powerFail.filter ≠ none → s.OnlyLane l →
    (s.slot l).state ≠ .active →
    ((s.lane l).state = .awaitId → (s.lane l).identityTimer = .expired → s.approachOccupied l = true →
      ∃ t, exec .powerFailDeassert s = .next t ∧
        t.lane l = { s.lane l with state := .noId, signal := .red, identityTimer := .stopped } ∧
        SameBut [.powerFail, .lanes, .reports, .checkWord] s t) ∧
    ((s.lane l).state = .noId ∨ (s.lane l).state = .refused → s.approachOccupied l = false →
      ∃ t, exec .powerFailDeassert s = .next t ∧
        t.lane l = { s.lane l with state := .idle, signal := .red, identity := none, visit := none } ∧
        SameBut [.powerFail, .lanes, .reports, .checkWord] s t) ∧
    ((s.lane l).state = .idle → (s.config l).role ≠ .none → s.approachOccupied l = true →
      ∃ t, exec .powerFailDeassert s = .next t ∧
        t.lane l =
          { s.lane l with
            state := .awaitId, signal := .red, identityTimer := .running (s.timers.identity * 1000) } ∧
        SameBut [.powerFail, .lanes, .reports, .checkWord] s t) ∧
    (∀ (b : BridgeNo) (f : BarrierNo), (s.lane l).state = .awaitBridge → s.approachOccupied l = true →
      (s.config l).front = some f → (s.grant b).holder = some l →
      ∃ t, exec .powerFailDeassert s = .next t ∧
        t.lane l =
          { s.lane l with
            state := .entering, signal := .green, entered := false, entryTimer := .running (s.timers.entry * 1000),
            frontMark := if (s.barrier f).occupied then .seen else .none } ∧
        t.barrier f = (s.barrier f).raise s.motionTime ∧ (∀ o : BarrierNo, o ≠ f → t.barrier o = s.barrier o) ∧
        SameBut [.powerFail, .lanes, .barriers, .reports, .checkWord] s t) ∧
    ((s.lane l).state = .entering → (s.lane l).entered = false → (s.lane l).entryTimer = .expired →
      s.ownBridgeLoaded l = false → s.ownBridgeEmpty l = false →
      ∃ t, exec .powerFailDeassert s = .next t ∧
        t.lane l = { s.lane l with entryTimer := .running (s.timers.entry * 1000) } ∧
        SameBut [.powerFail, .lanes, .checkWord] s t) ∧
    (∀ r : BarrierNo, (s.lane l).state = .leaving → (s.lane l).rearMark = .passed → (s.config l).rear = some r →
      (s.barrier r).state = .up → (s.barrier r).occupied = false → (s.lane l).visit = none →
      ∃ t, exec .powerFailDeassert s = .next t ∧ t.lane l = { s.lane l with identity := none } ∧
        t.barrier r =
          { s.barrier r with
            state := .lowering, pendingLower := false, motionTimer := some (s.timers.motion * 1000) } ∧
        (∀ o : BarrierNo, o ≠ r → t.barrier o = s.barrier o) ∧
        SameBut [.powerFail, .lanes, .barriers, .checkWord] s t) ∧
    ((s.lane l).state = .takeoverPending → s.laneMoving l = false →
      ∃ t, exec .powerFailDeassert s = .next t ∧ (t.lane l).state = .manual ∧ (t.lane l).visit = none ∧
        (t.lane l).identity = none ∧ (t.lane l).signal = .red)) ∧
  (∀ (s : State) (l : LaneNo), s.powered = true → s.failing = true → s.powerFail.filter ≠ none → s.OnlyLane l →
    (s.lane l).state = .admitting → (s.slot l).state = .active → s.approachOccupied l = true →
    ((s.slot l).held = some .unknownTag →
      ∃ t, exec .powerFailDeassert s = .next t ∧ (t.lane l).state = .refused ∧
        (t.lane l).lastReason = some (.refusal .unknownTag) ∧ (t.lane l).query = none ∧ (t.slot l).state = .free ∧
        SameBut [.powerFail, .lanes, .queries, .refusals, .reports, .checkWord] s t) ∧
    ((s.slot l).held = none → (s.slot l).deadline = .expired → (s.config l).fallback = .refuse →
      ∃ t, exec .powerFailDeassert s = .next t ∧ (t.lane l).state = .refused ∧
        (t.lane l).lastReason = some (.refusal .queryTimeout) ∧ (t.lane l).query = none ∧
        t.slot l = { s.slot l with state := .late, deadline := .stopped, held := none } ∧
        SameBut [.powerFail, .lanes, .queries, .refusals, .reports, .checkWord] s t) ∧
    ((s.slot l).held = none → (s.slot l).deadline ≠ .expired →
      ∃ t, exec .powerFailDeassert s = .next t ∧ SameBut [.powerFail, .checkWord] s t)) ∧
  (∀ (s : State) (l : LaneNo) (p : Permit), s.powered = true → s.failing = true → s.powerFail.filter ≠ none →
    s.OnlyLane l → (s.lane l).state = .admitting → (s.slot l).state = .active → s.approachOccupied l = true →
    (s.slot l).held = some (.entry p) →
    (∀ why : RefusalReason,
      ((p.stopped = true ∧ why = .accountStopped) ∨
        (p.stopped = false ∧ p.streams.getLsbD (s.slot l).stream.val = false ∧ why = .streamNotPermitted) ∨
        (p.stopped = false ∧ p.streams.getLsbD (s.slot l).stream.val = true ∧
          p.credit < (s.stream (s.slot l).stream).minCharge ∧ why = .credit) ∨
        (p.stopped = false ∧ p.streams.getLsbD (s.slot l).stream.val = true ∧
          ((s.stream (s.slot l).stream).minCharge : Int) ≤ p.credit ∧
          (s.visitOfTag (s.slot l).tag).isSome = true ∧ why = .alreadyOnSite)) →
      ∃ t, exec .powerFailDeassert s = .next t ∧ (t.lane l).state = .refused ∧
        (t.lane l).lastReason = some (.refusal why) ∧ (t.lane l).query = none ∧ (t.slot l).state = .free ∧
        SameBut [.powerFail, .lanes, .queries, .refusals, .reports, .checkWord] s t) ∧
    (p.stopped = false → p.streams.getLsbD (s.slot l).stream.val = true →
      ((s.stream (s.slot l).stream).minCharge : Int) ≤ p.credit → s.visitOfTag (s.slot l).tag = none →
      (64 ≤ s.ret.visits.records.length →
        ∃ t, exec .powerFailDeassert s = .next t ∧ (t.lane l).state = .siteFull ∧ t.siteFull = [l] ∧
          (t.lane l).query = none ∧ (t.slot l).state = .free ∧
          SameBut [.powerFail, .lanes, .queries, .siteFull, .reports, .checkWord] s t) ∧
      (s.ret.visits.records.length < 64 →
        ∃ t v, exec .powerFailDeassert s = .next t ∧ v ∈ t.ret.visits.records ∧ v.tag = (s.slot l).tag ∧
          v.account = p.account ∧ v.stream = (s.slot l).stream ∧ v.storedTare = p.storedTare ∧ v.provisional = false ∧
          v.state = .admitted ∧ v.currentLane = some l ∧ (t.slot l).state = .free ∧ (t.lane l).query = none ∧
          (t.lane l).visit = some v.number ∧ ((t.lane l).state = .awaitBridge ∨ (t.lane l).state = .entering) ∧
          SameBut [.powerFail, .lanes, .barriers, .grants, .visits, .queries, .reports, .checkWord] s t))) ∧
  (∀ (s : State) (b : BridgeNo) (l : LaneNo) (f : BarrierNo), s.powered = true → s.failing = true →
    s.powerFail.filter ≠ none →
    (∀ m : LaneNo, ((s.lane m).state = .awaitBridge ∧ s.approachOccupied m = true ∧ (s.slot m).state ≠ .active) ∨
      ((s.lane m).state = .manual ∧ (s.slot m).state ≠ .active)) →
    (∀ (m : LaneNo) (o : BridgeNo), (s.lane m).state = .awaitBridge → (s.grant o).holder ≠ some m) →
    s.ret.visits.order = [] → (∀ o : BridgeNo, o ≠ b → (s.grant o).waiting = []) → (s.lane l).state = .awaitBridge →
    (s.config l).front = some f → (s.grant b).Chooses l →
    (s.Grantable b →
      ∃ t, exec .powerFailDeassert s = .next t ∧ EntersByGrant s t b l f ∧
        SameBut [.powerFail, .grants, .lanes, .barriers, .reports, .checkWord] s t) ∧
    (¬ s.Grantable b → ∃ t, exec .powerFailDeassert s = .next t ∧ SameBut [.powerFail, .checkWord] s t)) ∧
  (∀ (s : State) (m : Nat) (v : Visit) (body : TicketBody), s.powered = true → s.failing = true →
    s.powerFail.filter ≠ none → (∀ l : LaneNo, (s.lane l).state = .manual ∧ (s.slot l).state ≠ .active) →
    (∀ b : BridgeNo, (s.grant b).waiting = []) → s.ret.visits.order = [m] → s.visitOf m = some v →
    v.pending = some body → s.ret.journal.held = false → s.ret.journal.tickets.length < 240 →
    ∃ t, exec .powerFailDeassert s = .next t ∧ t.ret.visits.order = [] ∧
      t.ret.journal =
        { tickets := s.ret.journal.tickets ++
            [{ body := body, number := s.ret.journal.counter, timeUnset := s.ret.clockUnset, issueTime := s.ret.clock,
               calCounter := s.ret.calCounter, collected := false }],
          counter := succSkipZero s.ret.journal.counter, held := false } ∧
      t.visitOf m =
        some { v with state := .ticketed, pending := none, ticketNumber := some s.ret.journal.counter }) ∧
  (∀ s : State, s.powered = true → s.powerFail.filter = none →
    ∃ t, exec .powerFailDeassert s = .next t ∧ SameBut [] s t) ∧
  (∀ s : State,
    ∃ t, exec .clockTick s = .next t ∧
      t.ret.clock = (if 4294967295 ≤ s.ret.clock then 0 else s.ret.clock + 1) ∧ t.ret.clockUnset = s.ret.clockUnset ∧
      SameBut [.clock] s t) ∧
  (∀ s : State,
    (s.powered = true →
      ∃ t, exec .mainPowerLoss s = .next t ∧ t.powered = false ∧ t.ret = s.ret ∧ t.pins = s.pins ∧
        t.pending = s.pending) ∧
    (s.powered = false → exec .mainPowerLoss s = .next s) ∧
    (s.powered = true → exec .backupSupplyFailure s = .next s) ∧
    (s.powered = false →
      ∃ t, exec .backupSupplyFailure s = .next t ∧ t.ret.intact = false ∧ SameBut [.checkWord] s t ∧
        ∀ h : Bool, ∃ u, exec (.resetInput h) t = .next u ∧ u.ret = Retained.lost))
end

