-- ==== Sys2Proof/Laws/State.lean ====
section
/-! SUPPORT. One lemma for each field and each one-unit update of State: what the update leaves alone, and what it writes. -/

namespace Sys2Proof.Machine

/-! ### What an update leaves alone -/

@[simp] theorem State.onChannel_pending (s : State) (c : ChannelNo) (f : Channel → Channel) :
    (s.onChannel c f).pending = s.pending := rfl
@[simp] theorem State.onChannel_powered (s : State) (c : ChannelNo) (f : Channel → Channel) :
    (s.onChannel c f).powered = s.powered := rfl
@[simp] theorem State.onChannel_ret (s : State) (c : ChannelNo) (f : Channel → Channel) :
    (s.onChannel c f).ret = s.ret := rfl
@[simp] theorem State.onChannel_pins (s : State) (c : ChannelNo) (f : Channel → Channel) :
    (s.onChannel c f).pins = s.pins := rfl
@[simp] theorem State.onChannel_metrology (s : State) (c : ChannelNo) (f : Channel → Channel) :
    (s.onChannel c f).metrology = s.metrology := rfl
@[simp] theorem State.onChannel_decks (s : State) (c : ChannelNo) (f : Channel → Channel) :
    (s.onChannel c f).decks = s.decks := rfl
@[simp] theorem State.onChannel_bridges (s : State) (c : ChannelNo) (f : Channel → Channel) :
    (s.onChannel c f).bridges = s.bridges := rfl
@[simp] theorem State.onChannel_grants (s : State) (c : ChannelNo) (f : Channel → Channel) :
    (s.onChannel c f).grants = s.grants := rfl
@[simp] theorem State.onChannel_barriers (s : State) (c : ChannelNo) (f : Channel → Channel) :
    (s.onChannel c f).barriers = s.barriers := rfl
@[simp] theorem State.onChannel_loops (s : State) (c : ChannelNo) (f : Channel → Channel) :
    (s.onChannel c f).loops = s.loops := rfl
@[simp] theorem State.onChannel_beams (s : State) (c : ChannelNo) (f : Channel → Channel) :
    (s.onChannel c f).beams = s.beams := rfl
@[simp] theorem State.onChannel_lanes (s : State) (c : ChannelNo) (f : Channel → Channel) :
    (s.onChannel c f).lanes = s.lanes := rfl
@[simp] theorem State.onChannel_adm (s : State) (c : ChannelNo) (f : Channel → Channel) :
    (s.onChannel c f).adm = s.adm := rfl
@[simp] theorem State.onChannel_siteFull (s : State) (c : ChannelNo) (f : Channel → Channel) :
    (s.onChannel c f).siteFull = s.siteFull := rfl
@[simp] theorem State.onChannel_marks (s : State) (c : ChannelNo) (f : Channel → Channel) :
    (s.onChannel c f).marks = s.marks := rfl
@[simp] theorem State.onChannel_powerFail (s : State) (c : ChannelNo) (f : Channel → Channel) :
    (s.onChannel c f).powerFail = s.powerFail := rfl
@[simp] theorem State.onChannel_laneHold (s : State) (c : ChannelNo) (f : Channel → Channel) :
    (s.onChannel c f).laneHold = s.laneHold := rfl
@[simp] theorem State.onChannel_link (s : State) (c : ChannelNo) (f : Channel → Channel) :
    (s.onChannel c f).link = s.link := rfl
@[simp] theorem State.onChannel_evaluations (s : State) (c : ChannelNo) (f : Channel → Channel) :
    (s.onChannel c f).evaluations = s.evaluations := rfl
@[simp] theorem State.onDeck_pending (s : State) (d : DeckNo) (f : Deck → Deck) :
    (s.onDeck d f).pending = s.pending := rfl
@[simp] theorem State.onDeck_powered (s : State) (d : DeckNo) (f : Deck → Deck) :
    (s.onDeck d f).powered = s.powered := rfl
@[simp] theorem State.onDeck_ret (s : State) (d : DeckNo) (f : Deck → Deck) :
    (s.onDeck d f).ret = s.ret := rfl
@[simp] theorem State.onDeck_pins (s : State) (d : DeckNo) (f : Deck → Deck) :
    (s.onDeck d f).pins = s.pins := rfl
@[simp] theorem State.onDeck_channels (s : State) (d : DeckNo) (f : Deck → Deck) :
    (s.onDeck d f).channels = s.channels := rfl
@[simp] theorem State.onDeck_metrology (s : State) (d : DeckNo) (f : Deck → Deck) :
    (s.onDeck d f).metrology = s.metrology := rfl
@[simp] theorem State.onDeck_bridges (s : State) (d : DeckNo) (f : Deck → Deck) :
    (s.onDeck d f).bridges = s.bridges := rfl
@[simp] theorem State.onDeck_grants (s : State) (d : DeckNo) (f : Deck → Deck) :
    (s.onDeck d f).grants = s.grants := rfl
@[simp] theorem State.onDeck_barriers (s : State) (d : DeckNo) (f : Deck → Deck) :
    (s.onDeck d f).barriers = s.barriers := rfl
@[simp] theorem State.onDeck_loops (s : State) (d : DeckNo) (f : Deck → Deck) :
    (s.onDeck d f).loops = s.loops := rfl
@[simp] theorem State.onDeck_beams (s : State) (d : DeckNo) (f : Deck → Deck) :
    (s.onDeck d f).beams = s.beams := rfl
@[simp] theorem State.onDeck_lanes (s : State) (d : DeckNo) (f : Deck → Deck) :
    (s.onDeck d f).lanes = s.lanes := rfl
@[simp] theorem State.onDeck_adm (s : State) (d : DeckNo) (f : Deck → Deck) :
    (s.onDeck d f).adm = s.adm := rfl
@[simp] theorem State.onDeck_siteFull (s : State) (d : DeckNo) (f : Deck → Deck) :
    (s.onDeck d f).siteFull = s.siteFull := rfl
@[simp] theorem State.onDeck_marks (s : State) (d : DeckNo) (f : Deck → Deck) :
    (s.onDeck d f).marks = s.marks := rfl
@[simp] theorem State.onDeck_powerFail (s : State) (d : DeckNo) (f : Deck → Deck) :
    (s.onDeck d f).powerFail = s.powerFail := rfl
@[simp] theorem State.onDeck_laneHold (s : State) (d : DeckNo) (f : Deck → Deck) :
    (s.onDeck d f).laneHold = s.laneHold := rfl
@[simp] theorem State.onDeck_link (s : State) (d : DeckNo) (f : Deck → Deck) :
    (s.onDeck d f).link = s.link := rfl
@[simp] theorem State.onDeck_evaluations (s : State) (d : DeckNo) (f : Deck → Deck) :
    (s.onDeck d f).evaluations = s.evaluations := rfl
@[simp] theorem State.onBridge_pending (s : State) (b : BridgeNo) (f : Bridge → Bridge) :
    (s.onBridge b f).pending = s.pending := rfl
@[simp] theorem State.onBridge_powered (s : State) (b : BridgeNo) (f : Bridge → Bridge) :
    (s.onBridge b f).powered = s.powered := rfl
@[simp] theorem State.onBridge_ret (s : State) (b : BridgeNo) (f : Bridge → Bridge) :
    (s.onBridge b f).ret = s.ret := rfl
@[simp] theorem State.onBridge_pins (s : State) (b : BridgeNo) (f : Bridge → Bridge) :
    (s.onBridge b f).pins = s.pins := rfl
@[simp] theorem State.onBridge_channels (s : State) (b : BridgeNo) (f : Bridge → Bridge) :
    (s.onBridge b f).channels = s.channels := rfl
@[simp] theorem State.onBridge_metrology (s : State) (b : BridgeNo) (f : Bridge → Bridge) :
    (s.onBridge b f).metrology = s.metrology := rfl
@[simp] theorem State.onBridge_decks (s : State) (b : BridgeNo) (f : Bridge → Bridge) :
    (s.onBridge b f).decks = s.decks := rfl
@[simp] theorem State.onBridge_grants (s : State) (b : BridgeNo) (f : Bridge → Bridge) :
    (s.onBridge b f).grants = s.grants := rfl
@[simp] theorem State.onBridge_barriers (s : State) (b : BridgeNo) (f : Bridge → Bridge) :
    (s.onBridge b f).barriers = s.barriers := rfl
@[simp] theorem State.onBridge_loops (s : State) (b : BridgeNo) (f : Bridge → Bridge) :
    (s.onBridge b f).loops = s.loops := rfl
@[simp] theorem State.onBridge_beams (s : State) (b : BridgeNo) (f : Bridge → Bridge) :
    (s.onBridge b f).beams = s.beams := rfl
@[simp] theorem State.onBridge_lanes (s : State) (b : BridgeNo) (f : Bridge → Bridge) :
    (s.onBridge b f).lanes = s.lanes := rfl
@[simp] theorem State.onBridge_adm (s : State) (b : BridgeNo) (f : Bridge → Bridge) :
    (s.onBridge b f).adm = s.adm := rfl
@[simp] theorem State.onBridge_siteFull (s : State) (b : BridgeNo) (f : Bridge → Bridge) :
    (s.onBridge b f).siteFull = s.siteFull := rfl
@[simp] theorem State.onBridge_marks (s : State) (b : BridgeNo) (f : Bridge → Bridge) :
    (s.onBridge b f).marks = s.marks := rfl
@[simp] theorem State.onBridge_powerFail (s : State) (b : BridgeNo) (f : Bridge → Bridge) :
    (s.onBridge b f).powerFail = s.powerFail := rfl
@[simp] theorem State.onBridge_laneHold (s : State) (b : BridgeNo) (f : Bridge → Bridge) :
    (s.onBridge b f).laneHold = s.laneHold := rfl
@[simp] theorem State.onBridge_link (s : State) (b : BridgeNo) (f : Bridge → Bridge) :
    (s.onBridge b f).link = s.link := rfl
@[simp] theorem State.onBridge_evaluations (s : State) (b : BridgeNo) (f : Bridge → Bridge) :
    (s.onBridge b f).evaluations = s.evaluations := rfl
@[simp] theorem State.onGrant_pending (s : State) (b : BridgeNo) (f : Grant → Grant) :
    (s.onGrant b f).pending = s.pending := rfl
@[simp] theorem State.onGrant_powered (s : State) (b : BridgeNo) (f : Grant → Grant) :
    (s.onGrant b f).powered = s.powered := rfl
@[simp] theorem State.onGrant_ret (s : State) (b : BridgeNo) (f : Grant → Grant) :
    (s.onGrant b f).ret = s.ret := rfl
@[simp] theorem State.onGrant_pins (s : State) (b : BridgeNo) (f : Grant → Grant) :
    (s.onGrant b f).pins = s.pins := rfl
@[simp] theorem State.onGrant_channels (s : State) (b : BridgeNo) (f : Grant → Grant) :
    (s.onGrant b f).channels = s.channels := rfl
@[simp] theorem State.onGrant_metrology (s : State) (b : BridgeNo) (f : Grant → Grant) :
    (s.onGrant b f).metrology = s.metrology := rfl
@[simp] theorem State.onGrant_decks (s : State) (b : BridgeNo) (f : Grant → Grant) :
    (s.onGrant b f).decks = s.decks := rfl
@[simp] theorem State.onGrant_bridges (s : State) (b : BridgeNo) (f : Grant → Grant) :
    (s.onGrant b f).bridges = s.bridges := rfl
@[simp] theorem State.onGrant_barriers (s : State) (b : BridgeNo) (f : Grant → Grant) :
    (s.onGrant b f).barriers = s.barriers := rfl
@[simp] theorem State.onGrant_loops (s : State) (b : BridgeNo) (f : Grant → Grant) :
    (s.onGrant b f).loops = s.loops := rfl
@[simp] theorem State.onGrant_beams (s : State) (b : BridgeNo) (f : Grant → Grant) :
    (s.onGrant b f).beams = s.beams := rfl
@[simp] theorem State.onGrant_lanes (s : State) (b : BridgeNo) (f : Grant → Grant) :
    (s.onGrant b f).lanes = s.lanes := rfl
@[simp] theorem State.onGrant_adm (s : State) (b : BridgeNo) (f : Grant → Grant) :
    (s.onGrant b f).adm = s.adm := rfl
@[simp] theorem State.onGrant_siteFull (s : State) (b : BridgeNo) (f : Grant → Grant) :
    (s.onGrant b f).siteFull = s.siteFull := rfl
@[simp] theorem State.onGrant_marks (s : State) (b : BridgeNo) (f : Grant → Grant) :
    (s.onGrant b f).marks = s.marks := rfl
@[simp] theorem State.onGrant_powerFail (s : State) (b : BridgeNo) (f : Grant → Grant) :
    (s.onGrant b f).powerFail = s.powerFail := rfl
@[simp] theorem State.onGrant_laneHold (s : State) (b : BridgeNo) (f : Grant → Grant) :
    (s.onGrant b f).laneHold = s.laneHold := rfl
@[simp] theorem State.onGrant_link (s : State) (b : BridgeNo) (f : Grant → Grant) :
    (s.onGrant b f).link = s.link := rfl
@[simp] theorem State.onGrant_evaluations (s : State) (b : BridgeNo) (f : Grant → Grant) :
    (s.onGrant b f).evaluations = s.evaluations := rfl
@[simp] theorem State.onBarrier_pending (s : State) (b : BarrierNo) (f : Barrier → Barrier) :
    (s.onBarrier b f).pending = s.pending := rfl
@[simp] theorem State.onBarrier_powered (s : State) (b : BarrierNo) (f : Barrier → Barrier) :
    (s.onBarrier b f).powered = s.powered := rfl
@[simp] theorem State.onBarrier_ret (s : State) (b : BarrierNo) (f : Barrier → Barrier) :
    (s.onBarrier b f).ret = s.ret := rfl
@[simp] theorem State.onBarrier_pins (s : State) (b : BarrierNo) (f : Barrier → Barrier) :
    (s.onBarrier b f).pins = s.pins := rfl
@[simp] theorem State.onBarrier_channels (s : State) (b : BarrierNo) (f : Barrier → Barrier) :
    (s.onBarrier b f).channels = s.channels := rfl
@[simp] theorem State.onBarrier_metrology (s : State) (b : BarrierNo) (f : Barrier → Barrier) :
    (s.onBarrier b f).metrology = s.metrology := rfl
@[simp] theorem State.onBarrier_decks (s : State) (b : BarrierNo) (f : Barrier → Barrier) :
    (s.onBarrier b f).decks = s.decks := rfl
@[simp] theorem State.onBarrier_bridges (s : State) (b : BarrierNo) (f : Barrier → Barrier) :
    (s.onBarrier b f).bridges = s.bridges := rfl
@[simp] theorem State.onBarrier_grants (s : State) (b : BarrierNo) (f : Barrier → Barrier) :
    (s.onBarrier b f).grants = s.grants := rfl
@[simp] theorem State.onBarrier_loops (s : State) (b : BarrierNo) (f : Barrier → Barrier) :
    (s.onBarrier b f).loops = s.loops := rfl
@[simp] theorem State.onBarrier_beams (s : State) (b : BarrierNo) (f : Barrier → Barrier) :
    (s.onBarrier b f).beams = s.beams := rfl
@[simp] theorem State.onBarrier_lanes (s : State) (b : BarrierNo) (f : Barrier → Barrier) :
    (s.onBarrier b f).lanes = s.lanes := rfl
@[simp] theorem State.onBarrier_adm (s : State) (b : BarrierNo) (f : Barrier → Barrier) :
    (s.onBarrier b f).adm = s.adm := rfl
@[simp] theorem State.onBarrier_siteFull (s : State) (b : BarrierNo) (f : Barrier → Barrier) :
    (s.onBarrier b f).siteFull = s.siteFull := rfl
@[simp] theorem State.onBarrier_marks (s : State) (b : BarrierNo) (f : Barrier → Barrier) :
    (s.onBarrier b f).marks = s.marks := rfl
@[simp] theorem State.onBarrier_powerFail (s : State) (b : BarrierNo) (f : Barrier → Barrier) :
    (s.onBarrier b f).powerFail = s.powerFail := rfl
@[simp] theorem State.onBarrier_laneHold (s : State) (b : BarrierNo) (f : Barrier → Barrier) :
    (s.onBarrier b f).laneHold = s.laneHold := rfl
@[simp] theorem State.onBarrier_link (s : State) (b : BarrierNo) (f : Barrier → Barrier) :
    (s.onBarrier b f).link = s.link := rfl
@[simp] theorem State.onBarrier_evaluations (s : State) (b : BarrierNo) (f : Barrier → Barrier) :
    (s.onBarrier b f).evaluations = s.evaluations := rfl
@[simp] theorem State.onLoop_pending (s : State) (a : LoopNo) (f : ApproachLoop → ApproachLoop) :
    (s.onLoop a f).pending = s.pending := rfl
@[simp] theorem State.onLoop_powered (s : State) (a : LoopNo) (f : ApproachLoop → ApproachLoop) :
    (s.onLoop a f).powered = s.powered := rfl
@[simp] theorem State.onLoop_ret (s : State) (a : LoopNo) (f : ApproachLoop → ApproachLoop) :
    (s.onLoop a f).ret = s.ret := rfl
@[simp] theorem State.onLoop_pins (s : State) (a : LoopNo) (f : ApproachLoop → ApproachLoop) :
    (s.onLoop a f).pins = s.pins := rfl
@[simp] theorem State.onLoop_channels (s : State) (a : LoopNo) (f : ApproachLoop → ApproachLoop) :
    (s.onLoop a f).channels = s.channels := rfl
@[simp] theorem State.onLoop_metrology (s : State) (a : LoopNo) (f : ApproachLoop → ApproachLoop) :
    (s.onLoop a f).metrology = s.metrology := rfl
@[simp] theorem State.onLoop_decks (s : State) (a : LoopNo) (f : ApproachLoop → ApproachLoop) :
    (s.onLoop a f).decks = s.decks := rfl
@[simp] theorem State.onLoop_bridges (s : State) (a : LoopNo) (f : ApproachLoop → ApproachLoop) :
    (s.onLoop a f).bridges = s.bridges := rfl
@[simp] theorem State.onLoop_grants (s : State) (a : LoopNo) (f : ApproachLoop → ApproachLoop) :
    (s.onLoop a f).grants = s.grants := rfl
@[simp] theorem State.onLoop_barriers (s : State) (a : LoopNo) (f : ApproachLoop → ApproachLoop) :
    (s.onLoop a f).barriers = s.barriers := rfl
@[simp] theorem State.onLoop_beams (s : State) (a : LoopNo) (f : ApproachLoop → ApproachLoop) :
    (s.onLoop a f).beams = s.beams := rfl
@[simp] theorem State.onLoop_lanes (s : State) (a : LoopNo) (f : ApproachLoop → ApproachLoop) :
    (s.onLoop a f).lanes = s.lanes := rfl
@[simp] theorem State.onLoop_adm (s : State) (a : LoopNo) (f : ApproachLoop → ApproachLoop) :
    (s.onLoop a f).adm = s.adm := rfl
@[simp] theorem State.onLoop_siteFull (s : State) (a : LoopNo) (f : ApproachLoop → ApproachLoop) :
    (s.onLoop a f).siteFull = s.siteFull := rfl
@[simp] theorem State.onLoop_marks (s : State) (a : LoopNo) (f : ApproachLoop → ApproachLoop) :
    (s.onLoop a f).marks = s.marks := rfl
@[simp] theorem State.onLoop_powerFail (s : State) (a : LoopNo) (f : ApproachLoop → ApproachLoop) :
    (s.onLoop a f).powerFail = s.powerFail := rfl
@[simp] theorem State.onLoop_laneHold (s : State) (a : LoopNo) (f : ApproachLoop → ApproachLoop) :
    (s.onLoop a f).laneHold = s.laneHold := rfl
@[simp] theorem State.onLoop_link (s : State) (a : LoopNo) (f : ApproachLoop → ApproachLoop) :
    (s.onLoop a f).link = s.link := rfl
@[simp] theorem State.onLoop_evaluations (s : State) (a : LoopNo) (f : ApproachLoop → ApproachLoop) :
    (s.onLoop a f).evaluations = s.evaluations := rfl
@[simp] theorem State.onBeam_pending (s : State) (m : BeamNo) (f : Beam → Beam) :
    (s.onBeam m f).pending = s.pending := rfl
@[simp] theorem State.onBeam_powered (s : State) (m : BeamNo) (f : Beam → Beam) :
    (s.onBeam m f).powered = s.powered := rfl
@[simp] theorem State.onBeam_ret (s : State) (m : BeamNo) (f : Beam → Beam) :
    (s.onBeam m f).ret = s.ret := rfl
@[simp] theorem State.onBeam_pins (s : State) (m : BeamNo) (f : Beam → Beam) :
    (s.onBeam m f).pins = s.pins := rfl
@[simp] theorem State.onBeam_channels (s : State) (m : BeamNo) (f : Beam → Beam) :
    (s.onBeam m f).channels = s.channels := rfl
@[simp] theorem State.onBeam_metrology (s : State) (m : BeamNo) (f : Beam → Beam) :
    (s.onBeam m f).metrology = s.metrology := rfl
@[simp] theorem State.onBeam_decks (s : State) (m : BeamNo) (f : Beam → Beam) :
    (s.onBeam m f).decks = s.decks := rfl
@[simp] theorem State.onBeam_bridges (s : State) (m : BeamNo) (f : Beam → Beam) :
    (s.onBeam m f).bridges = s.bridges := rfl
@[simp] theorem State.onBeam_grants (s : State) (m : BeamNo) (f : Beam → Beam) :
    (s.onBeam m f).grants = s.grants := rfl
@[simp] theorem State.onBeam_barriers (s : State) (m : BeamNo) (f : Beam → Beam) :
    (s.onBeam m f).barriers = s.barriers := rfl
@[simp] theorem State.onBeam_loops (s : State) (m : BeamNo) (f : Beam → Beam) :
    (s.onBeam m f).loops = s.loops := rfl
@[simp] theorem State.onBeam_lanes (s : State) (m : BeamNo) (f : Beam → Beam) :
    (s.onBeam m f).lanes = s.lanes := rfl
@[simp] theorem State.onBeam_adm (s : State) (m : BeamNo) (f : Beam → Beam) :
    (s.onBeam m f).adm = s.adm := rfl
@[simp] theorem State.onBeam_siteFull (s : State) (m : BeamNo) (f : Beam → Beam) :
    (s.onBeam m f).siteFull = s.siteFull := rfl
@[simp] theorem State.onBeam_marks (s : State) (m : BeamNo) (f : Beam → Beam) :
    (s.onBeam m f).marks = s.marks := rfl
@[simp] theorem State.onBeam_powerFail (s : State) (m : BeamNo) (f : Beam → Beam) :
    (s.onBeam m f).powerFail = s.powerFail := rfl
@[simp] theorem State.onBeam_laneHold (s : State) (m : BeamNo) (f : Beam → Beam) :
    (s.onBeam m f).laneHold = s.laneHold := rfl
@[simp] theorem State.onBeam_link (s : State) (m : BeamNo) (f : Beam → Beam) :
    (s.onBeam m f).link = s.link := rfl
@[simp] theorem State.onBeam_evaluations (s : State) (m : BeamNo) (f : Beam → Beam) :
    (s.onBeam m f).evaluations = s.evaluations := rfl
@[simp] theorem State.onLane_pending (s : State) (l : LaneNo) (f : Lane → Lane) :
    (s.onLane l f).pending = s.pending := rfl
@[simp] theorem State.onLane_powered (s : State) (l : LaneNo) (f : Lane → Lane) :
    (s.onLane l f).powered = s.powered := rfl
@[simp] theorem State.onLane_ret (s : State) (l : LaneNo) (f : Lane → Lane) :
    (s.onLane l f).ret = s.ret := rfl
@[simp] theorem State.onLane_pins (s : State) (l : LaneNo) (f : Lane → Lane) :
    (s.onLane l f).pins = s.pins := rfl
@[simp] theorem State.onLane_channels (s : State) (l : LaneNo) (f : Lane → Lane) :
    (s.onLane l f).channels = s.channels := rfl
@[simp] theorem State.onLane_metrology (s : State) (l : LaneNo) (f : Lane → Lane) :
    (s.onLane l f).metrology = s.metrology := rfl
@[simp] theorem State.onLane_decks (s : State) (l : LaneNo) (f : Lane → Lane) :
    (s.onLane l f).decks = s.decks := rfl
@[simp] theorem State.onLane_bridges (s : State) (l : LaneNo) (f : Lane → Lane) :
    (s.onLane l f).bridges = s.bridges := rfl
@[simp] theorem State.onLane_grants (s : State) (l : LaneNo) (f : Lane → Lane) :
    (s.onLane l f).grants = s.grants := rfl
@[simp] theorem State.onLane_barriers (s : State) (l : LaneNo) (f : Lane → Lane) :
    (s.onLane l f).barriers = s.barriers := rfl
@[simp] theorem State.onLane_loops (s : State) (l : LaneNo) (f : Lane → Lane) :
    (s.onLane l f).loops = s.loops := rfl
@[simp] theorem State.onLane_beams (s : State) (l : LaneNo) (f : Lane → Lane) :
    (s.onLane l f).beams = s.beams := rfl
@[simp] theorem State.onLane_adm (s : State) (l : LaneNo) (f : Lane → Lane) :
    (s.onLane l f).adm = s.adm := rfl
@[simp] theorem State.onLane_siteFull (s : State) (l : LaneNo) (f : Lane → Lane) :
    (s.onLane l f).siteFull = s.siteFull := rfl
@[simp] theorem State.onLane_marks (s : State) (l : LaneNo) (f : Lane → Lane) :
    (s.onLane l f).marks = s.marks := rfl
@[simp] theorem State.onLane_powerFail (s : State) (l : LaneNo) (f : Lane → Lane) :
    (s.onLane l f).powerFail = s.powerFail := rfl
@[simp] theorem State.onLane_laneHold (s : State) (l : LaneNo) (f : Lane → Lane) :
    (s.onLane l f).laneHold = s.laneHold := rfl
@[simp] theorem State.onLane_link (s : State) (l : LaneNo) (f : Lane → Lane) :
    (s.onLane l f).link = s.link := rfl
@[simp] theorem State.onLane_evaluations (s : State) (l : LaneNo) (f : Lane → Lane) :
    (s.onLane l f).evaluations = s.evaluations := rfl
@[simp] theorem State.onAdm_pending (s : State) (f : Admission → Admission) :
    (s.onAdm f).pending = s.pending := rfl
@[simp] theorem State.onAdm_powered (s : State) (f : Admission → Admission) :
    (s.onAdm f).powered = s.powered := rfl
@[simp] theorem State.onAdm_ret (s : State) (f : Admission → Admission) :
    (s.onAdm f).ret = s.ret := rfl
@[simp] theorem State.onAdm_pins (s : State) (f : Admission → Admission) :
    (s.onAdm f).pins = s.pins := rfl
@[simp] theorem State.onAdm_channels (s : State) (f : Admission → Admission) :
    (s.onAdm f).channels = s.channels := rfl
@[simp] theorem State.onAdm_metrology (s : State) (f : Admission → Admission) :
    (s.onAdm f).metrology = s.metrology := rfl
@[simp] theorem State.onAdm_decks (s : State) (f : Admission → Admission) :
    (s.onAdm f).decks = s.decks := rfl
@[simp] theorem State.onAdm_bridges (s : State) (f : Admission → Admission) :
    (s.onAdm f).bridges = s.bridges := rfl
@[simp] theorem State.onAdm_grants (s : State) (f : Admission → Admission) :
    (s.onAdm f).grants = s.grants := rfl
@[simp] theorem State.onAdm_barriers (s : State) (f : Admission → Admission) :
    (s.onAdm f).barriers = s.barriers := rfl
@[simp] theorem State.onAdm_loops (s : State) (f : Admission → Admission) :
    (s.onAdm f).loops = s.loops := rfl
@[simp] theorem State.onAdm_beams (s : State) (f : Admission → Admission) :
    (s.onAdm f).beams = s.beams := rfl
@[simp] theorem State.onAdm_lanes (s : State) (f : Admission → Admission) :
    (s.onAdm f).lanes = s.lanes := rfl
@[simp] theorem State.onAdm_siteFull (s : State) (f : Admission → Admission) :
    (s.onAdm f).siteFull = s.siteFull := rfl
@[simp] theorem State.onAdm_marks (s : State) (f : Admission → Admission) :
    (s.onAdm f).marks = s.marks := rfl
@[simp] theorem State.onAdm_powerFail (s : State) (f : Admission → Admission) :
    (s.onAdm f).powerFail = s.powerFail := rfl
@[simp] theorem State.onAdm_laneHold (s : State) (f : Admission → Admission) :
    (s.onAdm f).laneHold = s.laneHold := rfl
@[simp] theorem State.onAdm_link (s : State) (f : Admission → Admission) :
    (s.onAdm f).link = s.link := rfl
@[simp] theorem State.onAdm_evaluations (s : State) (f : Admission → Admission) :
    (s.onAdm f).evaluations = s.evaluations := rfl
@[simp] theorem State.onSlot_pending (s : State) (l : LaneNo) (f : QuerySlot → QuerySlot) :
    (s.onSlot l f).pending = s.pending := rfl
@[simp] theorem State.onSlot_powered (s : State) (l : LaneNo) (f : QuerySlot → QuerySlot) :
    (s.onSlot l f).powered = s.powered := rfl
@[simp] theorem State.onSlot_ret (s : State) (l : LaneNo) (f : QuerySlot → QuerySlot) :
    (s.onSlot l f).ret = s.ret := rfl
@[simp] theorem State.onSlot_pins (s : State) (l : LaneNo) (f : QuerySlot → QuerySlot) :
    (s.onSlot l f).pins = s.pins := rfl
@[simp] theorem State.onSlot_channels (s : State) (l : LaneNo) (f : QuerySlot → QuerySlot) :
    (s.onSlot l f).channels = s.channels := rfl
@[simp] theorem State.onSlot_metrology (s : State) (l : LaneNo) (f : QuerySlot → QuerySlot) :
    (s.onSlot l f).metrology = s.metrology := rfl
@[simp] theorem State.onSlot_decks (s : State) (l : LaneNo) (f : QuerySlot → QuerySlot) :
    (s.onSlot l f).decks = s.decks := rfl
@[simp] theorem State.onSlot_bridges (s : State) (l : LaneNo) (f : QuerySlot → QuerySlot) :
    (s.onSlot l f).bridges = s.bridges := rfl
@[simp] theorem State.onSlot_grants (s : State) (l : LaneNo) (f : QuerySlot → QuerySlot) :
    (s.onSlot l f).grants = s.grants := rfl
@[simp] theorem State.onSlot_barriers (s : State) (l : LaneNo) (f : QuerySlot → QuerySlot) :
    (s.onSlot l f).barriers = s.barriers := rfl
@[simp] theorem State.onSlot_loops (s : State) (l : LaneNo) (f : QuerySlot → QuerySlot) :
    (s.onSlot l f).loops = s.loops := rfl
@[simp] theorem State.onSlot_beams (s : State) (l : LaneNo) (f : QuerySlot → QuerySlot) :
    (s.onSlot l f).beams = s.beams := rfl
@[simp] theorem State.onSlot_lanes (s : State) (l : LaneNo) (f : QuerySlot → QuerySlot) :
    (s.onSlot l f).lanes = s.lanes := rfl
@[simp] theorem State.onSlot_siteFull (s : State) (l : LaneNo) (f : QuerySlot → QuerySlot) :
    (s.onSlot l f).siteFull = s.siteFull := rfl
@[simp] theorem State.onSlot_marks (s : State) (l : LaneNo) (f : QuerySlot → QuerySlot) :
    (s.onSlot l f).marks = s.marks := rfl
@[simp] theorem State.onSlot_powerFail (s : State) (l : LaneNo) (f : QuerySlot → QuerySlot) :
    (s.onSlot l f).powerFail = s.powerFail := rfl
@[simp] theorem State.onSlot_laneHold (s : State) (l : LaneNo) (f : QuerySlot → QuerySlot) :
    (s.onSlot l f).laneHold = s.laneHold := rfl
@[simp] theorem State.onSlot_link (s : State) (l : LaneNo) (f : QuerySlot → QuerySlot) :
    (s.onSlot l f).link = s.link := rfl
@[simp] theorem State.onSlot_evaluations (s : State) (l : LaneNo) (f : QuerySlot → QuerySlot) :
    (s.onSlot l f).evaluations = s.evaluations := rfl
@[simp] theorem State.onLink_pending (s : State) (f : Link → Link) :
    (s.onLink f).pending = s.pending := rfl
@[simp] theorem State.onLink_powered (s : State) (f : Link → Link) :
    (s.onLink f).powered = s.powered := rfl
@[simp] theorem State.onLink_ret (s : State) (f : Link → Link) :
    (s.onLink f).ret = s.ret := rfl
@[simp] theorem State.onLink_pins (s : State) (f : Link → Link) :
    (s.onLink f).pins = s.pins := rfl
@[simp] theorem State.onLink_channels (s : State) (f : Link → Link) :
    (s.onLink f).channels = s.channels := rfl
@[simp] theorem State.onLink_metrology (s : State) (f : Link → Link) :
    (s.onLink f).metrology = s.metrology := rfl
@[simp] theorem State.onLink_decks (s : State) (f : Link → Link) :
    (s.onLink f).decks = s.decks := rfl
@[simp] theorem State.onLink_bridges (s : State) (f : Link → Link) :
    (s.onLink f).bridges = s.bridges := rfl
@[simp] theorem State.onLink_grants (s : State) (f : Link → Link) :
    (s.onLink f).grants = s.grants := rfl
@[simp] theorem State.onLink_barriers (s : State) (f : Link → Link) :
    (s.onLink f).barriers = s.barriers := rfl
@[simp] theorem State.onLink_loops (s : State) (f : Link → Link) :
    (s.onLink f).loops = s.loops := rfl
@[simp] theorem State.onLink_beams (s : State) (f : Link → Link) :
    (s.onLink f).beams = s.beams := rfl
@[simp] theorem State.onLink_lanes (s : State) (f : Link → Link) :
    (s.onLink f).lanes = s.lanes := rfl
@[simp] theorem State.onLink_adm (s : State) (f : Link → Link) :
    (s.onLink f).adm = s.adm := rfl
@[simp] theorem State.onLink_siteFull (s : State) (f : Link → Link) :
    (s.onLink f).siteFull = s.siteFull := rfl
@[simp] theorem State.onLink_marks (s : State) (f : Link → Link) :
    (s.onLink f).marks = s.marks := rfl
@[simp] theorem State.onLink_powerFail (s : State) (f : Link → Link) :
    (s.onLink f).powerFail = s.powerFail := rfl
@[simp] theorem State.onLink_laneHold (s : State) (f : Link → Link) :
    (s.onLink f).laneHold = s.laneHold := rfl
@[simp] theorem State.onLink_evaluations (s : State) (f : Link → Link) :
    (s.onLink f).evaluations = s.evaluations := rfl
@[simp] theorem State.onPins_pending (s : State) (f : Pins → Pins) :
    (s.onPins f).pending = s.pending := rfl
@[simp] theorem State.onPins_powered (s : State) (f : Pins → Pins) :
    (s.onPins f).powered = s.powered := rfl
@[simp] theorem State.onPins_ret (s : State) (f : Pins → Pins) :
    (s.onPins f).ret = s.ret := rfl
@[simp] theorem State.onPins_channels (s : State) (f : Pins → Pins) :
    (s.onPins f).channels = s.channels := rfl
@[simp] theorem State.onPins_metrology (s : State) (f : Pins → Pins) :
    (s.onPins f).metrology = s.metrology := rfl
@[simp] theorem State.onPins_decks (s : State) (f : Pins → Pins) :
    (s.onPins f).decks = s.decks := rfl
@[simp] theorem State.onPins_bridges (s : State) (f : Pins → Pins) :
    (s.onPins f).bridges = s.bridges := rfl
@[simp] theorem State.onPins_grants (s : State) (f : Pins → Pins) :
    (s.onPins f).grants = s.grants := rfl
@[simp] theorem State.onPins_barriers (s : State) (f : Pins → Pins) :
    (s.onPins f).barriers = s.barriers := rfl
@[simp] theorem State.onPins_loops (s : State) (f : Pins → Pins) :
    (s.onPins f).loops = s.loops := rfl
@[simp] theorem State.onPins_beams (s : State) (f : Pins → Pins) :
    (s.onPins f).beams = s.beams := rfl
@[simp] theorem State.onPins_lanes (s : State) (f : Pins → Pins) :
    (s.onPins f).lanes = s.lanes := rfl
@[simp] theorem State.onPins_adm (s : State) (f : Pins → Pins) :
    (s.onPins f).adm = s.adm := rfl
@[simp] theorem State.onPins_siteFull (s : State) (f : Pins → Pins) :
    (s.onPins f).siteFull = s.siteFull := rfl
@[simp] theorem State.onPins_marks (s : State) (f : Pins → Pins) :
    (s.onPins f).marks = s.marks := rfl
@[simp] theorem State.onPins_powerFail (s : State) (f : Pins → Pins) :
    (s.onPins f).powerFail = s.powerFail := rfl
@[simp] theorem State.onPins_laneHold (s : State) (f : Pins → Pins) :
    (s.onPins f).laneHold = s.laneHold := rfl
@[simp] theorem State.onPins_link (s : State) (f : Pins → Pins) :
    (s.onPins f).link = s.link := rfl
@[simp] theorem State.onPins_evaluations (s : State) (f : Pins → Pins) :
    (s.onPins f).evaluations = s.evaluations := rfl
@[simp] theorem State.onRet_pending (s : State) (f : Retained → Retained) :
    (s.onRet f).pending = s.pending := rfl
@[simp] theorem State.onRet_powered (s : State) (f : Retained → Retained) :
    (s.onRet f).powered = s.powered := rfl
@[simp] theorem State.onRet_pins (s : State) (f : Retained → Retained) :
    (s.onRet f).pins = s.pins := rfl
@[simp] theorem State.onRet_channels (s : State) (f : Retained → Retained) :
    (s.onRet f).channels = s.channels := rfl
@[simp] theorem State.onRet_metrology (s : State) (f : Retained → Retained) :
    (s.onRet f).metrology = s.metrology := rfl
@[simp] theorem State.onRet_decks (s : State) (f : Retained → Retained) :
    (s.onRet f).decks = s.decks := rfl
@[simp] theorem State.onRet_bridges (s : State) (f : Retained → Retained) :
    (s.onRet f).bridges = s.bridges := rfl
@[simp] theorem State.onRet_grants (s : State) (f : Retained → Retained) :
    (s.onRet f).grants = s.grants := rfl
@[simp] theorem State.onRet_barriers (s : State) (f : Retained → Retained) :
    (s.onRet f).barriers = s.barriers := rfl
@[simp] theorem State.onRet_loops (s : State) (f : Retained → Retained) :
    (s.onRet f).loops = s.loops := rfl
@[simp] theorem State.onRet_beams (s : State) (f : Retained → Retained) :
    (s.onRet f).beams = s.beams := rfl
@[simp] theorem State.onRet_lanes (s : State) (f : Retained → Retained) :
    (s.onRet f).lanes = s.lanes := rfl
@[simp] theorem State.onRet_adm (s : State) (f : Retained → Retained) :
    (s.onRet f).adm = s.adm := rfl
@[simp] theorem State.onRet_siteFull (s : State) (f : Retained → Retained) :
    (s.onRet f).siteFull = s.siteFull := rfl
@[simp] theorem State.onRet_marks (s : State) (f : Retained → Retained) :
    (s.onRet f).marks = s.marks := rfl
@[simp] theorem State.onRet_powerFail (s : State) (f : Retained → Retained) :
    (s.onRet f).powerFail = s.powerFail := rfl
@[simp] theorem State.onRet_laneHold (s : State) (f : Retained → Retained) :
    (s.onRet f).laneHold = s.laneHold := rfl
@[simp] theorem State.onRet_link (s : State) (f : Retained → Retained) :
    (s.onRet f).link = s.link := rfl
@[simp] theorem State.onRet_evaluations (s : State) (f : Retained → Retained) :
    (s.onRet f).evaluations = s.evaluations := rfl
@[simp] theorem State.onSite_pending (s : State) (f : SiteSettings → SiteSettings) :
    (s.onSite f).pending = s.pending := rfl
@[simp] theorem State.onSite_powered (s : State) (f : SiteSettings → SiteSettings) :
    (s.onSite f).powered = s.powered := rfl
@[simp] theorem State.onSite_pins (s : State) (f : SiteSettings → SiteSettings) :
    (s.onSite f).pins = s.pins := rfl
@[simp] theorem State.onSite_channels (s : State) (f : SiteSettings → SiteSettings) :
    (s.onSite f).channels = s.channels := rfl
@[simp] theorem State.onSite_metrology (s : State) (f : SiteSettings → SiteSettings) :
    (s.onSite f).metrology = s.metrology := rfl
@[simp] theorem State.onSite_decks (s : State) (f : SiteSettings → SiteSettings) :
    (s.onSite f).decks = s.decks := rfl
@[simp] theorem State.onSite_bridges (s : State) (f : SiteSettings → SiteSettings) :
    (s.onSite f).bridges = s.bridges := rfl
@[simp] theorem State.onSite_grants (s : State) (f : SiteSettings → SiteSettings) :
    (s.onSite f).grants = s.grants := rfl
@[simp] theorem State.onSite_barriers (s : State) (f : SiteSettings → SiteSettings) :
    (s.onSite f).barriers = s.barriers := rfl
@[simp] theorem State.onSite_loops (s : State) (f : SiteSettings → SiteSettings) :
    (s.onSite f).loops = s.loops := rfl
@[simp] theorem State.onSite_beams (s : State) (f : SiteSettings → SiteSettings) :
    (s.onSite f).beams = s.beams := rfl
@[simp] theorem State.onSite_lanes (s : State) (f : SiteSettings → SiteSettings) :
    (s.onSite f).lanes = s.lanes := rfl
@[simp] theorem State.onSite_adm (s : State) (f : SiteSettings → SiteSettings) :
    (s.onSite f).adm = s.adm := rfl
@[simp] theorem State.onSite_siteFull (s : State) (f : SiteSettings → SiteSettings) :
    (s.onSite f).siteFull = s.siteFull := rfl
@[simp] theorem State.onSite_marks (s : State) (f : SiteSettings → SiteSettings) :
    (s.onSite f).marks = s.marks := rfl
@[simp] theorem State.onSite_powerFail (s : State) (f : SiteSettings → SiteSettings) :
    (s.onSite f).powerFail = s.powerFail := rfl
@[simp] theorem State.onSite_laneHold (s : State) (f : SiteSettings → SiteSettings) :
    (s.onSite f).laneHold = s.laneHold := rfl
@[simp] theorem State.onSite_link (s : State) (f : SiteSettings → SiteSettings) :
    (s.onSite f).link = s.link := rfl
@[simp] theorem State.onSite_evaluations (s : State) (f : SiteSettings → SiteSettings) :
    (s.onSite f).evaluations = s.evaluations := rfl
@[simp] theorem State.onVisits_pending (s : State) (f : VisitStore → VisitStore) :
    (s.onVisits f).pending = s.pending := rfl
@[simp] theorem State.onVisits_powered (s : State) (f : VisitStore → VisitStore) :
    (s.onVisits f).powered = s.powered := rfl
@[simp] theorem State.onVisits_pins (s : State) (f : VisitStore → VisitStore) :
    (s.onVisits f).pins = s.pins := rfl
@[simp] theorem State.onVisits_channels (s : State) (f : VisitStore → VisitStore) :
    (s.onVisits f).channels = s.channels := rfl
@[simp] theorem State.onVisits_metrology (s : State) (f : VisitStore → VisitStore) :
    (s.onVisits f).metrology = s.metrology := rfl
@[simp] theorem State.onVisits_decks (s : State) (f : VisitStore → VisitStore) :
    (s.onVisits f).decks = s.decks := rfl
@[simp] theorem State.onVisits_bridges (s : State) (f : VisitStore → VisitStore) :
    (s.onVisits f).bridges = s.bridges := rfl
@[simp] theorem State.onVisits_grants (s : State) (f : VisitStore → VisitStore) :
    (s.onVisits f).grants = s.grants := rfl
@[simp] theorem State.onVisits_barriers (s : State) (f : VisitStore → VisitStore) :
    (s.onVisits f).barriers = s.barriers := rfl
@[simp] theorem State.onVisits_loops (s : State) (f : VisitStore → VisitStore) :
    (s.onVisits f).loops = s.loops := rfl
@[simp] theorem State.onVisits_beams (s : State) (f : VisitStore → VisitStore) :
    (s.onVisits f).beams = s.beams := rfl
@[simp] theorem State.onVisits_lanes (s : State) (f : VisitStore → VisitStore) :
    (s.onVisits f).lanes = s.lanes := rfl
@[simp] theorem State.onVisits_adm (s : State) (f : VisitStore → VisitStore) :
    (s.onVisits f).adm = s.adm := rfl
@[simp] theorem State.onVisits_siteFull (s : State) (f : VisitStore → VisitStore) :
    (s.onVisits f).siteFull = s.siteFull := rfl
@[simp] theorem State.onVisits_marks (s : State) (f : VisitStore → VisitStore) :
    (s.onVisits f).marks = s.marks := rfl
@[simp] theorem State.onVisits_powerFail (s : State) (f : VisitStore → VisitStore) :
    (s.onVisits f).powerFail = s.powerFail := rfl
@[simp] theorem State.onVisits_laneHold (s : State) (f : VisitStore → VisitStore) :
    (s.onVisits f).laneHold = s.laneHold := rfl
@[simp] theorem State.onVisits_link (s : State) (f : VisitStore → VisitStore) :
    (s.onVisits f).link = s.link := rfl
@[simp] theorem State.onVisits_evaluations (s : State) (f : VisitStore → VisitStore) :
    (s.onVisits f).evaluations = s.evaluations := rfl
@[simp] theorem State.onJournal_pending (s : State) (f : JournalStore → JournalStore) :
    (s.onJournal f).pending = s.pending := rfl
@[simp] theorem State.onJournal_powered (s : State) (f : JournalStore → JournalStore) :
    (s.onJournal f).powered = s.powered := rfl
@[simp] theorem State.onJournal_pins (s : State) (f : JournalStore → JournalStore) :
    (s.onJournal f).pins = s.pins := rfl
@[simp] theorem State.onJournal_channels (s : State) (f : JournalStore → JournalStore) :
    (s.onJournal f).channels = s.channels := rfl
@[simp] theorem State.onJournal_metrology (s : State) (f : JournalStore → JournalStore) :
    (s.onJournal f).metrology = s.metrology := rfl
@[simp] theorem State.onJournal_decks (s : State) (f : JournalStore → JournalStore) :
    (s.onJournal f).decks = s.decks := rfl
@[simp] theorem State.onJournal_bridges (s : State) (f : JournalStore → JournalStore) :
    (s.onJournal f).bridges = s.bridges := rfl
@[simp] theorem State.onJournal_grants (s : State) (f : JournalStore → JournalStore) :
    (s.onJournal f).grants = s.grants := rfl
@[simp] theorem State.onJournal_barriers (s : State) (f : JournalStore → JournalStore) :
    (s.onJournal f).barriers = s.barriers := rfl
@[simp] theorem State.onJournal_loops (s : State) (f : JournalStore → JournalStore) :
    (s.onJournal f).loops = s.loops := rfl
@[simp] theorem State.onJournal_beams (s : State) (f : JournalStore → JournalStore) :
    (s.onJournal f).beams = s.beams := rfl
@[simp] theorem State.onJournal_lanes (s : State) (f : JournalStore → JournalStore) :
    (s.onJournal f).lanes = s.lanes := rfl
@[simp] theorem State.onJournal_adm (s : State) (f : JournalStore → JournalStore) :
    (s.onJournal f).adm = s.adm := rfl
@[simp] theorem State.onJournal_siteFull (s : State) (f : JournalStore → JournalStore) :
    (s.onJournal f).siteFull = s.siteFull := rfl
@[simp] theorem State.onJournal_marks (s : State) (f : JournalStore → JournalStore) :
    (s.onJournal f).marks = s.marks := rfl
@[simp] theorem State.onJournal_powerFail (s : State) (f : JournalStore → JournalStore) :
    (s.onJournal f).powerFail = s.powerFail := rfl
@[simp] theorem State.onJournal_laneHold (s : State) (f : JournalStore → JournalStore) :
    (s.onJournal f).laneHold = s.laneHold := rfl
@[simp] theorem State.onJournal_link (s : State) (f : JournalStore → JournalStore) :
    (s.onJournal f).link = s.link := rfl
@[simp] theorem State.onJournal_evaluations (s : State) (f : JournalStore → JournalStore) :
    (s.onJournal f).evaluations = s.evaluations := rfl
@[simp] theorem State.onBridgeCal_pending (s : State) (b : BridgeNo) (f : BridgeCal → BridgeCal) :
    (s.onBridgeCal b f).pending = s.pending := rfl
@[simp] theorem State.onBridgeCal_powered (s : State) (b : BridgeNo) (f : BridgeCal → BridgeCal) :
    (s.onBridgeCal b f).powered = s.powered := rfl
@[simp] theorem State.onBridgeCal_pins (s : State) (b : BridgeNo) (f : BridgeCal → BridgeCal) :
    (s.onBridgeCal b f).pins = s.pins := rfl
@[simp] theorem State.onBridgeCal_channels (s : State) (b : BridgeNo) (f : BridgeCal → BridgeCal) :
    (s.onBridgeCal b f).channels = s.channels := rfl
@[simp] theorem State.onBridgeCal_metrology (s : State) (b : BridgeNo) (f : BridgeCal → BridgeCal) :
    (s.onBridgeCal b f).metrology = s.metrology := rfl
@[simp] theorem State.onBridgeCal_decks (s : State) (b : BridgeNo) (f : BridgeCal → BridgeCal) :
    (s.onBridgeCal b f).decks = s.decks := rfl
@[simp] theorem State.onBridgeCal_bridges (s : State) (b : BridgeNo) (f : BridgeCal → BridgeCal) :
    (s.onBridgeCal b f).bridges = s.bridges := rfl
@[simp] theorem State.onBridgeCal_grants (s : State) (b : BridgeNo) (f : BridgeCal → BridgeCal) :
    (s.onBridgeCal b f).grants = s.grants := rfl
@[simp] theorem State.onBridgeCal_barriers (s : State) (b : BridgeNo) (f : BridgeCal → BridgeCal) :
    (s.onBridgeCal b f).barriers = s.barriers := rfl
@[simp] theorem State.onBridgeCal_loops (s : State) (b : BridgeNo) (f : BridgeCal → BridgeCal) :
    (s.onBridgeCal b f).loops = s.loops := rfl
@[simp] theorem State.onBridgeCal_beams (s : State) (b : BridgeNo) (f : BridgeCal → BridgeCal) :
    (s.onBridgeCal b f).beams = s.beams := rfl
@[simp] theorem State.onBridgeCal_lanes (s : State) (b : BridgeNo) (f : BridgeCal → BridgeCal) :
    (s.onBridgeCal b f).lanes = s.lanes := rfl
@[simp] theorem State.onBridgeCal_adm (s : State) (b : BridgeNo) (f : BridgeCal → BridgeCal) :
    (s.onBridgeCal b f).adm = s.adm := rfl
@[simp] theorem State.onBridgeCal_siteFull (s : State) (b : BridgeNo) (f : BridgeCal → BridgeCal) :
    (s.onBridgeCal b f).siteFull = s.siteFull := rfl
@[simp] theorem State.onBridgeCal_marks (s : State) (b : BridgeNo) (f : BridgeCal → BridgeCal) :
    (s.onBridgeCal b f).marks = s.marks := rfl
@[simp] theorem State.onBridgeCal_powerFail (s : State) (b : BridgeNo) (f : BridgeCal → BridgeCal) :
    (s.onBridgeCal b f).powerFail = s.powerFail := rfl
@[simp] theorem State.onBridgeCal_laneHold (s : State) (b : BridgeNo) (f : BridgeCal → BridgeCal) :
    (s.onBridgeCal b f).laneHold = s.laneHold := rfl
@[simp] theorem State.onBridgeCal_link (s : State) (b : BridgeNo) (f : BridgeCal → BridgeCal) :
    (s.onBridgeCal b f).link = s.link := rfl
@[simp] theorem State.onBridgeCal_evaluations (s : State) (b : BridgeNo) (f : BridgeCal → BridgeCal) :
    (s.onBridgeCal b f).evaluations = s.evaluations := rfl
@[simp] theorem State.onVisit_pending (s : State) (n : Nat) (f : Visit → Visit) :
    (s.onVisit n f).pending = s.pending := rfl
@[simp] theorem State.onVisit_powered (s : State) (n : Nat) (f : Visit → Visit) :
    (s.onVisit n f).powered = s.powered := rfl
@[simp] theorem State.onVisit_pins (s : State) (n : Nat) (f : Visit → Visit) :
    (s.onVisit n f).pins = s.pins := rfl
@[simp] theorem State.onVisit_channels (s : State) (n : Nat) (f : Visit → Visit) :
    (s.onVisit n f).channels = s.channels := rfl
@[simp] theorem State.onVisit_metrology (s : State) (n : Nat) (f : Visit → Visit) :
    (s.onVisit n f).metrology = s.metrology := rfl
@[simp] theorem State.onVisit_decks (s : State) (n : Nat) (f : Visit → Visit) :
    (s.onVisit n f).decks = s.decks := rfl
@[simp] theorem State.onVisit_bridges (s : State) (n : Nat) (f : Visit → Visit) :
    (s.onVisit n f).bridges = s.bridges := rfl
@[simp] theorem State.onVisit_grants (s : State) (n : Nat) (f : Visit → Visit) :
    (s.onVisit n f).grants = s.grants := rfl
@[simp] theorem State.onVisit_barriers (s : State) (n : Nat) (f : Visit → Visit) :
    (s.onVisit n f).barriers = s.barriers := rfl
@[simp] theorem State.onVisit_loops (s : State) (n : Nat) (f : Visit → Visit) :
    (s.onVisit n f).loops = s.loops := rfl
@[simp] theorem State.onVisit_beams (s : State) (n : Nat) (f : Visit → Visit) :
    (s.onVisit n f).beams = s.beams := rfl
@[simp] theorem State.onVisit_lanes (s : State) (n : Nat) (f : Visit → Visit) :
    (s.onVisit n f).lanes = s.lanes := rfl
@[simp] theorem State.onVisit_adm (s : State) (n : Nat) (f : Visit → Visit) :
    (s.onVisit n f).adm = s.adm := rfl
@[simp] theorem State.onVisit_siteFull (s : State) (n : Nat) (f : Visit → Visit) :
    (s.onVisit n f).siteFull = s.siteFull := rfl
@[simp] theorem State.onVisit_marks (s : State) (n : Nat) (f : Visit → Visit) :
    (s.onVisit n f).marks = s.marks := rfl
@[simp] theorem State.onVisit_powerFail (s : State) (n : Nat) (f : Visit → Visit) :
    (s.onVisit n f).powerFail = s.powerFail := rfl
@[simp] theorem State.onVisit_laneHold (s : State) (n : Nat) (f : Visit → Visit) :
    (s.onVisit n f).laneHold = s.laneHold := rfl
@[simp] theorem State.onVisit_link (s : State) (n : Nat) (f : Visit → Visit) :
    (s.onVisit n f).link = s.link := rfl
@[simp] theorem State.onVisit_evaluations (s : State) (n : Nat) (f : Visit → Visit) :
    (s.onVisit n f).evaluations = s.evaluations := rfl
@[simp] theorem State.report_pending (s : State) (r : Report) :
    (s.report r).pending = s.pending := rfl
@[simp] theorem State.report_powered (s : State) (r : Report) :
    (s.report r).powered = s.powered := rfl
@[simp] theorem State.report_ret (s : State) (r : Report) :
    (s.report r).ret = s.ret := rfl
@[simp] theorem State.report_pins (s : State) (r : Report) :
    (s.report r).pins = s.pins := rfl
@[simp] theorem State.report_channels (s : State) (r : Report) :
    (s.report r).channels = s.channels := rfl
@[simp] theorem State.report_metrology (s : State) (r : Report) :
    (s.report r).metrology = s.metrology := rfl
@[simp] theorem State.report_decks (s : State) (r : Report) :
    (s.report r).decks = s.decks := rfl
@[simp] theorem State.report_bridges (s : State) (r : Report) :
    (s.report r).bridges = s.bridges := rfl
@[simp] theorem State.report_grants (s : State) (r : Report) :
    (s.report r).grants = s.grants := rfl
@[simp] theorem State.report_barriers (s : State) (r : Report) :
    (s.report r).barriers = s.barriers := rfl
@[simp] theorem State.report_loops (s : State) (r : Report) :
    (s.report r).loops = s.loops := rfl
@[simp] theorem State.report_beams (s : State) (r : Report) :
    (s.report r).beams = s.beams := rfl
@[simp] theorem State.report_lanes (s : State) (r : Report) :
    (s.report r).lanes = s.lanes := rfl
@[simp] theorem State.report_adm (s : State) (r : Report) :
    (s.report r).adm = s.adm := rfl
@[simp] theorem State.report_siteFull (s : State) (r : Report) :
    (s.report r).siteFull = s.siteFull := rfl
@[simp] theorem State.report_marks (s : State) (r : Report) :
    (s.report r).marks = s.marks := rfl
@[simp] theorem State.report_powerFail (s : State) (r : Report) :
    (s.report r).powerFail = s.powerFail := rfl
@[simp] theorem State.report_laneHold (s : State) (r : Report) :
    (s.report r).laneHold = s.laneHold := rfl
@[simp] theorem State.report_evaluations (s : State) (r : Report) :
    (s.report r).evaluations = s.evaluations := rfl
@[simp] theorem State.seal_pending (s : State) :
    (s.seal).pending = s.pending := rfl
@[simp] theorem State.seal_powered (s : State) :
    (s.seal).powered = s.powered := rfl
@[simp] theorem State.seal_pins (s : State) :
    (s.seal).pins = s.pins := rfl
@[simp] theorem State.seal_channels (s : State) :
    (s.seal).channels = s.channels := rfl
@[simp] theorem State.seal_metrology (s : State) :
    (s.seal).metrology = s.metrology := rfl
@[simp] theorem State.seal_decks (s : State) :
    (s.seal).decks = s.decks := rfl
@[simp] theorem State.seal_bridges (s : State) :
    (s.seal).bridges = s.bridges := rfl
@[simp] theorem State.seal_grants (s : State) :
    (s.seal).grants = s.grants := rfl
@[simp] theorem State.seal_barriers (s : State) :
    (s.seal).barriers = s.barriers := rfl
@[simp] theorem State.seal_loops (s : State) :
    (s.seal).loops = s.loops := rfl
@[simp] theorem State.seal_beams (s : State) :
    (s.seal).beams = s.beams := rfl
@[simp] theorem State.seal_lanes (s : State) :
    (s.seal).lanes = s.lanes := rfl
@[simp] theorem State.seal_adm (s : State) :
    (s.seal).adm = s.adm := rfl
@[simp] theorem State.seal_siteFull (s : State) :
    (s.seal).siteFull = s.siteFull := rfl
@[simp] theorem State.seal_marks (s : State) :
    (s.seal).marks = s.marks := rfl
@[simp] theorem State.seal_powerFail (s : State) :
    (s.seal).powerFail = s.powerFail := rfl
@[simp] theorem State.seal_laneHold (s : State) :
    (s.seal).laneHold = s.laneHold := rfl
@[simp] theorem State.seal_link (s : State) :
    (s.seal).link = s.link := rfl
@[simp] theorem State.seal_evaluations (s : State) :
    (s.seal).evaluations = s.evaluations := rfl

/-! ### What an update writes -/

@[simp] theorem State.onChannel_channel (s : State) (i : ChannelNo) (f : Channel → Channel) :
    (s.onChannel i f).channel i = f (s.channel i) := by
  simp [State.onChannel, State.channel]
theorem State.onChannel_channel_at (s : State) (i j : ChannelNo) (f : Channel → Channel) :
    (s.onChannel i f).channel j = if i = j then f (s.channel j) else s.channel j := by
  by_cases h : i = j
  · subst h; simp
  · simp [State.onChannel, State.channel, h]
theorem State.onChannel_channel_ne (s : State) {i j : ChannelNo} (f : Channel → Channel) (h : i ≠ j) :
    (s.onChannel i f).channel j = s.channel j := by
  simp [State.onChannel_channel_at, h]
@[simp] theorem State.onDeck_deck (s : State) (i : DeckNo) (f : Deck → Deck) :
    (s.onDeck i f).deck i = f (s.deck i) := by
  simp [State.onDeck, State.deck]
theorem State.onDeck_deck_at (s : State) (i j : DeckNo) (f : Deck → Deck) :
    (s.onDeck i f).deck j = if i = j then f (s.deck j) else s.deck j := by
  by_cases h : i = j
  · subst h; simp
  · simp [State.onDeck, State.deck, h]
theorem State.onDeck_deck_ne (s : State) {i j : DeckNo} (f : Deck → Deck) (h : i ≠ j) :
    (s.onDeck i f).deck j = s.deck j := by
  simp [State.onDeck_deck_at, h]
@[simp] theorem State.onBridge_bridge (s : State) (i : BridgeNo) (f : Bridge → Bridge) :
    (s.onBridge i f).bridge i = f (s.bridge i) := by
  simp [State.onBridge, State.bridge]
theorem State.onBridge_bridge_at (s : State) (i j : BridgeNo) (f : Bridge → Bridge) :
    (s.onBridge i f).bridge j = if i = j then f (s.bridge j) else s.bridge j := by
  by_cases h : i = j
  · subst h; simp
  · simp [State.onBridge, State.bridge, h]
theorem State.onBridge_bridge_ne (s : State) {i j : BridgeNo} (f : Bridge → Bridge) (h : i ≠ j) :
    (s.onBridge i f).bridge j = s.bridge j := by
  simp [State.onBridge_bridge_at, h]
@[simp] theorem State.onGrant_grant (s : State) (i : BridgeNo) (f : Grant → Grant) :
    (s.onGrant i f).grant i = f (s.grant i) := by
  simp [State.onGrant, State.grant]
theorem State.onGrant_grant_at (s : State) (i j : BridgeNo) (f : Grant → Grant) :
    (s.onGrant i f).grant j = if i = j then f (s.grant j) else s.grant j := by
  by_cases h : i = j
  · subst h; simp
  · simp [State.onGrant, State.grant, h]
theorem State.onGrant_grant_ne (s : State) {i j : BridgeNo} (f : Grant → Grant) (h : i ≠ j) :
    (s.onGrant i f).grant j = s.grant j := by
  simp [State.onGrant_grant_at, h]
@[simp] theorem State.onBarrier_barrier (s : State) (i : BarrierNo) (f : Barrier → Barrier) :
    (s.onBarrier i f).barrier i = f (s.barrier i) := by
  simp [State.onBarrier, State.barrier]
theorem State.onBarrier_barrier_at (s : State) (i j : BarrierNo) (f : Barrier → Barrier) :
    (s.onBarrier i f).barrier j = if i = j then f (s.barrier j) else s.barrier j := by
  by_cases h : i = j
  · subst h; simp
  · simp [State.onBarrier, State.barrier, h]
theorem State.onBarrier_barrier_ne (s : State) {i j : BarrierNo} (f : Barrier → Barrier) (h : i ≠ j) :
    (s.onBarrier i f).barrier j = s.barrier j := by
  simp [State.onBarrier_barrier_at, h]
@[simp] theorem State.onLoop_loop (s : State) (i : LoopNo) (f : ApproachLoop → ApproachLoop) :
    (s.onLoop i f).loop i = f (s.loop i) := by
  simp [State.onLoop, State.loop]
theorem State.onLoop_loop_at (s : State) (i j : LoopNo) (f : ApproachLoop → ApproachLoop) :
    (s.onLoop i f).loop j = if i = j then f (s.loop j) else s.loop j := by
  by_cases h : i = j
  · subst h; simp
  · simp [State.onLoop, State.loop, h]
theorem State.onLoop_loop_ne (s : State) {i j : LoopNo} (f : ApproachLoop → ApproachLoop) (h : i ≠ j) :
    (s.onLoop i f).loop j = s.loop j := by
  simp [State.onLoop_loop_at, h]
@[simp] theorem State.onBeam_beam (s : State) (i : BeamNo) (f : Beam → Beam) :
    (s.onBeam i f).beam i = f (s.beam i) := by
  simp [State.onBeam, State.beam]
theorem State.onBeam_beam_at (s : State) (i j : BeamNo) (f : Beam → Beam) :
    (s.onBeam i f).beam j = if i = j then f (s.beam j) else s.beam j := by
  by_cases h : i = j
  · subst h; simp
  · simp [State.onBeam, State.beam, h]
theorem State.onBeam_beam_ne (s : State) {i j : BeamNo} (f : Beam → Beam) (h : i ≠ j) :
    (s.onBeam i f).beam j = s.beam j := by
  simp [State.onBeam_beam_at, h]
@[simp] theorem State.onLane_lane (s : State) (i : LaneNo) (f : Lane → Lane) :
    (s.onLane i f).lane i = f (s.lane i) := by
  simp [State.onLane, State.lane]
theorem State.onLane_lane_at (s : State) (i j : LaneNo) (f : Lane → Lane) :
    (s.onLane i f).lane j = if i = j then f (s.lane j) else s.lane j := by
  by_cases h : i = j
  · subst h; simp
  · simp [State.onLane, State.lane, h]
theorem State.onLane_lane_ne (s : State) {i j : LaneNo} (f : Lane → Lane) (h : i ≠ j) :
    (s.onLane i f).lane j = s.lane j := by
  simp [State.onLane_lane_at, h]
@[simp] theorem State.onSlot_slot (s : State) (i : LaneNo) (f : QuerySlot → QuerySlot) :
    (s.onSlot i f).slot i = f (s.slot i) := by
  simp [State.onSlot, State.onAdm, State.slot]
theorem State.onSlot_slot_at (s : State) (i j : LaneNo) (f : QuerySlot → QuerySlot) :
    (s.onSlot i f).slot j = if i = j then f (s.slot j) else s.slot j := by
  by_cases h : i = j
  · subst h; simp
  · simp [State.onSlot, State.onAdm, State.slot, h]
@[simp] theorem State.onAdm_adm (s : State) (f : Admission → Admission) : (s.onAdm f).adm = f s.adm := rfl
@[simp] theorem State.onLink_link (s : State) (f : Link → Link) : (s.onLink f).link = f s.link := rfl
@[simp] theorem State.onPins_pins (s : State) (f : Pins → Pins) : (s.onPins f).pins = f s.pins := rfl
@[simp] theorem State.onRet_ret (s : State) (f : Retained → Retained) : (s.onRet f).ret = f s.ret := rfl
@[simp] theorem State.onSite_site (s : State) (f : SiteSettings → SiteSettings) :
    (s.onSite f).ret.site = f s.ret.site := rfl
@[simp] theorem State.onVisits_visits (s : State) (f : VisitStore → VisitStore) :
    (s.onVisits f).ret.visits = f s.ret.visits := rfl
@[simp] theorem State.onJournal_journal (s : State) (f : JournalStore → JournalStore) :
    (s.onJournal f).ret.journal = f s.ret.journal := rfl
@[simp] theorem State.seal_ret (s : State) : s.seal.ret = s.ret.sealed := rfl
@[simp] theorem State.report_link (s : State) (r : Report) : (s.report r).link = s.link.queueReport r := rfl

/-! ### The retained contents -/

@[simp] theorem Retained.sealed_journal (r : Retained) : r.sealed.journal = r.journal := rfl
@[simp] theorem Retained.sealed_visits (r : Retained) : r.sealed.visits = r.visits := rfl
@[simp] theorem Retained.sealed_tares (r : Retained) : r.sealed.tares = r.tares := rfl
@[simp] theorem Retained.sealed_site (r : Retained) : r.sealed.site = r.site := rfl
@[simp] theorem Retained.sealed_cal (r : Retained) : r.sealed.cal = r.cal := rfl
@[simp] theorem Retained.sealed_calCounter (r : Retained) : r.sealed.calCounter = r.calCounter := rfl
@[simp] theorem Retained.sealed_clock (r : Retained) : r.sealed.clock = r.clock := rfl
@[simp] theorem Retained.sealed_clockUnset (r : Retained) : r.sealed.clockUnset = r.clockUnset := rfl
@[simp] theorem State.onSite_ret_journal (s : State) (f : SiteSettings → SiteSettings) :
    (s.onSite f).ret.journal = s.ret.journal := rfl
@[simp] theorem State.onSite_ret_visits (s : State) (f : SiteSettings → SiteSettings) :
    (s.onSite f).ret.visits = s.ret.visits := rfl
@[simp] theorem State.onSite_ret_tares (s : State) (f : SiteSettings → SiteSettings) :
    (s.onSite f).ret.tares = s.ret.tares := rfl
@[simp] theorem State.onSite_ret_cal (s : State) (f : SiteSettings → SiteSettings) :
    (s.onSite f).ret.cal = s.ret.cal := rfl
@[simp] theorem State.onSite_ret_calCounter (s : State) (f : SiteSettings → SiteSettings) :
    (s.onSite f).ret.calCounter = s.ret.calCounter := rfl
@[simp] theorem State.onSite_ret_clock (s : State) (f : SiteSettings → SiteSettings) :
    (s.onSite f).ret.clock = s.ret.clock := rfl
@[simp] theorem State.onSite_ret_clockUnset (s : State) (f : SiteSettings → SiteSettings) :
    (s.onSite f).ret.clockUnset = s.ret.clockUnset := rfl
@[simp] theorem State.onSite_ret_checkWord (s : State) (f : SiteSettings → SiteSettings) :
    (s.onSite f).ret.checkWord = s.ret.checkWord := rfl
@[simp] theorem State.onVisits_ret_journal (s : State) (f : VisitStore → VisitStore) :
    (s.onVisits f).ret.journal = s.ret.journal := rfl
@[simp] theorem State.onVisits_ret_tares (s : State) (f : VisitStore → VisitStore) :
    (s.onVisits f).ret.tares = s.ret.tares := rfl
@[simp] theorem State.onVisits_ret_site (s : State) (f : VisitStore → VisitStore) :
    (s.onVisits f).ret.site = s.ret.site := rfl
@[simp] theorem State.onVisits_ret_cal (s : State) (f : VisitStore → VisitStore) :
    (s.onVisits f).ret.cal = s.ret.cal := rfl
@[simp] theorem State.onVisits_ret_calCounter (s : State) (f : VisitStore → VisitStore) :
    (s.onVisits f).ret.calCounter = s.ret.calCounter := rfl
@[simp] theorem State.onVisits_ret_clock (s : State) (f : VisitStore → VisitStore) :
    (s.onVisits f).ret.clock = s.ret.clock := rfl
@[simp] theorem State.onVisits_ret_clockUnset (s : State) (f : VisitStore → VisitStore) :
    (s.onVisits f).ret.clockUnset = s.ret.clockUnset := rfl
@[simp] theorem State.onVisits_ret_checkWord (s : State) (f : VisitStore → VisitStore) :
    (s.onVisits f).ret.checkWord = s.ret.checkWord := rfl
@[simp] theorem State.onJournal_ret_visits (s : State) (f : JournalStore → JournalStore) :
    (s.onJournal f).ret.visits = s.ret.visits := rfl
@[simp] theorem State.onJournal_ret_tares (s : State) (f : JournalStore → JournalStore) :
    (s.onJournal f).ret.tares = s.ret.tares := rfl
@[simp] theorem State.onJournal_ret_site (s : State) (f : JournalStore → JournalStore) :
    (s.onJournal f).ret.site = s.ret.site := rfl
@[simp] theorem State.onJournal_ret_cal (s : State) (f : JournalStore → JournalStore) :
    (s.onJournal f).ret.cal = s.ret.cal := rfl
@[simp] theorem State.onJournal_ret_calCounter (s : State) (f : JournalStore → JournalStore) :
    (s.onJournal f).ret.calCounter = s.ret.calCounter := rfl
@[simp] theorem State.onJournal_ret_clock (s : State) (f : JournalStore → JournalStore) :
    (s.onJournal f).ret.clock = s.ret.clock := rfl
@[simp] theorem State.onJournal_ret_clockUnset (s : State) (f : JournalStore → JournalStore) :
    (s.onJournal f).ret.clockUnset = s.ret.clockUnset := rfl
@[simp] theorem State.onJournal_ret_checkWord (s : State) (f : JournalStore → JournalStore) :
    (s.onJournal f).ret.checkWord = s.ret.checkWord := rfl
@[simp] theorem State.onBridgeCal_ret_journal (s : State) (b : BridgeNo) (f : BridgeCal → BridgeCal) :
    (s.onBridgeCal b f).ret.journal = s.ret.journal := rfl
@[simp] theorem State.onBridgeCal_ret_visits (s : State) (b : BridgeNo) (f : BridgeCal → BridgeCal) :
    (s.onBridgeCal b f).ret.visits = s.ret.visits := rfl
@[simp] theorem State.onBridgeCal_ret_tares (s : State) (b : BridgeNo) (f : BridgeCal → BridgeCal) :
    (s.onBridgeCal b f).ret.tares = s.ret.tares := rfl
@[simp] theorem State.onBridgeCal_ret_site (s : State) (b : BridgeNo) (f : BridgeCal → BridgeCal) :
    (s.onBridgeCal b f).ret.site = s.ret.site := rfl
@[simp] theorem State.onBridgeCal_ret_calCounter (s : State) (b : BridgeNo) (f : BridgeCal → BridgeCal) :
    (s.onBridgeCal b f).ret.calCounter = s.ret.calCounter := rfl
@[simp] theorem State.onBridgeCal_ret_clock (s : State) (b : BridgeNo) (f : BridgeCal → BridgeCal) :
    (s.onBridgeCal b f).ret.clock = s.ret.clock := rfl
@[simp] theorem State.onBridgeCal_ret_clockUnset (s : State) (b : BridgeNo) (f : BridgeCal → BridgeCal) :
    (s.onBridgeCal b f).ret.clockUnset = s.ret.clockUnset := rfl
@[simp] theorem State.onBridgeCal_ret_checkWord (s : State) (b : BridgeNo) (f : BridgeCal → BridgeCal) :
    (s.onBridgeCal b f).ret.checkWord = s.ret.checkWord := rfl
@[simp] theorem State.onVisit_ret_journal (s : State) (n : Nat) (f : Visit → Visit) :
    (s.onVisit n f).ret.journal = s.ret.journal := rfl
@[simp] theorem State.onVisit_ret_tares (s : State) (n : Nat) (f : Visit → Visit) :
    (s.onVisit n f).ret.tares = s.ret.tares := rfl
@[simp] theorem State.onVisit_ret_site (s : State) (n : Nat) (f : Visit → Visit) :
    (s.onVisit n f).ret.site = s.ret.site := rfl
@[simp] theorem State.onVisit_ret_cal (s : State) (n : Nat) (f : Visit → Visit) :
    (s.onVisit n f).ret.cal = s.ret.cal := rfl
@[simp] theorem State.onVisit_ret_calCounter (s : State) (n : Nat) (f : Visit → Visit) :
    (s.onVisit n f).ret.calCounter = s.ret.calCounter := rfl
@[simp] theorem State.onVisit_ret_clock (s : State) (n : Nat) (f : Visit → Visit) :
    (s.onVisit n f).ret.clock = s.ret.clock := rfl
@[simp] theorem State.onVisit_ret_clockUnset (s : State) (n : Nat) (f : Visit → Visit) :
    (s.onVisit n f).ret.clockUnset = s.ret.clockUnset := rfl
@[simp] theorem State.onVisit_ret_checkWord (s : State) (n : Nat) (f : Visit → Visit) :
    (s.onVisit n f).ret.checkWord = s.ret.checkWord := rfl

/-! ### The readers of one unit -/

@[simp] theorem State.onChannel_deck' (s : State) (c : ChannelNo) (f : Channel → Channel) (i : DeckNo) :
    (s.onChannel c f).deck i = s.deck i := rfl
@[simp] theorem State.onChannel_bridge' (s : State) (c : ChannelNo) (f : Channel → Channel) (i : BridgeNo) :
    (s.onChannel c f).bridge i = s.bridge i := rfl
@[simp] theorem State.onChannel_grant' (s : State) (c : ChannelNo) (f : Channel → Channel) (i : BridgeNo) :
    (s.onChannel c f).grant i = s.grant i := rfl
@[simp] theorem State.onChannel_barrier' (s : State) (c : ChannelNo) (f : Channel → Channel) (i : BarrierNo) :
    (s.onChannel c f).barrier i = s.barrier i := rfl
@[simp] theorem State.onChannel_loop' (s : State) (c : ChannelNo) (f : Channel → Channel) (i : LoopNo) :
    (s.onChannel c f).loop i = s.loop i := rfl
@[simp] theorem State.onChannel_beam' (s : State) (c : ChannelNo) (f : Channel → Channel) (i : BeamNo) :
    (s.onChannel c f).beam i = s.beam i := rfl
@[simp] theorem State.onChannel_lane' (s : State) (c : ChannelNo) (f : Channel → Channel) (i : LaneNo) :
    (s.onChannel c f).lane i = s.lane i := rfl
@[simp] theorem State.onChannel_slot' (s : State) (c : ChannelNo) (f : Channel → Channel) (i : LaneNo) :
    (s.onChannel c f).slot i = s.slot i := rfl
@[simp] theorem State.onChannel_config' (s : State) (c : ChannelNo) (f : Channel → Channel) (i : LaneNo) :
    (s.onChannel c f).config i = s.config i := rfl
@[simp] theorem State.onChannel_timing' (s : State) (c : ChannelNo) (f : Channel → Channel) (i : BridgeNo) :
    (s.onChannel c f).timing i = s.timing i := rfl
@[simp] theorem State.onChannel_stream' (s : State) (c : ChannelNo) (f : Channel → Channel) (i : StreamNo) :
    (s.onChannel c f).stream i = s.stream i := rfl
@[simp] theorem State.onChannel_deckOf' (s : State) (c : ChannelNo) (f : Channel → Channel) (i : ChannelNo) :
    (s.onChannel c f).deckOf i = s.deckOf i := rfl
@[simp] theorem State.onChannel_channelCal' (s : State) (c : ChannelNo) (f : Channel → Channel) (i : ChannelNo) :
    (s.onChannel c f).channelCal i = s.channelCal i := rfl
@[simp] theorem State.onChannel_bridgeCal' (s : State) (c : ChannelNo) (f : Channel → Channel) (i : BridgeNo) :
    (s.onChannel c f).bridgeCal i = s.bridgeCal i := rfl
@[simp] theorem State.onChannel_visitOf' (s : State) (c : ChannelNo) (f : Channel → Channel) (i : Nat) :
    (s.onChannel c f).visitOf i = s.visitOf i := rfl
@[simp] theorem State.onChannel_visitOfTag' (s : State) (c : ChannelNo) (f : Channel → Channel) (i : Word) :
    (s.onChannel c f).visitOfTag i = s.visitOfTag i := rfl
@[simp] theorem State.onChannel_timers (s : State) (c : ChannelNo) (f : Channel → Channel) : (s.onChannel c f).timers = s.timers := rfl
@[simp] theorem State.onChannel_period (s : State) (c : ChannelNo) (f : Channel → Channel) : (s.onChannel c f).period = s.period := rfl
@[simp] theorem State.onChannel_failing (s : State) (c : ChannelNo) (f : Channel → Channel) : (s.onChannel c f).failing = s.failing := rfl
@[simp] theorem State.onDeck_channel' (s : State) (d : DeckNo) (f : Deck → Deck) (i : ChannelNo) :
    (s.onDeck d f).channel i = s.channel i := rfl
@[simp] theorem State.onDeck_bridge' (s : State) (d : DeckNo) (f : Deck → Deck) (i : BridgeNo) :
    (s.onDeck d f).bridge i = s.bridge i := rfl
@[simp] theorem State.onDeck_grant' (s : State) (d : DeckNo) (f : Deck → Deck) (i : BridgeNo) :
    (s.onDeck d f).grant i = s.grant i := rfl
@[simp] theorem State.onDeck_barrier' (s : State) (d : DeckNo) (f : Deck → Deck) (i : BarrierNo) :
    (s.onDeck d f).barrier i = s.barrier i := rfl
@[simp] theorem State.onDeck_loop' (s : State) (d : DeckNo) (f : Deck → Deck) (i : LoopNo) :
    (s.onDeck d f).loop i = s.loop i := rfl
@[simp] theorem State.onDeck_beam' (s : State) (d : DeckNo) (f : Deck → Deck) (i : BeamNo) :
    (s.onDeck d f).beam i = s.beam i := rfl
@[simp] theorem State.onDeck_lane' (s : State) (d : DeckNo) (f : Deck → Deck) (i : LaneNo) :
    (s.onDeck d f).lane i = s.lane i := rfl
@[simp] theorem State.onDeck_slot' (s : State) (d : DeckNo) (f : Deck → Deck) (i : LaneNo) :
    (s.onDeck d f).slot i = s.slot i := rfl
@[simp] theorem State.onDeck_config' (s : State) (d : DeckNo) (f : Deck → Deck) (i : LaneNo) :
    (s.onDeck d f).config i = s.config i := rfl
@[simp] theorem State.onDeck_timing' (s : State) (d : DeckNo) (f : Deck → Deck) (i : BridgeNo) :
    (s.onDeck d f).timing i = s.timing i := rfl
@[simp] theorem State.onDeck_stream' (s : State) (d : DeckNo) (f : Deck → Deck) (i : StreamNo) :
    (s.onDeck d f).stream i = s.stream i := rfl
@[simp] theorem State.onDeck_deckOf' (s : State) (d : DeckNo) (f : Deck → Deck) (i : ChannelNo) :
    (s.onDeck d f).deckOf i = s.deckOf i := rfl
@[simp] theorem State.onDeck_channelCal' (s : State) (d : DeckNo) (f : Deck → Deck) (i : ChannelNo) :
    (s.onDeck d f).channelCal i = s.channelCal i := rfl
@[simp] theorem State.onDeck_bridgeCal' (s : State) (d : DeckNo) (f : Deck → Deck) (i : BridgeNo) :
    (s.onDeck d f).bridgeCal i = s.bridgeCal i := rfl
@[simp] theorem State.onDeck_visitOf' (s : State) (d : DeckNo) (f : Deck → Deck) (i : Nat) :
    (s.onDeck d f).visitOf i = s.visitOf i := rfl
@[simp] theorem State.onDeck_visitOfTag' (s : State) (d : DeckNo) (f : Deck → Deck) (i : Word) :
    (s.onDeck d f).visitOfTag i = s.visitOfTag i := rfl
@[simp] theorem State.onDeck_timers (s : State) (d : DeckNo) (f : Deck → Deck) : (s.onDeck d f).timers = s.timers := rfl
@[simp] theorem State.onDeck_period (s : State) (d : DeckNo) (f : Deck → Deck) : (s.onDeck d f).period = s.period := rfl
@[simp] theorem State.onDeck_failing (s : State) (d : DeckNo) (f : Deck → Deck) : (s.onDeck d f).failing = s.failing := rfl
@[simp] theorem State.onBridge_channel' (s : State) (b : BridgeNo) (f : Bridge → Bridge) (i : ChannelNo) :
    (s.onBridge b f).channel i = s.channel i := rfl
@[simp] theorem State.onBridge_deck' (s : State) (b : BridgeNo) (f : Bridge → Bridge) (i : DeckNo) :
    (s.onBridge b f).deck i = s.deck i := rfl
@[simp] theorem State.onBridge_grant' (s : State) (b : BridgeNo) (f : Bridge → Bridge) (i : BridgeNo) :
    (s.onBridge b f).grant i = s.grant i := rfl
@[simp] theorem State.onBridge_barrier' (s : State) (b : BridgeNo) (f : Bridge → Bridge) (i : BarrierNo) :
    (s.onBridge b f).barrier i = s.barrier i := rfl
@[simp] theorem State.onBridge_loop' (s : State) (b : BridgeNo) (f : Bridge → Bridge) (i : LoopNo) :
    (s.onBridge b f).loop i = s.loop i := rfl
@[simp] theorem State.onBridge_beam' (s : State) (b : BridgeNo) (f : Bridge → Bridge) (i : BeamNo) :
    (s.onBridge b f).beam i = s.beam i := rfl
@[simp] theorem State.onBridge_lane' (s : State) (b : BridgeNo) (f : Bridge → Bridge) (i : LaneNo) :
    (s.onBridge b f).lane i = s.lane i := rfl
@[simp] theorem State.onBridge_slot' (s : State) (b : BridgeNo) (f : Bridge → Bridge) (i : LaneNo) :
    (s.onBridge b f).slot i = s.slot i := rfl
@[simp] theorem State.onBridge_config' (s : State) (b : BridgeNo) (f : Bridge → Bridge) (i : LaneNo) :
    (s.onBridge b f).config i = s.config i := rfl
@[simp] theorem State.onBridge_timing' (s : State) (b : BridgeNo) (f : Bridge → Bridge) (i : BridgeNo) :
    (s.onBridge b f).timing i = s.timing i := rfl
@[simp] theorem State.onBridge_stream' (s : State) (b : BridgeNo) (f : Bridge → Bridge) (i : StreamNo) :
    (s.onBridge b f).stream i = s.stream i := rfl
@[simp] theorem State.onBridge_deckOf' (s : State) (b : BridgeNo) (f : Bridge → Bridge) (i : ChannelNo) :
    (s.onBridge b f).deckOf i = s.deckOf i := rfl
@[simp] theorem State.onBridge_channelCal' (s : State) (b : BridgeNo) (f : Bridge → Bridge) (i : ChannelNo) :
    (s.onBridge b f).channelCal i = s.channelCal i := rfl
@[simp] theorem State.onBridge_bridgeCal' (s : State) (b : BridgeNo) (f : Bridge → Bridge) (i : BridgeNo) :
    (s.onBridge b f).bridgeCal i = s.bridgeCal i := rfl
@[simp] theorem State.onBridge_visitOf' (s : State) (b : BridgeNo) (f : Bridge → Bridge) (i : Nat) :
    (s.onBridge b f).visitOf i = s.visitOf i := rfl
@[simp] theorem State.onBridge_visitOfTag' (s : State) (b : BridgeNo) (f : Bridge → Bridge) (i : Word) :
    (s.onBridge b f).visitOfTag i = s.visitOfTag i := rfl
@[simp] theorem State.onBridge_timers (s : State) (b : BridgeNo) (f : Bridge → Bridge) : (s.onBridge b f).timers = s.timers := rfl
@[simp] theorem State.onBridge_period (s : State) (b : BridgeNo) (f : Bridge → Bridge) : (s.onBridge b f).period = s.period := rfl
@[simp] theorem State.onBridge_failing (s : State) (b : BridgeNo) (f : Bridge → Bridge) : (s.onBridge b f).failing = s.failing := rfl
@[simp] theorem State.onGrant_channel' (s : State) (b : BridgeNo) (f : Grant → Grant) (i : ChannelNo) :
    (s.onGrant b f).channel i = s.channel i := rfl
@[simp] theorem State.onGrant_deck' (s : State) (b : BridgeNo) (f : Grant → Grant) (i : DeckNo) :
    (s.onGrant b f).deck i = s.deck i := rfl
@[simp] theorem State.onGrant_bridge' (s : State) (b : BridgeNo) (f : Grant → Grant) (i : BridgeNo) :
    (s.onGrant b f).bridge i = s.bridge i := rfl
@[simp] theorem State.onGrant_barrier' (s : State) (b : BridgeNo) (f : Grant → Grant) (i : BarrierNo) :
    (s.onGrant b f).barrier i = s.barrier i := rfl
@[simp] theorem State.onGrant_loop' (s : State) (b : BridgeNo) (f : Grant → Grant) (i : LoopNo) :
    (s.onGrant b f).loop i = s.loop i := rfl
@[simp] theorem State.onGrant_beam' (s : State) (b : BridgeNo) (f : Grant → Grant) (i : BeamNo) :
    (s.onGrant b f).beam i = s.beam i := rfl
@[simp] theorem State.onGrant_lane' (s : State) (b : BridgeNo) (f : Grant → Grant) (i : LaneNo) :
    (s.onGrant b f).lane i = s.lane i := rfl
@[simp] theorem State.onGrant_slot' (s : State) (b : BridgeNo) (f : Grant → Grant) (i : LaneNo) :
    (s.onGrant b f).slot i = s.slot i := rfl
@[simp] theorem State.onGrant_config' (s : State) (b : BridgeNo) (f : Grant → Grant) (i : LaneNo) :
    (s.onGrant b f).config i = s.config i := rfl
@[simp] theorem State.onGrant_timing' (s : State) (b : BridgeNo) (f : Grant → Grant) (i : BridgeNo) :
    (s.onGrant b f).timing i = s.timing i := rfl
@[simp] theorem State.onGrant_stream' (s : State) (b : BridgeNo) (f : Grant → Grant) (i : StreamNo) :
    (s.onGrant b f).stream i = s.stream i := rfl
@[simp] theorem State.onGrant_deckOf' (s : State) (b : BridgeNo) (f : Grant → Grant) (i : ChannelNo) :
    (s.onGrant b f).deckOf i = s.deckOf i := rfl
@[simp] theorem State.onGrant_channelCal' (s : State) (b : BridgeNo) (f : Grant → Grant) (i : ChannelNo) :
    (s.onGrant b f).channelCal i = s.channelCal i := rfl
@[simp] theorem State.onGrant_bridgeCal' (s : State) (b : BridgeNo) (f : Grant → Grant) (i : BridgeNo) :
    (s.onGrant b f).bridgeCal i = s.bridgeCal i := rfl
@[simp] theorem State.onGrant_visitOf' (s : State) (b : BridgeNo) (f : Grant → Grant) (i : Nat) :
    (s.onGrant b f).visitOf i = s.visitOf i := rfl
@[simp] theorem State.onGrant_visitOfTag' (s : State) (b : BridgeNo) (f : Grant → Grant) (i : Word) :
    (s.onGrant b f).visitOfTag i = s.visitOfTag i := rfl
@[simp] theorem State.onGrant_timers (s : State) (b : BridgeNo) (f : Grant → Grant) : (s.onGrant b f).timers = s.timers := rfl
@[simp] theorem State.onGrant_period (s : State) (b : BridgeNo) (f : Grant → Grant) : (s.onGrant b f).period = s.period := rfl
@[simp] theorem State.onGrant_failing (s : State) (b : BridgeNo) (f : Grant → Grant) : (s.onGrant b f).failing = s.failing := rfl
@[simp] theorem State.onBarrier_channel' (s : State) (b : BarrierNo) (f : Barrier → Barrier) (i : ChannelNo) :
    (s.onBarrier b f).channel i = s.channel i := rfl
@[simp] theorem State.onBarrier_deck' (s : State) (b : BarrierNo) (f : Barrier → Barrier) (i : DeckNo) :
    (s.onBarrier b f).deck i = s.deck i := rfl
@[simp] theorem State.onBarrier_bridge' (s : State) (b : BarrierNo) (f : Barrier → Barrier) (i : BridgeNo) :
    (s.onBarrier b f).bridge i = s.bridge i := rfl
@[simp] theorem State.onBarrier_grant' (s : State) (b : BarrierNo) (f : Barrier → Barrier) (i : BridgeNo) :
    (s.onBarrier b f).grant i = s.grant i := rfl
@[simp] theorem State.onBarrier_loop' (s : State) (b : BarrierNo) (f : Barrier → Barrier) (i : LoopNo) :
    (s.onBarrier b f).loop i = s.loop i := rfl
@[simp] theorem State.onBarrier_beam' (s : State) (b : BarrierNo) (f : Barrier → Barrier) (i : BeamNo) :
    (s.onBarrier b f).beam i = s.beam i := rfl
@[simp] theorem State.onBarrier_lane' (s : State) (b : BarrierNo) (f : Barrier → Barrier) (i : LaneNo) :
    (s.onBarrier b f).lane i = s.lane i := rfl
@[simp] theorem State.onBarrier_slot' (s : State) (b : BarrierNo) (f : Barrier → Barrier) (i : LaneNo) :
    (s.onBarrier b f).slot i = s.slot i := rfl
@[simp] theorem State.onBarrier_config' (s : State) (b : BarrierNo) (f : Barrier → Barrier) (i : LaneNo) :
    (s.onBarrier b f).config i = s.config i := rfl
@[simp] theorem State.onBarrier_timing' (s : State) (b : BarrierNo) (f : Barrier → Barrier) (i : BridgeNo) :
    (s.onBarrier b f).timing i = s.timing i := rfl
@[simp] theorem State.onBarrier_stream' (s : State) (b : BarrierNo) (f : Barrier → Barrier) (i : StreamNo) :
    (s.onBarrier b f).stream i = s.stream i := rfl
@[simp] theorem State.onBarrier_deckOf' (s : State) (b : BarrierNo) (f : Barrier → Barrier) (i : ChannelNo) :
    (s.onBarrier b f).deckOf i = s.deckOf i := rfl
@[simp] theorem State.onBarrier_channelCal' (s : State) (b : BarrierNo) (f : Barrier → Barrier) (i : ChannelNo) :
    (s.onBarrier b f).channelCal i = s.channelCal i := rfl
@[simp] theorem State.onBarrier_bridgeCal' (s : State) (b : BarrierNo) (f : Barrier → Barrier) (i : BridgeNo) :
    (s.onBarrier b f).bridgeCal i = s.bridgeCal i := rfl
@[simp] theorem State.onBarrier_visitOf' (s : State) (b : BarrierNo) (f : Barrier → Barrier) (i : Nat) :
    (s.onBarrier b f).visitOf i = s.visitOf i := rfl
@[simp] theorem State.onBarrier_visitOfTag' (s : State) (b : BarrierNo) (f : Barrier → Barrier) (i : Word) :
    (s.onBarrier b f).visitOfTag i = s.visitOfTag i := rfl
@[simp] theorem State.onBarrier_timers (s : State) (b : BarrierNo) (f : Barrier → Barrier) : (s.onBarrier b f).timers = s.timers := rfl
@[simp] theorem State.onBarrier_period (s : State) (b : BarrierNo) (f : Barrier → Barrier) : (s.onBarrier b f).period = s.period := rfl
@[simp] theorem State.onBarrier_failing (s : State) (b : BarrierNo) (f : Barrier → Barrier) : (s.onBarrier b f).failing = s.failing := rfl
@[simp] theorem State.onLoop_channel' (s : State) (a : LoopNo) (f : ApproachLoop → ApproachLoop) (i : ChannelNo) :
    (s.onLoop a f).channel i = s.channel i := rfl
@[simp] theorem State.onLoop_deck' (s : State) (a : LoopNo) (f : ApproachLoop → ApproachLoop) (i : DeckNo) :
    (s.onLoop a f).deck i = s.deck i := rfl
@[simp] theorem State.onLoop_bridge' (s : State) (a : LoopNo) (f : ApproachLoop → ApproachLoop) (i : BridgeNo) :
    (s.onLoop a f).bridge i = s.bridge i := rfl
@[simp] theorem State.onLoop_grant' (s : State) (a : LoopNo) (f : ApproachLoop → ApproachLoop) (i : BridgeNo) :
    (s.onLoop a f).grant i = s.grant i := rfl
@[simp] theorem State.onLoop_barrier' (s : State) (a : LoopNo) (f : ApproachLoop → ApproachLoop) (i : BarrierNo) :
    (s.onLoop a f).barrier i = s.barrier i := rfl
@[simp] theorem State.onLoop_beam' (s : State) (a : LoopNo) (f : ApproachLoop → ApproachLoop) (i : BeamNo) :
    (s.onLoop a f).beam i = s.beam i := rfl
@[simp] theorem State.onLoop_lane' (s : State) (a : LoopNo) (f : ApproachLoop → ApproachLoop) (i : LaneNo) :
    (s.onLoop a f).lane i = s.lane i := rfl
@[simp] theorem State.onLoop_slot' (s : State) (a : LoopNo) (f : ApproachLoop → ApproachLoop) (i : LaneNo) :
    (s.onLoop a f).slot i = s.slot i := rfl
@[simp] theorem State.onLoop_config' (s : State) (a : LoopNo) (f : ApproachLoop → ApproachLoop) (i : LaneNo) :
    (s.onLoop a f).config i = s.config i := rfl
@[simp] theorem State.onLoop_timing' (s : State) (a : LoopNo) (f : ApproachLoop → ApproachLoop) (i : BridgeNo) :
    (s.onLoop a f).timing i = s.timing i := rfl
@[simp] theorem State.onLoop_stream' (s : State) (a : LoopNo) (f : ApproachLoop → ApproachLoop) (i : StreamNo) :
    (s.onLoop a f).stream i = s.stream i := rfl
@[simp] theorem State.onLoop_deckOf' (s : State) (a : LoopNo) (f : ApproachLoop → ApproachLoop) (i : ChannelNo) :
    (s.onLoop a f).deckOf i = s.deckOf i := rfl
@[simp] theorem State.onLoop_channelCal' (s : State) (a : LoopNo) (f : ApproachLoop → ApproachLoop) (i : ChannelNo) :
    (s.onLoop a f).channelCal i = s.channelCal i := rfl
@[simp] theorem State.onLoop_bridgeCal' (s : State) (a : LoopNo) (f : ApproachLoop → ApproachLoop) (i : BridgeNo) :
    (s.onLoop a f).bridgeCal i = s.bridgeCal i := rfl
@[simp] theorem State.onLoop_visitOf' (s : State) (a : LoopNo) (f : ApproachLoop → ApproachLoop) (i : Nat) :
    (s.onLoop a f).visitOf i = s.visitOf i := rfl
@[simp] theorem State.onLoop_visitOfTag' (s : State) (a : LoopNo) (f : ApproachLoop → ApproachLoop) (i : Word) :
    (s.onLoop a f).visitOfTag i = s.visitOfTag i := rfl
@[simp] theorem State.onLoop_timers (s : State) (a : LoopNo) (f : ApproachLoop → ApproachLoop) : (s.onLoop a f).timers = s.timers := rfl
@[simp] theorem State.onLoop_period (s : State) (a : LoopNo) (f : ApproachLoop → ApproachLoop) : (s.onLoop a f).period = s.period := rfl
@[simp] theorem State.onLoop_failing (s : State) (a : LoopNo) (f : ApproachLoop → ApproachLoop) : (s.onLoop a f).failing = s.failing := rfl
@[simp] theorem State.onBeam_channel' (s : State) (m : BeamNo) (f : Beam → Beam) (i : ChannelNo) :
    (s.onBeam m f).channel i = s.channel i := rfl
@[simp] theorem State.onBeam_deck' (s : State) (m : BeamNo) (f : Beam → Beam) (i : DeckNo) :
    (s.onBeam m f).deck i = s.deck i := rfl
@[simp] theorem State.onBeam_bridge' (s : State) (m : BeamNo) (f : Beam → Beam) (i : BridgeNo) :
    (s.onBeam m f).bridge i = s.bridge i := rfl
@[simp] theorem State.onBeam_grant' (s : State) (m : BeamNo) (f : Beam → Beam) (i : BridgeNo) :
    (s.onBeam m f).grant i = s.grant i := rfl
@[simp] theorem State.onBeam_barrier' (s : State) (m : BeamNo) (f : Beam → Beam) (i : BarrierNo) :
    (s.onBeam m f).barrier i = s.barrier i := rfl
@[simp] theorem State.onBeam_loop' (s : State) (m : BeamNo) (f : Beam → Beam) (i : LoopNo) :
    (s.onBeam m f).loop i = s.loop i := rfl
@[simp] theorem State.onBeam_lane' (s : State) (m : BeamNo) (f : Beam → Beam) (i : LaneNo) :
    (s.onBeam m f).lane i = s.lane i := rfl
@[simp] theorem State.onBeam_slot' (s : State) (m : BeamNo) (f : Beam → Beam) (i : LaneNo) :
    (s.onBeam m f).slot i = s.slot i := rfl
@[simp] theorem State.onBeam_config' (s : State) (m : BeamNo) (f : Beam → Beam) (i : LaneNo) :
    (s.onBeam m f).config i = s.config i := rfl
@[simp] theorem State.onBeam_timing' (s : State) (m : BeamNo) (f : Beam → Beam) (i : BridgeNo) :
    (s.onBeam m f).timing i = s.timing i := rfl
@[simp] theorem State.onBeam_stream' (s : State) (m : BeamNo) (f : Beam → Beam) (i : StreamNo) :
    (s.onBeam m f).stream i = s.stream i := rfl
@[simp] theorem State.onBeam_deckOf' (s : State) (m : BeamNo) (f : Beam → Beam) (i : ChannelNo) :
    (s.onBeam m f).deckOf i = s.deckOf i := rfl
@[simp] theorem State.onBeam_channelCal' (s : State) (m : BeamNo) (f : Beam → Beam) (i : ChannelNo) :
    (s.onBeam m f).channelCal i = s.channelCal i := rfl
@[simp] theorem State.onBeam_bridgeCal' (s : State) (m : BeamNo) (f : Beam → Beam) (i : BridgeNo) :
    (s.onBeam m f).bridgeCal i = s.bridgeCal i := rfl
@[simp] theorem State.onBeam_visitOf' (s : State) (m : BeamNo) (f : Beam → Beam) (i : Nat) :
    (s.onBeam m f).visitOf i = s.visitOf i := rfl
@[simp] theorem State.onBeam_visitOfTag' (s : State) (m : BeamNo) (f : Beam → Beam) (i : Word) :
    (s.onBeam m f).visitOfTag i = s.visitOfTag i := rfl
@[simp] theorem State.onBeam_timers (s : State) (m : BeamNo) (f : Beam → Beam) : (s.onBeam m f).timers = s.timers := rfl
@[simp] theorem State.onBeam_period (s : State) (m : BeamNo) (f : Beam → Beam) : (s.onBeam m f).period = s.period := rfl
@[simp] theorem State.onBeam_failing (s : State) (m : BeamNo) (f : Beam → Beam) : (s.onBeam m f).failing = s.failing := rfl
@[simp] theorem State.onLane_channel' (s : State) (l : LaneNo) (f : Lane → Lane) (i : ChannelNo) :
    (s.onLane l f).channel i = s.channel i := rfl
@[simp] theorem State.onLane_deck' (s : State) (l : LaneNo) (f : Lane → Lane) (i : DeckNo) :
    (s.onLane l f).deck i = s.deck i := rfl
@[simp] theorem State.onLane_bridge' (s : State) (l : LaneNo) (f : Lane → Lane) (i : BridgeNo) :
    (s.onLane l f).bridge i = s.bridge i := rfl
@[simp] theorem State.onLane_grant' (s : State) (l : LaneNo) (f : Lane → Lane) (i : BridgeNo) :
    (s.onLane l f).grant i = s.grant i := rfl
@[simp] theorem State.onLane_barrier' (s : State) (l : LaneNo) (f : Lane → Lane) (i : BarrierNo) :
    (s.onLane l f).barrier i = s.barrier i := rfl
@[simp] theorem State.onLane_loop' (s : State) (l : LaneNo) (f : Lane → Lane) (i : LoopNo) :
    (s.onLane l f).loop i = s.loop i := rfl
@[simp] theorem State.onLane_beam' (s : State) (l : LaneNo) (f : Lane → Lane) (i : BeamNo) :
    (s.onLane l f).beam i = s.beam i := rfl
@[simp] theorem State.onLane_slot' (s : State) (l : LaneNo) (f : Lane → Lane) (i : LaneNo) :
    (s.onLane l f).slot i = s.slot i := rfl
@[simp] theorem State.onLane_config' (s : State) (l : LaneNo) (f : Lane → Lane) (i : LaneNo) :
    (s.onLane l f).config i = s.config i := rfl
@[simp] theorem State.onLane_timing' (s : State) (l : LaneNo) (f : Lane → Lane) (i : BridgeNo) :
    (s.onLane l f).timing i = s.timing i := rfl
@[simp] theorem State.onLane_stream' (s : State) (l : LaneNo) (f : Lane → Lane) (i : StreamNo) :
    (s.onLane l f).stream i = s.stream i := rfl
@[simp] theorem State.onLane_deckOf' (s : State) (l : LaneNo) (f : Lane → Lane) (i : ChannelNo) :
    (s.onLane l f).deckOf i = s.deckOf i := rfl
@[simp] theorem State.onLane_channelCal' (s : State) (l : LaneNo) (f : Lane → Lane) (i : ChannelNo) :
    (s.onLane l f).channelCal i = s.channelCal i := rfl
@[simp] theorem State.onLane_bridgeCal' (s : State) (l : LaneNo) (f : Lane → Lane) (i : BridgeNo) :
    (s.onLane l f).bridgeCal i = s.bridgeCal i := rfl
@[simp] theorem State.onLane_visitOf' (s : State) (l : LaneNo) (f : Lane → Lane) (i : Nat) :
    (s.onLane l f).visitOf i = s.visitOf i := rfl
@[simp] theorem State.onLane_visitOfTag' (s : State) (l : LaneNo) (f : Lane → Lane) (i : Word) :
    (s.onLane l f).visitOfTag i = s.visitOfTag i := rfl
@[simp] theorem State.onLane_timers (s : State) (l : LaneNo) (f : Lane → Lane) : (s.onLane l f).timers = s.timers := rfl
@[simp] theorem State.onLane_period (s : State) (l : LaneNo) (f : Lane → Lane) : (s.onLane l f).period = s.period := rfl
@[simp] theorem State.onLane_failing (s : State) (l : LaneNo) (f : Lane → Lane) : (s.onLane l f).failing = s.failing := rfl
@[simp] theorem State.onAdm_channel' (s : State) (f : Admission → Admission) (i : ChannelNo) :
    (s.onAdm f).channel i = s.channel i := rfl
@[simp] theorem State.onAdm_deck' (s : State) (f : Admission → Admission) (i : DeckNo) :
    (s.onAdm f).deck i = s.deck i := rfl
@[simp] theorem State.onAdm_bridge' (s : State) (f : Admission → Admission) (i : BridgeNo) :
    (s.onAdm f).bridge i = s.bridge i := rfl
@[simp] theorem State.onAdm_grant' (s : State) (f : Admission → Admission) (i : BridgeNo) :
    (s.onAdm f).grant i = s.grant i := rfl
@[simp] theorem State.onAdm_barrier' (s : State) (f : Admission → Admission) (i : BarrierNo) :
    (s.onAdm f).barrier i = s.barrier i := rfl
@[simp] theorem State.onAdm_loop' (s : State) (f : Admission → Admission) (i : LoopNo) :
    (s.onAdm f).loop i = s.loop i := rfl
@[simp] theorem State.onAdm_beam' (s : State) (f : Admission → Admission) (i : BeamNo) :
    (s.onAdm f).beam i = s.beam i := rfl
@[simp] theorem State.onAdm_lane' (s : State) (f : Admission → Admission) (i : LaneNo) :
    (s.onAdm f).lane i = s.lane i := rfl
@[simp] theorem State.onAdm_config' (s : State) (f : Admission → Admission) (i : LaneNo) :
    (s.onAdm f).config i = s.config i := rfl
@[simp] theorem State.onAdm_timing' (s : State) (f : Admission → Admission) (i : BridgeNo) :
    (s.onAdm f).timing i = s.timing i := rfl
@[simp] theorem State.onAdm_stream' (s : State) (f : Admission → Admission) (i : StreamNo) :
    (s.onAdm f).stream i = s.stream i := rfl
@[simp] theorem State.onAdm_deckOf' (s : State) (f : Admission → Admission) (i : ChannelNo) :
    (s.onAdm f).deckOf i = s.deckOf i := rfl
@[simp] theorem State.onAdm_channelCal' (s : State) (f : Admission → Admission) (i : ChannelNo) :
    (s.onAdm f).channelCal i = s.channelCal i := rfl
@[simp] theorem State.onAdm_bridgeCal' (s : State) (f : Admission → Admission) (i : BridgeNo) :
    (s.onAdm f).bridgeCal i = s.bridgeCal i := rfl
@[simp] theorem State.onAdm_visitOf' (s : State) (f : Admission → Admission) (i : Nat) :
    (s.onAdm f).visitOf i = s.visitOf i := rfl
@[simp] theorem State.onAdm_visitOfTag' (s : State) (f : Admission → Admission) (i : Word) :
    (s.onAdm f).visitOfTag i = s.visitOfTag i := rfl
@[simp] theorem State.onAdm_timers (s : State) (f : Admission → Admission) : (s.onAdm f).timers = s.timers := rfl
@[simp] theorem State.onAdm_period (s : State) (f : Admission → Admission) : (s.onAdm f).period = s.period := rfl
@[simp] theorem State.onAdm_failing (s : State) (f : Admission → Admission) : (s.onAdm f).failing = s.failing := rfl
@[simp] theorem State.onSlot_channel' (s : State) (l : LaneNo) (f : QuerySlot → QuerySlot) (i : ChannelNo) :
    (s.onSlot l f).channel i = s.channel i := rfl
@[simp] theorem State.onSlot_deck' (s : State) (l : LaneNo) (f : QuerySlot → QuerySlot) (i : DeckNo) :
    (s.onSlot l f).deck i = s.deck i := rfl
@[simp] theorem State.onSlot_bridge' (s : State) (l : LaneNo) (f : QuerySlot → QuerySlot) (i : BridgeNo) :
    (s.onSlot l f).bridge i = s.bridge i := rfl
@[simp] theorem State.onSlot_grant' (s : State) (l : LaneNo) (f : QuerySlot → QuerySlot) (i : BridgeNo) :
    (s.onSlot l f).grant i = s.grant i := rfl
@[simp] theorem State.onSlot_barrier' (s : State) (l : LaneNo) (f : QuerySlot → QuerySlot) (i : BarrierNo) :
    (s.onSlot l f).barrier i = s.barrier i := rfl
@[simp] theorem State.onSlot_loop' (s : State) (l : LaneNo) (f : QuerySlot → QuerySlot) (i : LoopNo) :
    (s.onSlot l f).loop i = s.loop i := rfl
@[simp] theorem State.onSlot_beam' (s : State) (l : LaneNo) (f : QuerySlot → QuerySlot) (i : BeamNo) :
    (s.onSlot l f).beam i = s.beam i := rfl
@[simp] theorem State.onSlot_lane' (s : State) (l : LaneNo) (f : QuerySlot → QuerySlot) (i : LaneNo) :
    (s.onSlot l f).lane i = s.lane i := rfl
@[simp] theorem State.onSlot_config' (s : State) (l : LaneNo) (f : QuerySlot → QuerySlot) (i : LaneNo) :
    (s.onSlot l f).config i = s.config i := rfl
@[simp] theorem State.onSlot_timing' (s : State) (l : LaneNo) (f : QuerySlot → QuerySlot) (i : BridgeNo) :
    (s.onSlot l f).timing i = s.timing i := rfl
@[simp] theorem State.onSlot_stream' (s : State) (l : LaneNo) (f : QuerySlot → QuerySlot) (i : StreamNo) :
    (s.onSlot l f).stream i = s.stream i := rfl
@[simp] theorem State.onSlot_deckOf' (s : State) (l : LaneNo) (f : QuerySlot → QuerySlot) (i : ChannelNo) :
    (s.onSlot l f).deckOf i = s.deckOf i := rfl
@[simp] theorem State.onSlot_channelCal' (s : State) (l : LaneNo) (f : QuerySlot → QuerySlot) (i : ChannelNo) :
    (s.onSlot l f).channelCal i = s.channelCal i := rfl
@[simp] theorem State.onSlot_bridgeCal' (s : State) (l : LaneNo) (f : QuerySlot → QuerySlot) (i : BridgeNo) :
    (s.onSlot l f).bridgeCal i = s.bridgeCal i := rfl
@[simp] theorem State.onSlot_visitOf' (s : State) (l : LaneNo) (f : QuerySlot → QuerySlot) (i : Nat) :
    (s.onSlot l f).visitOf i = s.visitOf i := rfl
@[simp] theorem State.onSlot_visitOfTag' (s : State) (l : LaneNo) (f : QuerySlot → QuerySlot) (i : Word) :
    (s.onSlot l f).visitOfTag i = s.visitOfTag i := rfl
@[simp] theorem State.onSlot_timers (s : State) (l : LaneNo) (f : QuerySlot → QuerySlot) : (s.onSlot l f).timers = s.timers := rfl
@[simp] theorem State.onSlot_period (s : State) (l : LaneNo) (f : QuerySlot → QuerySlot) : (s.onSlot l f).period = s.period := rfl
@[simp] theorem State.onSlot_failing (s : State) (l : LaneNo) (f : QuerySlot → QuerySlot) : (s.onSlot l f).failing = s.failing := rfl
@[simp] theorem State.onLink_channel' (s : State) (f : Link → Link) (i : ChannelNo) :
    (s.onLink f).channel i = s.channel i := rfl
@[simp] theorem State.onLink_deck' (s : State) (f : Link → Link) (i : DeckNo) :
    (s.onLink f).deck i = s.deck i := rfl
@[simp] theorem State.onLink_bridge' (s : State) (f : Link → Link) (i : BridgeNo) :
    (s.onLink f).bridge i = s.bridge i := rfl
@[simp] theorem State.onLink_grant' (s : State) (f : Link → Link) (i : BridgeNo) :
    (s.onLink f).grant i = s.grant i := rfl
@[simp] theorem State.onLink_barrier' (s : State) (f : Link → Link) (i : BarrierNo) :
    (s.onLink f).barrier i = s.barrier i := rfl
@[simp] theorem State.onLink_loop' (s : State) (f : Link → Link) (i : LoopNo) :
    (s.onLink f).loop i = s.loop i := rfl
@[simp] theorem State.onLink_beam' (s : State) (f : Link → Link) (i : BeamNo) :
    (s.onLink f).beam i = s.beam i := rfl
@[simp] theorem State.onLink_lane' (s : State) (f : Link → Link) (i : LaneNo) :
    (s.onLink f).lane i = s.lane i := rfl
@[simp] theorem State.onLink_slot' (s : State) (f : Link → Link) (i : LaneNo) :
    (s.onLink f).slot i = s.slot i := rfl
@[simp] theorem State.onLink_config' (s : State) (f : Link → Link) (i : LaneNo) :
    (s.onLink f).config i = s.config i := rfl
@[simp] theorem State.onLink_timing' (s : State) (f : Link → Link) (i : BridgeNo) :
    (s.onLink f).timing i = s.timing i := rfl
@[simp] theorem State.onLink_stream' (s : State) (f : Link → Link) (i : StreamNo) :
    (s.onLink f).stream i = s.stream i := rfl
@[simp] theorem State.onLink_deckOf' (s : State) (f : Link → Link) (i : ChannelNo) :
    (s.onLink f).deckOf i = s.deckOf i := rfl
@[simp] theorem State.onLink_channelCal' (s : State) (f : Link → Link) (i : ChannelNo) :
    (s.onLink f).channelCal i = s.channelCal i := rfl
@[simp] theorem State.onLink_bridgeCal' (s : State) (f : Link → Link) (i : BridgeNo) :
    (s.onLink f).bridgeCal i = s.bridgeCal i := rfl
@[simp] theorem State.onLink_visitOf' (s : State) (f : Link → Link) (i : Nat) :
    (s.onLink f).visitOf i = s.visitOf i := rfl
@[simp] theorem State.onLink_visitOfTag' (s : State) (f : Link → Link) (i : Word) :
    (s.onLink f).visitOfTag i = s.visitOfTag i := rfl
@[simp] theorem State.onLink_timers (s : State) (f : Link → Link) : (s.onLink f).timers = s.timers := rfl
@[simp] theorem State.onLink_period (s : State) (f : Link → Link) : (s.onLink f).period = s.period := rfl
@[simp] theorem State.onLink_failing (s : State) (f : Link → Link) : (s.onLink f).failing = s.failing := rfl
@[simp] theorem State.onPins_channel' (s : State) (f : Pins → Pins) (i : ChannelNo) :
    (s.onPins f).channel i = s.channel i := rfl
@[simp] theorem State.onPins_deck' (s : State) (f : Pins → Pins) (i : DeckNo) :
    (s.onPins f).deck i = s.deck i := rfl
@[simp] theorem State.onPins_bridge' (s : State) (f : Pins → Pins) (i : BridgeNo) :
    (s.onPins f).bridge i = s.bridge i := rfl
@[simp] theorem State.onPins_grant' (s : State) (f : Pins → Pins) (i : BridgeNo) :
    (s.onPins f).grant i = s.grant i := rfl
@[simp] theorem State.onPins_barrier' (s : State) (f : Pins → Pins) (i : BarrierNo) :
    (s.onPins f).barrier i = s.barrier i := rfl
@[simp] theorem State.onPins_loop' (s : State) (f : Pins → Pins) (i : LoopNo) :
    (s.onPins f).loop i = s.loop i := rfl
@[simp] theorem State.onPins_beam' (s : State) (f : Pins → Pins) (i : BeamNo) :
    (s.onPins f).beam i = s.beam i := rfl
@[simp] theorem State.onPins_lane' (s : State) (f : Pins → Pins) (i : LaneNo) :
    (s.onPins f).lane i = s.lane i := rfl
@[simp] theorem State.onPins_slot' (s : State) (f : Pins → Pins) (i : LaneNo) :
    (s.onPins f).slot i = s.slot i := rfl
@[simp] theorem State.onPins_config' (s : State) (f : Pins → Pins) (i : LaneNo) :
    (s.onPins f).config i = s.config i := rfl
@[simp] theorem State.onPins_timing' (s : State) (f : Pins → Pins) (i : BridgeNo) :
    (s.onPins f).timing i = s.timing i := rfl
@[simp] theorem State.onPins_stream' (s : State) (f : Pins → Pins) (i : StreamNo) :
    (s.onPins f).stream i = s.stream i := rfl
@[simp] theorem State.onPins_deckOf' (s : State) (f : Pins → Pins) (i : ChannelNo) :
    (s.onPins f).deckOf i = s.deckOf i := rfl
@[simp] theorem State.onPins_channelCal' (s : State) (f : Pins → Pins) (i : ChannelNo) :
    (s.onPins f).channelCal i = s.channelCal i := rfl
@[simp] theorem State.onPins_bridgeCal' (s : State) (f : Pins → Pins) (i : BridgeNo) :
    (s.onPins f).bridgeCal i = s.bridgeCal i := rfl
@[simp] theorem State.onPins_visitOf' (s : State) (f : Pins → Pins) (i : Nat) :
    (s.onPins f).visitOf i = s.visitOf i := rfl
@[simp] theorem State.onPins_visitOfTag' (s : State) (f : Pins → Pins) (i : Word) :
    (s.onPins f).visitOfTag i = s.visitOfTag i := rfl
@[simp] theorem State.onPins_timers (s : State) (f : Pins → Pins) : (s.onPins f).timers = s.timers := rfl
@[simp] theorem State.onPins_period (s : State) (f : Pins → Pins) : (s.onPins f).period = s.period := rfl
@[simp] theorem State.onPins_failing (s : State) (f : Pins → Pins) : (s.onPins f).failing = s.failing := rfl
@[simp] theorem State.onRet_channel' (s : State) (f : Retained → Retained) (i : ChannelNo) :
    (s.onRet f).channel i = s.channel i := rfl
@[simp] theorem State.onRet_deck' (s : State) (f : Retained → Retained) (i : DeckNo) :
    (s.onRet f).deck i = s.deck i := rfl
@[simp] theorem State.onRet_bridge' (s : State) (f : Retained → Retained) (i : BridgeNo) :
    (s.onRet f).bridge i = s.bridge i := rfl
@[simp] theorem State.onRet_grant' (s : State) (f : Retained → Retained) (i : BridgeNo) :
    (s.onRet f).grant i = s.grant i := rfl
@[simp] theorem State.onRet_barrier' (s : State) (f : Retained → Retained) (i : BarrierNo) :
    (s.onRet f).barrier i = s.barrier i := rfl
@[simp] theorem State.onRet_loop' (s : State) (f : Retained → Retained) (i : LoopNo) :
    (s.onRet f).loop i = s.loop i := rfl
@[simp] theorem State.onRet_beam' (s : State) (f : Retained → Retained) (i : BeamNo) :
    (s.onRet f).beam i = s.beam i := rfl
@[simp] theorem State.onRet_lane' (s : State) (f : Retained → Retained) (i : LaneNo) :
    (s.onRet f).lane i = s.lane i := rfl
@[simp] theorem State.onRet_slot' (s : State) (f : Retained → Retained) (i : LaneNo) :
    (s.onRet f).slot i = s.slot i := rfl
@[simp] theorem State.onRet_failing (s : State) (f : Retained → Retained) : (s.onRet f).failing = s.failing := rfl
@[simp] theorem State.onSite_channel' (s : State) (f : SiteSettings → SiteSettings) (i : ChannelNo) :
    (s.onSite f).channel i = s.channel i := rfl
@[simp] theorem State.onSite_deck' (s : State) (f : SiteSettings → SiteSettings) (i : DeckNo) :
    (s.onSite f).deck i = s.deck i := rfl
@[simp] theorem State.onSite_bridge' (s : State) (f : SiteSettings → SiteSettings) (i : BridgeNo) :
    (s.onSite f).bridge i = s.bridge i := rfl
@[simp] theorem State.onSite_grant' (s : State) (f : SiteSettings → SiteSettings) (i : BridgeNo) :
    (s.onSite f).grant i = s.grant i := rfl
@[simp] theorem State.onSite_barrier' (s : State) (f : SiteSettings → SiteSettings) (i : BarrierNo) :
    (s.onSite f).barrier i = s.barrier i := rfl
@[simp] theorem State.onSite_loop' (s : State) (f : SiteSettings → SiteSettings) (i : LoopNo) :
    (s.onSite f).loop i = s.loop i := rfl
@[simp] theorem State.onSite_beam' (s : State) (f : SiteSettings → SiteSettings) (i : BeamNo) :
    (s.onSite f).beam i = s.beam i := rfl
@[simp] theorem State.onSite_lane' (s : State) (f : SiteSettings → SiteSettings) (i : LaneNo) :
    (s.onSite f).lane i = s.lane i := rfl
@[simp] theorem State.onSite_slot' (s : State) (f : SiteSettings → SiteSettings) (i : LaneNo) :
    (s.onSite f).slot i = s.slot i := rfl
@[simp] theorem State.onSite_channelCal' (s : State) (f : SiteSettings → SiteSettings) (i : ChannelNo) :
    (s.onSite f).channelCal i = s.channelCal i := rfl
@[simp] theorem State.onSite_bridgeCal' (s : State) (f : SiteSettings → SiteSettings) (i : BridgeNo) :
    (s.onSite f).bridgeCal i = s.bridgeCal i := rfl
@[simp] theorem State.onSite_visitOf' (s : State) (f : SiteSettings → SiteSettings) (i : Nat) :
    (s.onSite f).visitOf i = s.visitOf i := rfl
@[simp] theorem State.onSite_visitOfTag' (s : State) (f : SiteSettings → SiteSettings) (i : Word) :
    (s.onSite f).visitOfTag i = s.visitOfTag i := rfl
@[simp] theorem State.onSite_failing (s : State) (f : SiteSettings → SiteSettings) : (s.onSite f).failing = s.failing := rfl
@[simp] theorem State.onVisits_channel' (s : State) (f : VisitStore → VisitStore) (i : ChannelNo) :
    (s.onVisits f).channel i = s.channel i := rfl
@[simp] theorem State.onVisits_deck' (s : State) (f : VisitStore → VisitStore) (i : DeckNo) :
    (s.onVisits f).deck i = s.deck i := rfl
@[simp] theorem State.onVisits_bridge' (s : State) (f : VisitStore → VisitStore) (i : BridgeNo) :
    (s.onVisits f).bridge i = s.bridge i := rfl
@[simp] theorem State.onVisits_grant' (s : State) (f : VisitStore → VisitStore) (i : BridgeNo) :
    (s.onVisits f).grant i = s.grant i := rfl
@[simp] theorem State.onVisits_barrier' (s : State) (f : VisitStore → VisitStore) (i : BarrierNo) :
    (s.onVisits f).barrier i = s.barrier i := rfl
@[simp] theorem State.onVisits_loop' (s : State) (f : VisitStore → VisitStore) (i : LoopNo) :
    (s.onVisits f).loop i = s.loop i := rfl
@[simp] theorem State.onVisits_beam' (s : State) (f : VisitStore → VisitStore) (i : BeamNo) :
    (s.onVisits f).beam i = s.beam i := rfl
@[simp] theorem State.onVisits_lane' (s : State) (f : VisitStore → VisitStore) (i : LaneNo) :
    (s.onVisits f).lane i = s.lane i := rfl
@[simp] theorem State.onVisits_slot' (s : State) (f : VisitStore → VisitStore) (i : LaneNo) :
    (s.onVisits f).slot i = s.slot i := rfl
@[simp] theorem State.onVisits_config' (s : State) (f : VisitStore → VisitStore) (i : LaneNo) :
    (s.onVisits f).config i = s.config i := rfl
@[simp] theorem State.onVisits_timing' (s : State) (f : VisitStore → VisitStore) (i : BridgeNo) :
    (s.onVisits f).timing i = s.timing i := rfl
@[simp] theorem State.onVisits_stream' (s : State) (f : VisitStore → VisitStore) (i : StreamNo) :
    (s.onVisits f).stream i = s.stream i := rfl
@[simp] theorem State.onVisits_deckOf' (s : State) (f : VisitStore → VisitStore) (i : ChannelNo) :
    (s.onVisits f).deckOf i = s.deckOf i := rfl
@[simp] theorem State.onVisits_channelCal' (s : State) (f : VisitStore → VisitStore) (i : ChannelNo) :
    (s.onVisits f).channelCal i = s.channelCal i := rfl
@[simp] theorem State.onVisits_bridgeCal' (s : State) (f : VisitStore → VisitStore) (i : BridgeNo) :
    (s.onVisits f).bridgeCal i = s.bridgeCal i := rfl
@[simp] theorem State.onVisits_timers (s : State) (f : VisitStore → VisitStore) : (s.onVisits f).timers = s.timers := rfl
@[simp] theorem State.onVisits_period (s : State) (f : VisitStore → VisitStore) : (s.onVisits f).period = s.period := rfl
@[simp] theorem State.onVisits_failing (s : State) (f : VisitStore → VisitStore) : (s.onVisits f).failing = s.failing := rfl
@[simp] theorem State.onJournal_channel' (s : State) (f : JournalStore → JournalStore) (i : ChannelNo) :
    (s.onJournal f).channel i = s.channel i := rfl
@[simp] theorem State.onJournal_deck' (s : State) (f : JournalStore → JournalStore) (i : DeckNo) :
    (s.onJournal f).deck i = s.deck i := rfl
@[simp] theorem State.onJournal_bridge' (s : State) (f : JournalStore → JournalStore) (i : BridgeNo) :
    (s.onJournal f).bridge i = s.bridge i := rfl
@[simp] theorem State.onJournal_grant' (s : State) (f : JournalStore → JournalStore) (i : BridgeNo) :
    (s.onJournal f).grant i = s.grant i := rfl
@[simp] theorem State.onJournal_barrier' (s : State) (f : JournalStore → JournalStore) (i : BarrierNo) :
    (s.onJournal f).barrier i = s.barrier i := rfl
@[simp] theorem State.onJournal_loop' (s : State) (f : JournalStore → JournalStore) (i : LoopNo) :
    (s.onJournal f).loop i = s.loop i := rfl
@[simp] theorem State.onJournal_beam' (s : State) (f : JournalStore → JournalStore) (i : BeamNo) :
    (s.onJournal f).beam i = s.beam i := rfl
@[simp] theorem State.onJournal_lane' (s : State) (f : JournalStore → JournalStore) (i : LaneNo) :
    (s.onJournal f).lane i = s.lane i := rfl
@[simp] theorem State.onJournal_slot' (s : State) (f : JournalStore → JournalStore) (i : LaneNo) :
    (s.onJournal f).slot i = s.slot i := rfl
@[simp] theorem State.onJournal_config' (s : State) (f : JournalStore → JournalStore) (i : LaneNo) :
    (s.onJournal f).config i = s.config i := rfl
@[simp] theorem State.onJournal_timing' (s : State) (f : JournalStore → JournalStore) (i : BridgeNo) :
    (s.onJournal f).timing i = s.timing i := rfl
@[simp] theorem State.onJournal_stream' (s : State) (f : JournalStore → JournalStore) (i : StreamNo) :
    (s.onJournal f).stream i = s.stream i := rfl
@[simp] theorem State.onJournal_deckOf' (s : State) (f : JournalStore → JournalStore) (i : ChannelNo) :
    (s.onJournal f).deckOf i = s.deckOf i := rfl
@[simp] theorem State.onJournal_channelCal' (s : State) (f : JournalStore → JournalStore) (i : ChannelNo) :
    (s.onJournal f).channelCal i = s.channelCal i := rfl
@[simp] theorem State.onJournal_bridgeCal' (s : State) (f : JournalStore → JournalStore) (i : BridgeNo) :
    (s.onJournal f).bridgeCal i = s.bridgeCal i := rfl
@[simp] theorem State.onJournal_visitOf' (s : State) (f : JournalStore → JournalStore) (i : Nat) :
    (s.onJournal f).visitOf i = s.visitOf i := rfl
@[simp] theorem State.onJournal_visitOfTag' (s : State) (f : JournalStore → JournalStore) (i : Word) :
    (s.onJournal f).visitOfTag i = s.visitOfTag i := rfl
@[simp] theorem State.onJournal_timers (s : State) (f : JournalStore → JournalStore) : (s.onJournal f).timers = s.timers := rfl
@[simp] theorem State.onJournal_period (s : State) (f : JournalStore → JournalStore) : (s.onJournal f).period = s.period := rfl
@[simp] theorem State.onJournal_failing (s : State) (f : JournalStore → JournalStore) : (s.onJournal f).failing = s.failing := rfl
@[simp] theorem State.onBridgeCal_channel' (s : State) (b : BridgeNo) (f : BridgeCal → BridgeCal) (i : ChannelNo) :
    (s.onBridgeCal b f).channel i = s.channel i := rfl
@[simp] theorem State.onBridgeCal_deck' (s : State) (b : BridgeNo) (f : BridgeCal → BridgeCal) (i : DeckNo) :
    (s.onBridgeCal b f).deck i = s.deck i := rfl
@[simp] theorem State.onBridgeCal_bridge' (s : State) (b : BridgeNo) (f : BridgeCal → BridgeCal) (i : BridgeNo) :
    (s.onBridgeCal b f).bridge i = s.bridge i := rfl
@[simp] theorem State.onBridgeCal_grant' (s : State) (b : BridgeNo) (f : BridgeCal → BridgeCal) (i : BridgeNo) :
    (s.onBridgeCal b f).grant i = s.grant i := rfl
@[simp] theorem State.onBridgeCal_barrier' (s : State) (b : BridgeNo) (f : BridgeCal → BridgeCal) (i : BarrierNo) :
    (s.onBridgeCal b f).barrier i = s.barrier i := rfl
@[simp] theorem State.onBridgeCal_loop' (s : State) (b : BridgeNo) (f : BridgeCal → BridgeCal) (i : LoopNo) :
    (s.onBridgeCal b f).loop i = s.loop i := rfl
@[simp] theorem State.onBridgeCal_beam' (s : State) (b : BridgeNo) (f : BridgeCal → BridgeCal) (i : BeamNo) :
    (s.onBridgeCal b f).beam i = s.beam i := rfl
@[simp] theorem State.onBridgeCal_lane' (s : State) (b : BridgeNo) (f : BridgeCal → BridgeCal) (i : LaneNo) :
    (s.onBridgeCal b f).lane i = s.lane i := rfl
@[simp] theorem State.onBridgeCal_slot' (s : State) (b : BridgeNo) (f : BridgeCal → BridgeCal) (i : LaneNo) :
    (s.onBridgeCal b f).slot i = s.slot i := rfl
@[simp] theorem State.onBridgeCal_config' (s : State) (b : BridgeNo) (f : BridgeCal → BridgeCal) (i : LaneNo) :
    (s.onBridgeCal b f).config i = s.config i := rfl
@[simp] theorem State.onBridgeCal_timing' (s : State) (b : BridgeNo) (f : BridgeCal → BridgeCal) (i : BridgeNo) :
    (s.onBridgeCal b f).timing i = s.timing i := rfl
@[simp] theorem State.onBridgeCal_stream' (s : State) (b : BridgeNo) (f : BridgeCal → BridgeCal) (i : StreamNo) :
    (s.onBridgeCal b f).stream i = s.stream i := rfl
@[simp] theorem State.onBridgeCal_deckOf' (s : State) (b : BridgeNo) (f : BridgeCal → BridgeCal) (i : ChannelNo) :
    (s.onBridgeCal b f).deckOf i = s.deckOf i := rfl
@[simp] theorem State.onBridgeCal_visitOf' (s : State) (b : BridgeNo) (f : BridgeCal → BridgeCal) (i : Nat) :
    (s.onBridgeCal b f).visitOf i = s.visitOf i := rfl
@[simp] theorem State.onBridgeCal_visitOfTag' (s : State) (b : BridgeNo) (f : BridgeCal → BridgeCal) (i : Word) :
    (s.onBridgeCal b f).visitOfTag i = s.visitOfTag i := rfl
@[simp] theorem State.onBridgeCal_timers (s : State) (b : BridgeNo) (f : BridgeCal → BridgeCal) : (s.onBridgeCal b f).timers = s.timers := rfl
@[simp] theorem State.onBridgeCal_period (s : State) (b : BridgeNo) (f : BridgeCal → BridgeCal) : (s.onBridgeCal b f).period = s.period := rfl
@[simp] theorem State.onBridgeCal_failing (s : State) (b : BridgeNo) (f : BridgeCal → BridgeCal) : (s.onBridgeCal b f).failing = s.failing := rfl
@[simp] theorem State.onVisit_channel' (s : State) (n : Nat) (f : Visit → Visit) (i : ChannelNo) :
    (s.onVisit n f).channel i = s.channel i := rfl
@[simp] theorem State.onVisit_deck' (s : State) (n : Nat) (f : Visit → Visit) (i : DeckNo) :
    (s.onVisit n f).deck i = s.deck i := rfl
@[simp] theorem State.onVisit_bridge' (s : State) (n : Nat) (f : Visit → Visit) (i : BridgeNo) :
    (s.onVisit n f).bridge i = s.bridge i := rfl
@[simp] theorem State.onVisit_grant' (s : State) (n : Nat) (f : Visit → Visit) (i : BridgeNo) :
    (s.onVisit n f).grant i = s.grant i := rfl
@[simp] theorem State.onVisit_barrier' (s : State) (n : Nat) (f : Visit → Visit) (i : BarrierNo) :
    (s.onVisit n f).barrier i = s.barrier i := rfl
@[simp] theorem State.onVisit_loop' (s : State) (n : Nat) (f : Visit → Visit) (i : LoopNo) :
    (s.onVisit n f).loop i = s.loop i := rfl
@[simp] theorem State.onVisit_beam' (s : State) (n : Nat) (f : Visit → Visit) (i : BeamNo) :
    (s.onVisit n f).beam i = s.beam i := rfl
@[simp] theorem State.onVisit_lane' (s : State) (n : Nat) (f : Visit → Visit) (i : LaneNo) :
    (s.onVisit n f).lane i = s.lane i := rfl
@[simp] theorem State.onVisit_slot' (s : State) (n : Nat) (f : Visit → Visit) (i : LaneNo) :
    (s.onVisit n f).slot i = s.slot i := rfl
@[simp] theorem State.onVisit_config' (s : State) (n : Nat) (f : Visit → Visit) (i : LaneNo) :
    (s.onVisit n f).config i = s.config i := rfl
@[simp] theorem State.onVisit_timing' (s : State) (n : Nat) (f : Visit → Visit) (i : BridgeNo) :
    (s.onVisit n f).timing i = s.timing i := rfl
@[simp] theorem State.onVisit_stream' (s : State) (n : Nat) (f : Visit → Visit) (i : StreamNo) :
    (s.onVisit n f).stream i = s.stream i := rfl
@[simp] theorem State.onVisit_deckOf' (s : State) (n : Nat) (f : Visit → Visit) (i : ChannelNo) :
    (s.onVisit n f).deckOf i = s.deckOf i := rfl
@[simp] theorem State.onVisit_channelCal' (s : State) (n : Nat) (f : Visit → Visit) (i : ChannelNo) :
    (s.onVisit n f).channelCal i = s.channelCal i := rfl
@[simp] theorem State.onVisit_bridgeCal' (s : State) (n : Nat) (f : Visit → Visit) (i : BridgeNo) :
    (s.onVisit n f).bridgeCal i = s.bridgeCal i := rfl
@[simp] theorem State.onVisit_timers (s : State) (n : Nat) (f : Visit → Visit) : (s.onVisit n f).timers = s.timers := rfl
@[simp] theorem State.onVisit_period (s : State) (n : Nat) (f : Visit → Visit) : (s.onVisit n f).period = s.period := rfl
@[simp] theorem State.onVisit_failing (s : State) (n : Nat) (f : Visit → Visit) : (s.onVisit n f).failing = s.failing := rfl
@[simp] theorem State.report_channel' (s : State) (r : Report) (i : ChannelNo) :
    (s.report r).channel i = s.channel i := rfl
@[simp] theorem State.report_deck' (s : State) (r : Report) (i : DeckNo) :
    (s.report r).deck i = s.deck i := rfl
@[simp] theorem State.report_bridge' (s : State) (r : Report) (i : BridgeNo) :
    (s.report r).bridge i = s.bridge i := rfl
@[simp] theorem State.report_grant' (s : State) (r : Report) (i : BridgeNo) :
    (s.report r).grant i = s.grant i := rfl
@[simp] theorem State.report_barrier' (s : State) (r : Report) (i : BarrierNo) :
    (s.report r).barrier i = s.barrier i := rfl
@[simp] theorem State.report_loop' (s : State) (r : Report) (i : LoopNo) :
    (s.report r).loop i = s.loop i := rfl
@[simp] theorem State.report_beam' (s : State) (r : Report) (i : BeamNo) :
    (s.report r).beam i = s.beam i := rfl
@[simp] theorem State.report_lane' (s : State) (r : Report) (i : LaneNo) :
    (s.report r).lane i = s.lane i := rfl
@[simp] theorem State.report_slot' (s : State) (r : Report) (i : LaneNo) :
    (s.report r).slot i = s.slot i := rfl
@[simp] theorem State.report_config' (s : State) (r : Report) (i : LaneNo) :
    (s.report r).config i = s.config i := rfl
@[simp] theorem State.report_timing' (s : State) (r : Report) (i : BridgeNo) :
    (s.report r).timing i = s.timing i := rfl
@[simp] theorem State.report_stream' (s : State) (r : Report) (i : StreamNo) :
    (s.report r).stream i = s.stream i := rfl
@[simp] theorem State.report_deckOf' (s : State) (r : Report) (i : ChannelNo) :
    (s.report r).deckOf i = s.deckOf i := rfl
@[simp] theorem State.report_channelCal' (s : State) (r : Report) (i : ChannelNo) :
    (s.report r).channelCal i = s.channelCal i := rfl
@[simp] theorem State.report_bridgeCal' (s : State) (r : Report) (i : BridgeNo) :
    (s.report r).bridgeCal i = s.bridgeCal i := rfl
@[simp] theorem State.report_visitOf' (s : State) (r : Report) (i : Nat) :
    (s.report r).visitOf i = s.visitOf i := rfl
@[simp] theorem State.report_visitOfTag' (s : State) (r : Report) (i : Word) :
    (s.report r).visitOfTag i = s.visitOfTag i := rfl
@[simp] theorem State.report_timers (s : State) (r : Report) : (s.report r).timers = s.timers := rfl
@[simp] theorem State.report_period (s : State) (r : Report) : (s.report r).period = s.period := rfl
@[simp] theorem State.report_failing (s : State) (r : Report) : (s.report r).failing = s.failing := rfl
@[simp] theorem State.seal_channel' (s : State) (i : ChannelNo) :
    (s.seal).channel i = s.channel i := rfl
@[simp] theorem State.seal_deck' (s : State) (i : DeckNo) :
    (s.seal).deck i = s.deck i := rfl
@[simp] theorem State.seal_bridge' (s : State) (i : BridgeNo) :
    (s.seal).bridge i = s.bridge i := rfl
@[simp] theorem State.seal_grant' (s : State) (i : BridgeNo) :
    (s.seal).grant i = s.grant i := rfl
@[simp] theorem State.seal_barrier' (s : State) (i : BarrierNo) :
    (s.seal).barrier i = s.barrier i := rfl
@[simp] theorem State.seal_loop' (s : State) (i : LoopNo) :
    (s.seal).loop i = s.loop i := rfl
@[simp] theorem State.seal_beam' (s : State) (i : BeamNo) :
    (s.seal).beam i = s.beam i := rfl
@[simp] theorem State.seal_lane' (s : State) (i : LaneNo) :
    (s.seal).lane i = s.lane i := rfl
@[simp] theorem State.seal_slot' (s : State) (i : LaneNo) :
    (s.seal).slot i = s.slot i := rfl
@[simp] theorem State.seal_config' (s : State) (i : LaneNo) :
    (s.seal).config i = s.config i := rfl
@[simp] theorem State.seal_timing' (s : State) (i : BridgeNo) :
    (s.seal).timing i = s.timing i := rfl
@[simp] theorem State.seal_stream' (s : State) (i : StreamNo) :
    (s.seal).stream i = s.stream i := rfl
@[simp] theorem State.seal_deckOf' (s : State) (i : ChannelNo) :
    (s.seal).deckOf i = s.deckOf i := rfl
@[simp] theorem State.seal_channelCal' (s : State) (i : ChannelNo) :
    (s.seal).channelCal i = s.channelCal i := rfl
@[simp] theorem State.seal_bridgeCal' (s : State) (i : BridgeNo) :
    (s.seal).bridgeCal i = s.bridgeCal i := rfl
@[simp] theorem State.seal_visitOf' (s : State) (i : Nat) :
    (s.seal).visitOf i = s.visitOf i := rfl
@[simp] theorem State.seal_visitOfTag' (s : State) (i : Word) :
    (s.seal).visitOfTag i = s.visitOfTag i := rfl
@[simp] theorem State.seal_timers (s : State) : (s.seal).timers = s.timers := rfl
@[simp] theorem State.seal_period (s : State) : (s.seal).period = s.period := rfl
@[simp] theorem State.seal_failing (s : State) : (s.seal).failing = s.failing := rfl

/-! ### Reports and the transmitter -/

/-- A queued report leaves everything of the link but the report queue and the reports-lost flag (R192). -/
theorem Link.queueReport_cases (k : Link) (r : Report) :
    (k.reports.length < 32 ∧ k.queueReport r = { k with reports := k.reports ++ [r] }) ∨
      (¬ k.reports.length < 32 ∧ k.queueReport r = { k with reportsLost := true }) := by
  unfold Link.queueReport
  split
  · exact .inl ⟨‹_›, rfl⟩
  · exact .inr ⟨‹_›, rfl⟩

@[simp] theorem Link.queueReport_receiver (k : Link) (r : Report) : (k.queueReport r).receiver = k.receiver := by
  unfold Link.queueReport; split <;> rfl
@[simp] theorem Link.queueReport_queue (k : Link) (r : Report) : (k.queueReport r).queue = k.queue := by
  unfold Link.queueReport; split <;> rfl
@[simp] theorem Link.queueReport_current (k : Link) (r : Report) : (k.queueReport r).current = k.current := by
  unfold Link.queueReport; split <;> rfl
@[simp] theorem Link.queueReport_busy (k : Link) (r : Report) : (k.queueReport r).busy = k.busy := by
  unfold Link.queueReport; split <;> rfl
@[simp] theorem Link.queueReport_busyAhead (k : Link) (r : Report) : (k.queueReport r).busyAhead = k.busyAhead := by
  unfold Link.queueReport; split <;> rfl
@[simp] theorem Link.queueReport_sending (k : Link) (r : Report) : (k.queueReport r).sending = k.sending := by
  unfold Link.queueReport; split <;> rfl
@[simp] theorem Link.queueReport_queries (k : Link) (r : Report) : (k.queueReport r).queries = k.queries := by
  unfold Link.queueReport; split <;> rfl
@[simp] theorem Link.choose_receiver (k : Link) : k.choose.receiver = k.receiver := by
  unfold Link.choose; repeat' split
  all_goals rfl
@[simp] theorem Link.choose_queue (k : Link) : k.choose.queue = k.queue := by
  unfold Link.choose; repeat' split
  all_goals rfl
@[simp] theorem Link.choose_current (k : Link) : k.choose.current = k.current := by
  unfold Link.choose; repeat' split
  all_goals rfl
@[simp] theorem Link.choose_busy (k : Link) : k.choose.busy = k.busy := by
  unfold Link.choose; repeat' split
  all_goals rfl
@[simp] theorem Link.choose_busyAhead (k : Link) : k.choose.busyAhead = k.busyAhead := by
  unfold Link.choose; repeat' split
  all_goals rfl
@[simp] theorem Link.choose_queries (k : Link) : k.choose.queries = k.queries := by
  unfold Link.choose; repeat' split
  all_goals rfl
@[simp] theorem Link.choose_reportsLost (k : Link) : k.choose.reportsLost = k.reportsLost := by
  unfold Link.choose; repeat' split
  all_goals rfl
@[simp] theorem State.transmit_pending (s : State) : s.transmit.pending = s.pending := by
  unfold State.transmit; split <;> rfl
@[simp] theorem State.transmit_powered (s : State) : s.transmit.powered = s.powered := by
  unfold State.transmit; split <;> rfl
@[simp] theorem State.transmit_ret (s : State) : s.transmit.ret = s.ret := by
  unfold State.transmit; split <;> rfl
@[simp] theorem State.transmit_pins (s : State) : s.transmit.pins = s.pins := by
  unfold State.transmit; split <;> rfl
@[simp] theorem State.transmit_channels (s : State) : s.transmit.channels = s.channels := by
  unfold State.transmit; split <;> rfl
@[simp] theorem State.transmit_metrology (s : State) : s.transmit.metrology = s.metrology := by
  unfold State.transmit; split <;> rfl
@[simp] theorem State.transmit_decks (s : State) : s.transmit.decks = s.decks := by
  unfold State.transmit; split <;> rfl
@[simp] theorem State.transmit_bridges (s : State) : s.transmit.bridges = s.bridges := by
  unfold State.transmit; split <;> rfl
@[simp] theorem State.transmit_grants (s : State) : s.transmit.grants = s.grants := by
  unfold State.transmit; split <;> rfl
@[simp] theorem State.transmit_barriers (s : State) : s.transmit.barriers = s.barriers := by
  unfold State.transmit; split <;> rfl
@[simp] theorem State.transmit_loops (s : State) : s.transmit.loops = s.loops := by
  unfold State.transmit; split <;> rfl
@[simp] theorem State.transmit_beams (s : State) : s.transmit.beams = s.beams := by
  unfold State.transmit; split <;> rfl
@[simp] theorem State.transmit_lanes (s : State) : s.transmit.lanes = s.lanes := by
  unfold State.transmit; split <;> rfl
@[simp] theorem State.transmit_adm (s : State) : s.transmit.adm = s.adm := by
  unfold State.transmit; split <;> rfl
@[simp] theorem State.transmit_siteFull (s : State) : s.transmit.siteFull = s.siteFull := by
  unfold State.transmit; split <;> rfl
@[simp] theorem State.transmit_marks (s : State) : s.transmit.marks = s.marks := by
  unfold State.transmit; split <;> rfl
@[simp] theorem State.transmit_powerFail (s : State) : s.transmit.powerFail = s.powerFail := by
  unfold State.transmit; split <;> rfl
@[simp] theorem State.transmit_laneHold (s : State) : s.transmit.laneHold = s.laneHold := by
  unfold State.transmit; split <;> rfl
@[simp] theorem State.transmit_evaluations (s : State) : s.transmit.evaluations = s.evaluations := by
  unfold State.transmit; split <;> rfl
@[simp] theorem State.transmit_channel (s : State) (i : ChannelNo) : s.transmit.channel i = s.channel i := by
  unfold State.transmit; split <;> rfl
@[simp] theorem State.transmit_deck (s : State) (i : DeckNo) : s.transmit.deck i = s.deck i := by
  unfold State.transmit; split <;> rfl
@[simp] theorem State.transmit_bridge (s : State) (i : BridgeNo) : s.transmit.bridge i = s.bridge i := by
  unfold State.transmit; split <;> rfl
@[simp] theorem State.transmit_grant (s : State) (i : BridgeNo) : s.transmit.grant i = s.grant i := by
  unfold State.transmit; split <;> rfl
@[simp] theorem State.transmit_barrier (s : State) (i : BarrierNo) : s.transmit.barrier i = s.barrier i := by
  unfold State.transmit; split <;> rfl
@[simp] theorem State.transmit_loop (s : State) (i : LoopNo) : s.transmit.loop i = s.loop i := by
  unfold State.transmit; split <;> rfl
@[simp] theorem State.transmit_beam (s : State) (i : BeamNo) : s.transmit.beam i = s.beam i := by
  unfold State.transmit; split <;> rfl
@[simp] theorem State.transmit_lane (s : State) (i : LaneNo) : s.transmit.lane i = s.lane i := by
  unfold State.transmit; split <;> rfl
@[simp] theorem State.transmit_slot (s : State) (i : LaneNo) : s.transmit.slot i = s.slot i := by
  unfold State.transmit; split <;> rfl
@[simp] theorem State.transmit_config (s : State) (i : LaneNo) : s.transmit.config i = s.config i := by
  unfold State.transmit; split <;> rfl
@[simp] theorem State.transmit_timing (s : State) (i : BridgeNo) : s.transmit.timing i = s.timing i := by
  unfold State.transmit; split <;> rfl
@[simp] theorem State.transmit_stream (s : State) (i : StreamNo) : s.transmit.stream i = s.stream i := by
  unfold State.transmit; split <;> rfl
@[simp] theorem State.transmit_deckOf (s : State) (i : ChannelNo) : s.transmit.deckOf i = s.deckOf i := by
  unfold State.transmit; split <;> rfl
@[simp] theorem State.transmit_channelCal (s : State) (i : ChannelNo) : s.transmit.channelCal i = s.channelCal i := by
  unfold State.transmit; split <;> rfl
@[simp] theorem State.transmit_bridgeCal (s : State) (i : BridgeNo) : s.transmit.bridgeCal i = s.bridgeCal i := by
  unfold State.transmit; split <;> rfl
@[simp] theorem State.transmit_visitOf (s : State) (i : Nat) : s.transmit.visitOf i = s.visitOf i := by
  unfold State.transmit; split <;> rfl
@[simp] theorem State.transmit_visitOfTag (s : State) (i : Word) : s.transmit.visitOfTag i = s.visitOfTag i := by
  unfold State.transmit; split <;> rfl

/-- The transmitter changes nothing of the link but the frame being sent and the report queue (R191). -/
theorem State.transmit_link_queue (s : State) : s.transmit.link.queue = s.link.queue := by
  unfold State.transmit; split <;> simp
theorem State.transmit_link_current (s : State) : s.transmit.link.current = s.link.current := by
  unfold State.transmit; split <;> simp
theorem State.transmit_link_busy (s : State) : s.transmit.link.busy = s.link.busy := by
  unfold State.transmit; split <;> simp
theorem State.transmit_link_queries (s : State) : s.transmit.link.queries = s.link.queries := by
  unfold State.transmit; split <;> simp
theorem State.transmit_link_reportsLost (s : State) : s.transmit.link.reportsLost = s.link.reportsLost := by
  unfold State.transmit; split <;> simp

end Sys2Proof.Machine
end

