-- ==== Sys2Proof/Laws/Link.lean ====
section
/-! SUPPORT. What the end of an event and the arrival of a request do, said once, and the small laws of the terms that
statements use: SameBut, voiced, Ready. -/

namespace Sys2Proof.Machine

/-! ### The reports not yet sent -/

theorem Link.choose_cases (k : Link) :
    (k.choose.reports = k.reports ∧ ∀ r, k.choose.sending ≠ some (.report r)) ∨
      ∃ r, k.reports = r :: k.choose.reports ∧ k.choose.sending = some (.report r) := by
  unfold Link.choose
  repeat' split
  all_goals simp_all

@[simp] theorem State.transmit_voiced (s : State) : s.transmit.voiced = s.voiced := by
  unfold State.transmit
  split
  · next h =>
    have h' : s.link.sending = none := by simpa using h
    rcases Link.choose_cases s.link with ⟨h1, h2⟩ | ⟨r, h1, h2⟩
    · unfold State.voiced
      simp only [State.onLink_link, h']
      rw [h1]
    · unfold State.voiced
      simp only [State.onLink_link, h', h2, h1]
      rfl
  · rfl

/-- A report is voiced after those that wait, while the report queue has room (R192). -/
theorem State.report_voiced (s : State) (r : Report) (h : s.link.reports.length < 32) :
    (s.report r).voiced = s.voiced ++ [r] := by
  unfold State.voiced State.report
  simp [Link.queueReport, h]

/-- With room, a report leaves the reports-lost flag alone (R192). -/
theorem State.report_lost (s : State) (r : Report) (h : s.link.reports.length < 32) :
    (s.report r).link.reportsLost = s.link.reportsLost := by
  unfold State.report
  simp [Link.queueReport, h]

/-! ### The link unit at the end of an event -/

theorem Link.choose_kept (k : Link) :
    k.choose.receiver = k.receiver ∧ k.choose.queue = k.queue ∧ k.choose.current = k.current ∧ k.choose.busy = k.busy ∧
      k.choose.busyAhead = k.busyAhead ∧ k.choose.queries = k.queries ∧ k.choose.reportsLost = k.reportsLost := by
  unfold Link.choose
  repeat' split
  all_goals simp

theorem State.transmit_kept (s : State) :
    s.transmit.link.receiver = s.link.receiver ∧ s.transmit.link.queue = s.link.queue ∧
      s.transmit.link.current = s.link.current ∧ s.transmit.link.busy = s.link.busy ∧
      s.transmit.link.busyAhead = s.link.busyAhead ∧ s.transmit.link.queries = s.link.queries ∧
      s.transmit.link.reportsLost = s.link.reportsLost := by
  unfold State.transmit
  split
  · exact Link.choose_kept s.link
  · simp

/-- The end of an event changes none of the parts. -/
theorem State.transmit_same (s : State) (p : Part) : p.same s s.transmit := by
  have h := s.transmit_kept
  cases p <;> simp [Part.same, h]

/-- A part that an event left alone is still alone at the event's end. -/
theorem Part.same_transmit {s t : State} {p : Part} (h : p.same s t) : p.same s t.transmit := by
  have k := t.transmit_same p
  cases p <;> simp_all [Part.same]

theorem SameBut.transmit {ps : List Part} {s t : State} (h : SameBut ps s t) : SameBut ps s t.transmit :=
  fun p hp => Part.same_transmit (h p hp)

theorem SameBut.refl (s : State) (ps : List Part) : SameBut ps s s := by
  intro p _
  cases p <;> simp [Part.same]

theorem Part.same_trans {s t u : State} {p : Part} (h : p.same s t) (k : p.same t u) : p.same s u := by
  cases p <;> simp_all [Part.same]

theorem SameBut.trans {ps qs : List Part} {s t u : State} (h : SameBut ps s t) (k : SameBut qs t u) :
    SameBut (ps ++ qs) s u :=
  fun p hp => Part.same_trans (h p (fun m => hp (by simp [m]))) (k p (fun m => hp (by simp [m])))

theorem SameBut.mono {ps qs : List Part} {s t : State} (h : SameBut ps s t) (hs : ∀ p, p ∈ ps → p ∈ qs) :
    SameBut qs s t :=
  fun p hp => h p (fun m => hp (hs p m))

@[simp] theorem State.transmit_linkFlags (s : State) : s.transmit.linkFlags = s.linkFlags := by
  have h := s.transmit_kept
  simp [State.linkFlags, State.failing, h]

/-- The first query of the lanes in order is that of the lowest lane that has one. -/
theorem Link.firstQuery {k : Link} {l : LaneNo} {q : QueryFrame} (h : k.queries.read l = some q)
    (low : ∀ m : LaneNo, m < l → k.queries.read m = none) : allFour.findSome? (fun m => k.queries.read m) = some q := by
  have e : allFour = [0, 1, 2, 3] := rfl
  rw [e]
  match l, h, low with
  | 0, h, _ => simp [h]
  | 1, h, low => simp [h, low 0 (by decide)]
  | 2, h, low => simp [h, low 0 (by decide), low 1 (by decide)]
  | 3, h, low => simp [h, low 0 (by decide), low 1 (by decide), low 2 (by decide)]

/-- An idle transmitter that chooses sends the frame that R191 names, and stays idle only where no frame waits. -/
theorem State.transmit_chose (s : State) (h : s.link.sending = none) : s.transmit.Chose := by
  have e : s.transmit.link = s.link.choose := by simp [State.transmit, h]
  have v : s.transmit.voiced = s.link.reports := by rw [State.transmit_voiced]; simp [State.voiced, h]
  have k := Link.choose_kept s.link
  constructor
  all_goals rw [e]; try rw [v]
  all_goals simp only [k]
  · intro r hr hb
    unfold Link.choose
    rcases hb with hb | hb
    · simp [hr, hb]
    · cases c : s.link.busy <;> simp [hr, hb]
  · intro r q rest hr hb ha
    simp [Link.choose, hr, hb, ha]
  · intro q rest hr hb
    simp [Link.choose, hr, hb]
  · intro hr hb l q hq low
    simp [Link.choose, hr, hb, Link.firstQuery hq low]
  · intro hr hb hq r rest hv
    simp [Link.choose, hr, hb, hq, hv, allFour]
  · intro hr hb hq hv
    simp [Link.choose, hr, hb, hq, hv, allFour]

/-- A transmitter that is sending is left alone at the end of an event. -/
theorem State.transmit_busy (s : State) (h : s.link.sending ≠ none) : s.transmit = s := by
  unfold State.transmit
  cases k : s.link.sending <;> simp_all

/-! ### The arrival of a request -/

/-- The receiver goes back to hunting: the state in which the owning block takes a request that has just arrived. -/
def State.hunting (s : State) : State := s.onLink (fun k => { k with receiver := .hunting })

@[simp] theorem State.setReply_linkFlags (s : State) (r : Reply) : (s.setReply r).linkFlags = s.linkFlags := rfl
@[simp] theorem State.setReply_voiced (s : State) (r : Reply) : (s.setReply r).voiced = s.voiced := rfl
@[simp] theorem State.hunting_linkFlags (s : State) : s.hunting.linkFlags = s.linkFlags := rfl
@[simp] theorem State.hunting_voiced (s : State) : s.hunting.voiced = s.voiced := rfl

/-- A request that arrives at a ready link unit is taken there and then (R188). -/
theorem State.receive_ready {s : State} (h : s.Ready) (r : Request) :
    s.receive r = .next
      (((act r s.hunting).state.setReply
        (replyTo (requestKind r) (act r s.hunting).status (flagsFor r s.hunting (act r s.hunting).state)
          (act r s.hunting).body)).transmit) := by
  obtain ⟨hp, hc, hq⟩ := h
  have e : ((s.hunting.onLink (fun k => { k with queue := k.queue ++ [LinkFrame.request r] })).onLink
      (fun k => { k with queue := [] })) = s.hunting := by
    unfold State.hunting State.onLink
    simp [hq]
  unfold State.receive State.run State.frameArrives State.queueFrame
  simp only [hp, if_true]
  have hl : s.hunting.link.queue.length < 4 := by simp [State.hunting, hq]
  have hn : ((s.hunting.onLink (fun k => { k with queue := k.queue ++ [LinkFrame.request r] })).takeNext) =
      s.hunting.takeFrame (.request r) := by
    unfold State.takeNext
    have h1 : (s.hunting.onLink (fun k => { k with queue := k.queue ++ [LinkFrame.request r] })).link.current = none := by
      simpa [State.hunting] using hc
    have h2 : (s.hunting.onLink (fun k => { k with queue := k.queue ++ [LinkFrame.request r] })).link.queue =
        [LinkFrame.request r] := by
      simp [State.hunting, hq]
    rw [h1, h2]
    simp [e]
  change Host.Outcome.next (State.transmit (if s.hunting.link.queue.length < 4 then _ else _)) = _
  rw [if_pos hl]
  exact congrArg (fun x => Host.Outcome.next (State.transmit x)) hn

/-- What the taking of a request comes to: its block's state with the reply set, at the end of the event. -/
theorem State.receive_taken {s : State} (h : s.Ready) {r : Request} (hr : r ≠ .statusRead) {u : State} {st : Status}
    {body : ReplyBody} (ha : act r s.hunting = { state := u, status := st, body := body }) :
    ∃ t, s.receive r = .next t ∧ t.Answers (requestKind r) st body ∧
      t = (u.setReply (replyTo (requestKind r) st u.linkFlags body)).transmit := by
  have hf : flagsFor r s.hunting u = u.linkFlags := by
    cases r <;> first | rfl | exact absurd rfl hr
  refine ⟨_, State.receive_ready h r, ?_, ?_⟩
  · unfold State.Answers
    rw [(State.transmit_kept _).2.2.1, State.transmit_linkFlags]
    simp [State.setReply, ha, hf]
    rfl
  · simp [ha, hf]

/-- Setting the reply changes the reply alone. -/
theorem State.setReply_same (u : State) (r : Reply) : SameBut [.reply] u (u.setReply r) := by
  intro p hp
  cases p <;> first | rfl | exact ⟨rfl, rfl⟩ | exact ⟨rfl, rfl, rfl, rfl⟩ | (exfalso; simp at hp)

/-- The receiver's return to hunting changes the receiver alone. -/
theorem State.hunting_same (s : State) : SameBut [.receiver] s s.hunting := by
  intro p hp
  cases p <;> first | rfl | exact ⟨rfl, rfl⟩ | exact ⟨rfl, rfl, rfl, rfl⟩ | (exfalso; simp at hp)

/-- The frame of a request: what its block changed, the receiver and the reply. -/
theorem State.taken_same {s u : State} {ps : List Part} (h : SameBut ps s.hunting u) (r : Reply) :
    SameBut ([.receiver, .reply] ++ ps) s (u.setReply r).transmit := by
  refine ((s.hunting_same.trans h).trans (u.setReply_same r)).transmit.mono ?_
  intro p hp
  simp at hp ⊢
  tauto

/-- A refused request answers its status and changes nothing but the link unit's receiver and reply (R189). -/
theorem State.receive_turned {s : State} (h : s.Ready) {r : Request} (hr : r ≠ .statusRead) {st : Status}
    (ha : act r s.hunting = s.hunting.refused st) :
    ∃ t, s.receive r = .next t ∧ Turned s t (requestKind r) st := by
  obtain ⟨t, h1, h2, h3⟩ := State.receive_taken h hr ha
  refine ⟨t, h1, h2, ?_⟩
  rw [h3]
  exact State.taken_same (SameBut.refl _ []) _

end Sys2Proof.Machine
end

