-- ==== Sys2Proof/Laws/Records.lean ====
section
/-! SUPPORT. The records of the admission unit and of the tare store stay distinct: one lemma for each function that
changes the permit cache, the refusal records or the tare records. -/

namespace Sys2Proof.Machine

/-- A search for the first unit that meets a test finds one that meets it. -/
theorem find_finRange_some {n : Nat} {f : Fin n → Bool} {i : Fin n} (h : (List.finRange n).find? f = some i) : f i = true :=
  List.find?_some h

theorem find_finRange_none {n : Nat} {f : Fin n → Bool} (h : (List.finRange n).find? f = none) (i : Fin n) : f i = false := by
  have := List.find?_eq_none.mp h i (List.mem_finRange i)
  simpa using this

theorem mem_allEight (i : Fin 8) : i ∈ allEight := by fin_cases i <;> decide

/-! ### The permit cache (R114) -/

/-- An admission unit with the same entries and the same refusal records is sound with it. -/
theorem Admission.Sound.same {a b : Admission} (h : a.Sound) (hc : b.cache = a.cache) (hr : b.records = a.records) :
    b.Sound := by
  refine ⟨?_, ?_, by rw [hr]; exact h.records⟩
  · unfold Admission.permit; rw [hc]; exact h.entries
  · unfold Admission.permit; rw [hc]; exact h.accounts

/-- The entries changed one by one, each keeping prefix, length and account, and alike within an account. -/
theorem Admission.Sound.mapped {a b : Admission} (h : a.Sound) (f : Permit → Permit) (hr : b.records = a.records)
    (hb : ∀ i, b.permit i = (a.permit i).map f)
    (hk : ∀ p, (f p).pfx = p.pfx ∧ (f p).length = p.length ∧ (f p).account = p.account)
    (hs : ∀ p q : Permit, p.account = q.account → p.credit = q.credit → p.stopped = q.stopped →
      (f p).credit = (f q).credit ∧ (f p).stopped = (f q).stopped) : b.Sound := by
  refine ⟨?_, ?_, by rw [hr]; exact h.records⟩
  · intro i j p q hi hj e1 e2
    rw [hb, Option.map_eq_some_iff] at hi hj
    obtain ⟨p', hi, rfl⟩ := hi
    obtain ⟨q', hj, rfl⟩ := hj
    exact h.entries i j p' q' hi hj (by simpa [hk] using e1) (by simpa [hk] using e2)
  · intro i j p q hi hj e
    rw [hb, Option.map_eq_some_iff] at hi hj
    obtain ⟨p', hi, rfl⟩ := hi
    obtain ⟨q', hj, rfl⟩ := hj
    have e' : p'.account = q'.account := by simpa [hk] using e
    exact hs p' q' e' (h.accounts i j p' q' hi hj e').1 (h.accounts i j p' q' hi hj e').2

/-- A change of the entries of one account that gives each the same credit and STOPPED flag. -/
theorem Admission.Sound.onAccount {a : Admission} (h : a.Sound) (n : Nat) (f : Permit → Permit)
    (hk : ∀ p, (f p).pfx = p.pfx ∧ (f p).length = p.length ∧ (f p).account = p.account)
    (hs : ∀ p q : Permit, p.credit = q.credit → p.stopped = q.stopped →
      (f p).credit = (f q).credit ∧ (f p).stopped = (f q).stopped) : (a.onAccount n f).Sound := by
  refine h.mapped (fun p => if p.account = n then f p else p) rfl (fun i => by simp [Admission.onAccount, Admission.permit])
    (fun p => ?_) (fun p q e c s => ?_)
  · by_cases hp : p.account = n <;> simp [hp, hk]
  · by_cases hp : p.account = n
    · simp [hp, ← e, hs p q c s]
    · simp [hp, ← e, c, s]

theorem Admission.Sound.deduct {a : Admission} (h : a.Sound) (n c : Nat) : (a.deduct n c).Sound :=
  h.onAccount n _ (fun _ => ⟨rfl, rfl, rfl⟩) (fun p q e s => by simp [e, s])

theorem Admission.Sound.setStanding {a : Admission} (h : a.Sound) (n : Nat) (c : Int) (x : Bool) :
    (a.setStanding n c x).Sound :=
  h.onAccount n _ (fun _ => ⟨rfl, rfl, rfl⟩) (fun _ _ _ _ => ⟨rfl, rfl⟩)

theorem Admission.Sound.aged {a : Admission} (h : a.Sound) (n : Nat) : (a.aged n).Sound :=
  h.mapped Permit.aged rfl (fun i => by simp [Admission.aged, Admission.permit]) (fun _ => ⟨rfl, rfl, rfl⟩)
    (fun _ _ _ c s => ⟨c, s⟩)

theorem Admission.touched_permit (a : Admission) (i j : Fin 48) :
    (a.touched i).permit j = if i = j then (a.permit i).map (fun p => { p with bucket := 3 }) else a.permit j := by
  simp [Admission.touched, Admission.permit, Table.read_write]

theorem Admission.Sound.touched {a : Admission} (h : a.Sound) (i : Fin 48) : (a.touched i).Sound := by
  have hx : ∀ j p, (a.touched i).permit j = some p → ∃ q, a.permit j = some q ∧ q.pfx = p.pfx ∧ q.length = p.length ∧
      q.account = p.account ∧ q.credit = p.credit ∧ q.stopped = p.stopped := by
    intro j p hj
    rw [Admission.touched_permit] at hj
    split at hj
    · next e =>
      subst e
      rw [Option.map_eq_some_iff] at hj
      obtain ⟨q, hq, rfl⟩ := hj
      exact ⟨q, hq, rfl, rfl, rfl, rfl, rfl⟩
    · exact ⟨p, hj, rfl, rfl, rfl, rfl, rfl⟩
  refine ⟨?_, ?_, h.records⟩
  · intro j k p q hj hk e1 e2
    obtain ⟨p', hp, h1, h2, _⟩ := hx j p hj
    obtain ⟨q', hq, k1, k2, _⟩ := hx k q hk
    exact h.entries j k p' q' hp hq (by rw [h1, k1, e1]) (by rw [h2, k2, e2])
  · intro j k p q hj hk e
    obtain ⟨p', hp, _, _, h3, h4, h5⟩ := hx j p hj
    obtain ⟨q', hq, _, _, k3, k4, k5⟩ := hx k q hk
    have := h.accounts j k p' q' hp hq (by rw [h3, k3, e])
    exact ⟨by rw [← h4, ← k4, this.1], by rw [← h5, ← k5, this.2]⟩

theorem Admission.Sound.removeWhere {a : Admission} (h : a.Sound) (t : Permit → Bool) : (a.removeWhere t).Sound := by
  have hx : ∀ j p, (a.removeWhere t).permit j = some p → a.permit j = some p := by
    intro j p hj
    simp only [Admission.removeWhere, Admission.permit, Table.read_each] at hj
    exact (Option.filter_eq_some_iff.mp hj).1
  exact ⟨fun i j p q hi hj => h.entries i j p q (hx i p hi) (hx j q hj),
    fun i j p q hi hj => h.accounts i j p q (hx i p hi) (hx j q hj), h.records⟩

/-- The slot an installation uses is the only one that may hold the permit's prefix and length (R122). -/
theorem Admission.Sound.slotFor {a : Admission} (h : a.Sound) (p q : Permit) (i : Fin 48) (hi : a.permit i = some q)
    (e1 : q.pfx = p.pfx) (e2 : q.length = p.length) : i = a.slotFor p := by
  unfold Admission.slotFor
  split
  · next j hj =>
    have := find_finRange_some hj
    simp only [Option.any_eq_true_iff_get] at this
    obtain ⟨hs, ht⟩ := this
    simp only [Bool.and_eq_true, beq_iff_eq] at ht
    exact h.entries i j q _ hi (Option.eq_some_of_isSome hs) (by rw [e1, ht.1]) (by rw [e2, ht.2])
  · next hn =>
    have := find_finRange_none hn i
    simp [hi, e1, e2] at this

/-- A permit written into its slot, its standing copied across its account. -/
theorem Admission.Sound.written {a : Admission} (h : a.Sound) (q : Permit) :
    (({ a with cache := a.cache.write (a.slotFor q) (some q) } : Admission).setStanding q.account q.credit
      q.stopped).Sound := by
  have hp : ∀ j, ({ a with cache := a.cache.write (a.slotFor q) (some q) } : Admission).permit j =
      if a.slotFor q = j then some q else a.permit j := fun j => by
    simp [Admission.permit, Table.read_write]
  have hc : ∀ j, (({ a with cache := a.cache.write (a.slotFor q) (some q) } : Admission).setStanding q.account q.credit
      q.stopped).permit j = (if a.slotFor q = j then some q else a.permit j).map (fun r =>
        if r.account = q.account then { r with credit := q.credit, stopped := q.stopped } else r) := fun j => by
    rw [← hp]
    simp [Admission.setStanding, Admission.onAccount, Admission.permit]
  refine ⟨?_, ?_, h.records⟩
  · intro i j x y hi hj e1 e2
    have hx : ∀ i x, (({ a with cache := a.cache.write (a.slotFor q) (some q) } : Admission).setStanding q.account q.credit
        q.stopped).permit i = some x → (i = a.slotFor q ∧ x.pfx = q.pfx ∧ x.length = q.length) ∨
          ∃ r, a.permit i = some r ∧ x.pfx = r.pfx ∧ x.length = r.length := by
      intro i x hi
      rw [hc, Option.map_eq_some_iff] at hi
      obtain ⟨r, hr, rfl⟩ := hi
      split at hr
      · next e => injection hr with hr; subst hr; exact .inl ⟨e.symm, by simp, by simp⟩
      · exact .inr ⟨r, hr, by split <;> rfl, by split <;> rfl⟩
    rcases hx i x hi with ⟨h1, h2, h3⟩ | ⟨r, h1, h2, h3⟩ <;> rcases hx j y hj with ⟨k1, k2, k3⟩ | ⟨u, k1, k2, k3⟩
    · rw [h1, k1]
    · rw [h1]; exact (h.slotFor q u j k1 (by rw [← k2, ← e1, h2]) (by rw [← k3, ← e2, h3])).symm
    · rw [k1]; exact h.slotFor q r i h1 (by rw [← h2, e1, k2]) (by rw [← h3, e2, k3])
    · exact h.entries i j r u h1 k1 (by rw [← h2, e1, k2]) (by rw [← h3, e2, k3])
  · intro i j x y hi hj e
    have hx : ∀ i x, (({ a with cache := a.cache.write (a.slotFor q) (some q) } : Admission).setStanding q.account q.credit
        q.stopped).permit i = some x → (x.account = q.account ∧ x.credit = q.credit ∧ x.stopped = q.stopped) ∨
          (x.account ≠ q.account ∧ a.permit i = some x) := by
      intro i x hi
      rw [hc, Option.map_eq_some_iff] at hi
      obtain ⟨r, hr, rfl⟩ := hi
      by_cases hq : r.account = q.account
      · exact .inl (by simp [hq])
      · refine .inr ⟨by simp [hq], ?_⟩
        split at hr
        · injection hr with hr; subst hr; exact absurd rfl hq
        · simpa [hq] using hr
    rcases hx i x hi with ⟨h1, h2, h3⟩ | ⟨h1, h2⟩ <;> rcases hx j y hj with ⟨k1, k2, k3⟩ | ⟨k1, k2⟩
    · exact ⟨by rw [h2, k2], by rw [h3, k3]⟩
    · exact absurd (e ▸ h1) k1
    · exact absurd (e ▸ k1) h1
    · exact h.accounts i j x y h2 k2 e

theorem Admission.Sound.install {a : Admission} (h : a.Sound) (p : Permit) : (a.install p).Sound := h.written _

/-! ### Refusal records (R126) -/

/-- A record rewritten with its own tag. -/
theorem Admission.Sound.rewritten {a : Admission} (h : a.Sound) (i : Fin 8) (f : RefusalRecord → RefusalRecord)
    (hf : ∀ r, (f r).tag = r.tag) : Admission.Sound { a with records := a.records.write i ((a.records.read i).map f) } := by
  refine ⟨h.entries, h.accounts, ?_⟩
  have hx : ∀ j r, (a.records.write i ((a.records.read i).map f)).read j = some r →
      ∃ u, a.records.read j = some u ∧ u.tag = r.tag := by
    intro j r hj
    simp only [Table.read_write] at hj
    split at hj
    · next e =>
      subst e
      rw [Option.map_eq_some_iff] at hj
      obtain ⟨u, hu, rfl⟩ := hj
      exact ⟨u, hu, (hf u).symm⟩
    · exact ⟨r, hj, rfl⟩
  intro j k r u hj hk e
  obtain ⟨r', hr, e1⟩ := hx j r hj
  obtain ⟨u', hu, e2⟩ := hx k u hk
  exact h.records j k r' u' hr hu (by rw [e1, e2, e])

theorem Admission.recordOf_none {a : Admission} {tag : Word} (h : a.recordOf tag = none) (i : Fin 8) (r : RefusalRecord)
    (hr : a.records.read i = some r) : r.tag ≠ tag := by
  have := List.find?_eq_none.mp h i (mem_allEight i)
  simpa [hr] using this

/-- A record written for a tag that no record holds. -/
theorem Admission.Sound.recorded {a : Admission} (h : a.Sound) (i : Fin 8) (x : RefusalRecord)
    (hx : a.recordOf x.tag = none) : Admission.Sound { a with records := a.records.write i (some x) } := by
  refine ⟨h.entries, h.accounts, ?_⟩
  intro j k r u hj hk e
  simp only [Table.read_write] at hj hk
  split at hj <;> split at hk
  · next e1 e2 => rw [← e1, ← e2]
  · injection hj with hj
    exact absurd (by rw [hj, e]) (Admission.recordOf_none hx k u hk)
  · injection hk with hk
    exact absurd (by rw [hk, e]) (Admission.recordOf_none hx j r hj)
  · exact h.records j k r u hj hk e

theorem Admission.Sound.freed {a : Admission} (h : a.Sound) (i : Fin 8) :
    Admission.Sound { a with records := a.records.write i none } := by
  refine ⟨h.entries, h.accounts, ?_⟩
  intro j k r u hj hk e
  simp only [Table.read_write] at hj hk
  split at hj
  · simp at hj
  · split at hk
    · simp at hk
    · exact h.records j k r u hj hk e

theorem Admission.Sound.freeRecords {a : Admission} (h : a.Sound) (set : Byte) : (a.freeRecords set).Sound := by
  unfold Admission.freeRecords
  generalize allEight = xs
  induction xs generalizing a with
  | nil => exact h
  | cons x xs ih =>
    simp only [forEach, List.foldl]
    refine ih ?_
    split
    · exact h.freed x
    · exact h

/-- The admission unit after a reset or a loss of power is sound (R131). -/
theorem Retained.admissionAtRelease_sound (r : Retained) : r.admissionAtRelease.Sound := by
  refine ⟨?_, ?_, ?_⟩ <;> intro i j p q hi <;> simp [Retained.admissionAtRelease, Admission.permit] at hi

/-! ### The tare store (R157) -/

theorem State.tareRecordOf_none {s : State} {tag : Word} (h : s.tareRecordOf tag = none) (i : Fin 128) (t : Tare)
    (ht : s.ret.tares.read i = some t) : t.tag ≠ tag := by
  have := find_finRange_none h i
  simpa [ht] using this

theorem State.tareRecordOf_some {s : State} {tag : Word} {i : Fin 128} (h : s.tareRecordOf tag = some i) :
    ∃ t, s.ret.tares.read i = some t ∧ t.tag = tag := by
  have := find_finRange_some h
  cases ht : s.ret.tares.read i with
  | none => simp [ht] at this
  | some t => exact ⟨t, rfl, by simpa [ht] using this⟩

/-- A placement keeps one record for each tag (R158). -/
theorem TaresDistinct.placed {s : State} (h : TaresDistinct s.ret.tares) (t : Tare) :
    TaresDistinct (s.ret.tares.write (s.tareSlotFor t.tag) (some t)) := by
  have hs : ∀ j x, s.ret.tares.read j = some x → x.tag = t.tag → j = s.tareSlotFor t.tag := by
    intro j x hj e
    unfold State.tareSlotFor
    split
    · next i hi =>
      obtain ⟨y, hy, ey⟩ := State.tareRecordOf_some hi
      exact h j i x y hj hy (by rw [e, ey])
    · next hn => exact absurd e (State.tareRecordOf_none hn j x hj)
  intro i j x y hi hj e
  simp only [Table.read_write] at hi hj
  split at hi <;> split at hj
  · next e1 e2 => rw [← e1, ← e2]
  · next e1 _ => injection hi with hi; rw [← e1]; exact (hs j y hj (by rw [hi, e])).symm
  · next _ e2 => injection hj with hj; rw [← e2]; exact hs i x hi (by rw [e, hj])
  · exact h i j x y hi hj e

theorem TaresDistinct.freed {t : Table 128 (Option Tare)} (h : TaresDistinct t) (i : Fin 128) :
    TaresDistinct (t.write i none) := by
  intro j k x y hj hk e
  simp only [Table.read_write] at hj hk
  split at hj
  · simp at hj
  · split at hk
    · simp at hk
    · exact h j k x y hj hk e

theorem TaresDistinct.lost : TaresDistinct Retained.lost.tares := by
  intro i j x y hi
  simp [Retained.lost, Retained.sealed] at hi

end Sys2Proof.Machine
end

