-- ==== Sys2Proof/Laws/Moves.lean ====
section
/-! SUPPORT. What the rules of the yard can do to a state, said once: every shared operation of lanes, grants, visits,
tickets, captures and evaluations is a sequence of the few changes of `Move`. An invariant is kept by all of them when
each change keeps it. -/

namespace Sys2Proof.Machine

/-- The signal of a lane is that of its state (R77). -/
def Lane.signalOk (n : Lane) : Prop := n.signal = signalFor n.state n.entered

/-- The lower drive is off while the loop is OCCUPIED (R62). -/
def Barrier.lowerOk (x : Barrier) : Prop := x.occupied = true → x.lowerDrive = false

/-- What a rule may make of a bridge: the working zero stays or lies in its range (R26), the backlog stays within 15
(R27), and no capture starts under power fail (R43). -/
def State.LegalBridge (s : State) (b : BridgeNo) (y : Bridge) : Prop :=
  (y.zb = (s.bridge b).zb ∨ (s.bridgeCal b).zeroInRange y.zb = true) ∧ ((s.bridge b).backlog ≤ 15 → y.backlog ≤ 15) ∧
    (y.capture.isSome = true → (s.bridge b).capture.isSome = true ∨ s.failing = false)

/-- One change that a rule of the yard makes. -/
inductive Move : State → State → Prop
  | lane (s : State) (l : LaneNo) (f : Lane → Lane) (h : (s.lane l).signalOk → (f (s.lane l)).signalOk) :
      Move s (s.onLane l f)
  | grant (s : State) (b : BridgeNo) (f : Grant → Grant) : Move s (s.onGrant b f)
  | barrier (s : State) (b : BarrierNo) (f : Barrier → Barrier) (h : ∀ x, x.lowerOk → (f x).lowerOk) :
      Move s (s.onBarrier b f)
  | adm (s : State) (f : Admission → Admission) (h : s.adm.Sound → (f s.adm).Sound) : Move s (s.onAdm f)
  | siteFull (s : State) (xs : List LaneNo) : Move s { s with siteFull := xs }
  | marks (s : State) (m : JournalMarks) : Move s { s with marks := m }
  | report (s : State) (r : Report) : Move s (s.report r)
  | query (s : State) (q : Table 4 (Option QueryFrame)) : Move s (s.onLink (fun k => { k with queries := q }))
  | deck (s : State) (d : DeckNo) (f : Deck → Deck) : Move s (s.onDeck d f)
  | bridge (s : State) (b : BridgeNo) (f : Bridge → Bridge) (h : s.LegalBridge b (f (s.bridge b))) :
      Move s (s.onBridge b f)
  | visits (s : State) (f : VisitStore → VisitStore)
      (h : s.ret.visits.Sound → (f s.ret.visits).Sound) : Move s (s.onVisits f)
  | journal (s : State) (f : JournalStore → JournalStore)
      (h : s.ret.journal.Sound → (f s.ret.journal).Sound) : Move s (s.onJournal f)
  | tares (s : State) (t : Table 128 (Option Tare)) (h : TaresDistinct s.ret.tares → TaresDistinct t) :
      Move s (s.onRet (fun r => { r with tares := t }))
  | evaluations (s : State) (n : Nat) : Move s { s with evaluations := n }
  | seal (s : State) : Move s s.seal

/-- A sequence of changes. -/
inductive Moves : State → State → Prop
  | refl (s : State) : Moves s s
  | step {s t u : State} : Moves s t → Move t u → Moves s u

theorem Moves.one {s t : State} (h : Move s t) : Moves s t := .step (.refl s) h

theorem Moves.trans {s t u : State} (h : Moves s t) (k : Moves t u) : Moves s u := by
  induction k with
  | refl => exact h
  | step _ m ih => exact .step ih m

/-- A property that each change keeps is kept by every sequence of them. -/
theorem Moves.keep {P : State → Prop} (hP : ∀ {s t}, Move s t → P s → P t) {s t : State} (h : Moves s t) (hs : P s) :
    P t := by
  induction h with
  | refl => exact hs
  | step _ m ih => exact hP m ih

/-- Changes made under a condition. -/
theorem Moves.ite {c : Prop} [Decidable c] {s t u : State} (h : Moves s t) (k : Moves s u) :
    Moves s (if c then t else u) := by
  split
  · exact h
  · exact k

/-- A loop over units of a function that makes changes. -/
theorem Moves.forEach {α : Type} {f : α → State → State} (h : ∀ x s, Moves s (f x s)) (xs : List α) (s : State) :
    Moves s (forEach xs f s) := by
  induction xs generalizing s with
  | nil => exact .refl s
  | cons x xs ih => exact (h x s).trans (ih (f x s))

/-! ### The frame of every change -/

/-- What no rule of the yard changes: lines, samples, loops, beams, settings, calibration, clock, the link's queues. -/
structure Kept (s t : State) : Prop where
  pending     : t.pending = s.pending
  powered     : t.powered = s.powered
  pins        : t.pins = s.pins
  channels    : t.channels = s.channels
  metrology   : t.metrology = s.metrology
  loops       : t.loops = s.loops
  beams       : t.beams = s.beams
  powerFail   : t.powerFail = s.powerFail
  laneHold    : t.laneHold = s.laneHold
  site        : t.ret.site = s.ret.site
  cal         : t.ret.cal = s.ret.cal
  calCounter  : t.ret.calCounter = s.ret.calCounter
  clock       : t.ret.clock = s.ret.clock
  clockUnset  : t.ret.clockUnset = s.ret.clockUnset
  receiver    : t.link.receiver = s.link.receiver
  queue       : t.link.queue = s.link.queue
  current     : t.link.current = s.link.current
  busy        : t.link.busy = s.link.busy
  busyAhead   : t.link.busyAhead = s.link.busyAhead
  sending     : t.link.sending = s.link.sending

theorem Kept.refl (s : State) : Kept s s := by constructor <;> rfl

theorem Kept.trans {s t u : State} (h : Kept s t) (k : Kept t u) : Kept s u := by
  cases h; cases k; constructor <;> simp_all

theorem Move.kept {s t : State} (h : Move s t) : Kept s t := by
  cases h <;> constructor <;> first | rfl | simp

theorem Moves.kept {s t : State} (h : Moves s t) : Kept s t := by
  induction h with
  | refl => exact .refl _
  | step _ m ih => exact ih.trans m.kept

/-! ### Lanes and barriers -/

theorem Lane.entering_signalOk (n : Lane) (st : LaneState) (time : Nat) : (n.entering st time).signalOk := by
  simp [Lane.signalOk, Lane.entering]

/-- A change of a lane's items that leaves its signal, its state and its entered mark. -/
theorem Moves.lane (s : State) (l : LaneNo) (f : Lane → Lane)
    (h : ∀ n, (f n).signal = n.signal ∧ (f n).state = n.state ∧ (f n).entered = n.entered) : Moves s (s.onLane l f) :=
  .one (.lane s l f (fun k => by simpa [Lane.signalOk, h] using k))

theorem Barrier.raise_lowerOk (time : Nat) (x : Barrier) (h : x.lowerOk) : (x.raise time).lowerOk := by
  unfold Barrier.raise
  split <;> simp_all [Barrier.lowerOk, Barrier.lowerDrive]

theorem Barrier.lower_lowerOk (time : Nat) (x : Barrier) (h : x.lowerOk) : (x.lower time).lowerOk := by
  unfold Barrier.lower
  split
  · split
    · simp_all [Barrier.lowerOk, Barrier.lowerDrive]
    · intro h; simp_all [Barrier.startLowering]
  all_goals simp_all [Barrier.lowerOk, Barrier.lowerDrive]

theorem Barrier.loopOccupied_lowerOk (time : Nat) (x : Barrier) : (x.loopOccupied time).lowerOk := by
  intro _
  unfold Barrier.loopOccupied Barrier.lowerDrive
  cases h : x.state <;> simp

theorem Barrier.loopClear_lowerOk (time : Nat) (x : Barrier) : (x.loopClear time).lowerOk := by
  intro h
  unfold Barrier.loopClear at h ⊢
  simp only at h ⊢
  split at h <;> simp_all [Barrier.startLowering]

theorem Barrier.arriveUp_lowerOk (time : Nat) (x : Barrier) : (x.arriveUp time).lowerOk := by
  intro h
  unfold Barrier.arriveUp at h ⊢
  simp only at h ⊢
  split at h
  · simp_all [Barrier.startLowering]
  · split <;> simp_all [Barrier.lowerDrive]

theorem Barrier.arriveDown_lowerOk (x : Barrier) : x.arriveDown.lowerOk := by
  intro _; simp [Barrier.arriveDown, Barrier.lowerDrive]

theorem Barrier.enterFault_lowerOk (r : FaultReason) (x : Barrier) : (x.enterFault r).lowerOk := by
  intro _; simp [Barrier.enterFault, Barrier.lowerDrive]

theorem positionOf_not_lowering (u d : Bool) : (positionOf u d).1 ≠ .lowering := by
  cases u <;> cases d <;> simp [positionOf]

theorem Barrier.reset_lowerOk (x : Barrier) (h : x.lowerOk) : x.reset.lowerOk := by
  unfold Barrier.reset
  split
  · intro _
    have := positionOf_not_lowering x.upActive x.downActive
    simpa [Barrier.lowerDrive] using this
  · exact h

/-- A change of a bridge that keeps its zero, its backlog and its capture. -/
theorem Moves.bridge (s : State) (b : BridgeNo) (f : Bridge → Bridge)
    (h : ∀ x, (f x).zb = x.zb ∧ (f x).backlog = x.backlog ∧ ((f x).capture = x.capture ∨ (f x).capture = none)) :
    Moves s (s.onBridge b f) := by
  obtain ⟨h1, h2, h3⟩ := h (s.bridge b)
  refine .one (.bridge s b f ⟨.inl h1, fun k => by omega, fun k => .inl ?_⟩)
  rcases h3 with h3 | h3 <;> simp_all

theorem Moves.commandRaise (s : State) (b : BarrierNo) : Moves s (s.commandRaise b) :=
  .one (.barrier s b _ (Barrier.raise_lowerOk _))

theorem Moves.commandLower (s : State) (b : BarrierNo) : Moves s (s.commandLower b) :=
  .one (.barrier s b _ (Barrier.lower_lowerOk _))

theorem Moves.lowerFront (s : State) (l : LaneNo) : Moves s (s.lowerFront l) := by
  unfold State.lowerFront State.commandLower?
  split
  · exact .refl s
  · exact .commandLower s _

theorem Moves.lowerRear (s : State) (l : LaneNo) : Moves s (s.lowerRear l) := by
  unfold State.lowerRear State.commandLower?
  split
  · exact .refl s
  · exact .commandLower s _

theorem Moves.raiseFront (s : State) (l : LaneNo) : Moves s (s.raiseFront l) := by
  unfold State.raiseFront
  split
  · exact .refl s
  · exact (Moves.commandRaise s _).trans (.lane _ l _ (fun _ => ⟨rfl, rfl, rfl⟩))

theorem Moves.raiseRear (s : State) (l : LaneNo) : Moves s (s.raiseRear l) := by
  unfold State.raiseRear
  split
  · exact .refl s
  · exact (Moves.commandRaise s _).trans (.lane _ l _ (fun _ => ⟨rfl, rfl, rfl⟩))

theorem Moves.enterState (s : State) (l : LaneNo) (st : LaneState) (r : Option Reason) :
    Moves s (s.enterState l st r) := by
  unfold State.enterState
  split
  · exact .refl s
  · exact (Moves.one (.lane s l _ (fun _ => Lane.entering_signalOk _ st _))).step (.report _ _)

theorem Moves.comeToIdle (s : State) (l : LaneNo) : Moves s (s.comeToIdle l) := by
  unfold State.comeToIdle
  split <;> exact .enterState s l _ _

theorem Moves.clearVehicle (s : State) (l : LaneNo) : Moves s (s.clearVehicle l) :=
  .lane s l _ (fun _ => ⟨rfl, rfl, rfl⟩)

/-! ### The arbiter -/

/-- Outside ENTERING the entered mark does not bear on the signal (R77). -/
theorem signalFor_mark {st : LaneState} (h : st ≠ .entering) (x y : Bool) : signalFor st x = signalFor st y := by
  cases st <;> first | rfl | exact absurd rfl h

theorem Moves.enterEntering (s : State) (l : LaneNo) (h : (s.lane l).state ≠ .entering) : Moves s (s.enterEntering l) := by
  unfold State.enterEntering
  refine Moves.trans ?_ (.enterState _ l _ _)
  refine Moves.trans ?_ (.lane _ l _ (fun _ => ⟨rfl, rfl, rfl⟩))
  refine Moves.trans ?_ (.raiseFront _ l)
  exact .one (.lane s l _ (fun k => k.trans (signalFor_mark h _ _)))

theorem Moves.giveGrant (s : State) (b : BridgeNo) (l : LaneNo) : Moves s (s.giveGrant b l) := by
  unfold State.giveGrant
  simp only
  split
  · next h => exact (Moves.one (.grant s b _)).trans (.enterEntering _ l (by rw [h.2]; decide))
  · exact .one (.grant s b _)

/-- While the metrology switch is CLOSED a grant decision changes nothing (R10, R109). -/
theorem State.decideGrant_of_closed (s : State) (b : BridgeNo) (h : s.metrology.closed = true) : s.decideGrant b = s := by
  simp [State.decideGrant, State.grantable, h]

theorem Moves.decideGrant (s : State) (b : BridgeNo) : Moves s (s.decideGrant b) := by
  unfold State.decideGrant
  split
  · split
    · exact .refl s
    · exact .giveGrant s b _
  · exact .refl s

theorem Moves.requestGrant (s : State) (l : LaneNo) : Moves s (s.requestGrant l) := by
  unfold State.requestGrant
  split
  · exact .refl s
  · exact (Moves.one (.grant s _ _)).trans (.decideGrant _ _)

theorem Moves.withdrawRequest (s : State) (l : LaneNo) : Moves s (s.withdrawRequest l) := by
  unfold State.withdrawRequest
  split
  · exact .refl s
  · exact .one (.grant s _ _)

theorem Moves.releaseGrant (s : State) (l : LaneNo) : Moves s (s.releaseGrant l) := by
  unfold State.releaseGrant
  split
  · exact .refl s
  · split
    · exact (Moves.one (.grant s _ _)).trans (.decideGrant _ _)
    · exact .refl s

theorem Moves.enterAwaitBridge (s : State) (l : LaneNo) (n : Nat) : Moves s (s.enterAwaitBridge l n) := by
  unfold State.enterAwaitBridge
  refine Moves.trans ?_ (.requestGrant _ l)
  refine Moves.trans ?_ (.enterState _ l _ _)
  exact .lane s l _ (fun _ => ⟨rfl, rfl, rfl⟩)

/-! ### Admission, queries, visits -/

/-- A change of the admission unit that leaves its entries and its refusal records. -/
theorem Moves.onAdm (s : State) (f : Admission → Admission)
    (h : (f s.adm).cache = s.adm.cache ∧ (f s.adm).records = s.adm.records) : Moves s (s.onAdm f) :=
  .one (.adm s f (fun k => k.same h.1 h.2))

theorem Moves.onSlot (s : State) (l : LaneNo) (f : QuerySlot → QuerySlot) : Moves s (s.onSlot l f) :=
  .onAdm s _ ⟨rfl, rfl⟩

theorem Moves.recordRefusal (s : State) (tag : Word) (l : LaneNo) (r : RefusalReason) :
    Moves s (s.recordRefusal tag l r) := by
  unfold State.recordRefusal
  split
  · exact .one (.adm s _ (fun k => k.rewritten _ _ (fun _ => rfl)))
  · next hn =>
    split
    · exact .onAdm s _ ⟨rfl, rfl⟩
    · next i _ =>
      have h : Moves s (s.onAdm (fun a =>
          { a with records := a.records.write i (some
            { tag := tag, lane := l, reason := r, firstTime := s.ret.clock, lastTime := s.ret.clock, repeats := 0 }) })) :=
        .one (.adm s _ (fun k => k.recorded i _ hn))
      simp only
      split
      · exact h.trans (.onAdm _ _ ⟨rfl, rfl⟩)
      · exact h.step (.report _ _)

theorem Moves.refuseVehicle (s : State) (l : LaneNo) (tag : Word) (r : RefusalReason) :
    Moves s (s.refuseVehicle l tag r) := by
  unfold State.refuseVehicle
  refine Moves.trans ?_ (.enterState _ l _ _)
  refine Moves.trans ?_ (.lane _ l _ (fun _ => ⟨rfl, rfl, rfl⟩))
  exact .recordRefusal s tag l r

theorem Moves.forgetLate (s : State) (l : LaneNo) (n : Nat) : Moves s (s.forgetLate l n) := by
  refine Moves.forEach (fun x s => ?_) _ s
  split
  · exact (Moves.onSlot s x _).step (.query _ _)
  · exact .refl s

theorem Moves.sendQuery (s : State) (l : LaneNo) (tag : Word) (k : StreamNo) : Moves s (s.sendQuery l tag k) := by
  unfold State.sendQuery
  refine Moves.trans ?_ (.enterState _ l _ _)
  refine Moves.trans ?_ (.lane _ l _ (fun _ => ⟨rfl, rfl, rfl⟩))
  refine Moves.step ?_ (.query _ _)
  refine Moves.trans ?_ (.onSlot _ l _)
  refine Moves.trans ?_ (.forgetLate _ l _)
  exact .onAdm s _ ⟨rfl, rfl⟩

theorem Moves.abandonQuery (s : State) (l : LaneNo) : Moves s (s.abandonQuery l) := by
  unfold State.abandonQuery
  refine Moves.trans ?_ (.lane _ l _ (fun _ => ⟨rfl, rfl, rfl⟩))
  split
  · exact .onSlot s l _
  · exact .refl s

theorem Moves.leaveSiteFull (s : State) (l : LaneNo) : Moves s (s.leaveSiteFull l) := .one (.siteFull s _)

theorem Moves.joinSiteFull (s : State) (l : LaneNo) : Moves s (s.joinSiteFull l) := by
  unfold State.joinSiteFull
  simp only
  split
  · exact .enterState _ l _ _
  · exact (Moves.one (.siteFull s _)).trans (.enterState _ l _ _)

theorem insertVisit_perm (v : Visit) (vs : List Visit) : (insertVisit v vs).Perm (v :: vs) := by
  induction vs with
  | nil => exact .refl _
  | cons w ws ih =>
    unfold insertVisit
    split
    · exact .refl _
    · exact (ih.cons w).trans (.swap v w ws)

/-- The numbers a counter goes through: its value after `k` advances. -/
def visitAfter (n : Nat) : Nat → Nat
  | 0 => n
  | k + 1 => visitAfter (succVisit n) k

theorem visitAfter_succ (n k : Nat) : visitAfter n (k + 1) = succVisit (visitAfter n k) := by
  induction k generalizing n with
  | zero => rfl
  | succ k ih => exact ih (succVisit n)

theorem visitAfter_one (k : Nat) (h : k < 65535) : visitAfter 1 k = k + 1 := by
  induction k with
  | zero => rfl
  | succ k ih =>
    rw [visitAfter_succ, ih (by omega)]
    unfold succVisit
    split <;> omega

/-- Where a counter stands after a few advances. -/
theorem visitAfter_eq (n k : Nat) (h : k ≤ 65535) :
    visitAfter n k = if n + k ≤ 65535 ∨ k = 0 then n + k else if n ≤ 65535 then n + k - 65535 else k := by
  induction k with
  | zero => simp [visitAfter]
  | succ k ih =>
    rw [visitAfter_succ, ih (by omega)]
    unfold succVisit
    repeat' split
    all_goals omega

theorem visitAfter_inj (n i j : Nat) (hi : i ≤ 64) (hj : j ≤ 64) (h : visitAfter n i = visitAfter n j) : i = j := by
  rw [visitAfter_eq n i (by omega), visitAfter_eq n j (by omega)] at h
  repeat' split at h
  all_goals omega

theorem VisitStore.freeNumber_cases (t : VisitStore) (k n : Nat) :
    (t.freeNumber k n) ∉ t.records.map (·.number) ∨
      (t.freeNumber k n = visitAfter n k ∧ ∀ i, i < k → visitAfter n i ∈ t.records.map (·.number)) := by
  induction k generalizing n with
  | zero => exact .inr ⟨rfl, by omega⟩
  | succ k ih =>
    unfold VisitStore.freeNumber
    split
    · next h =>
      rcases ih (succVisit n) with h' | ⟨h', h''⟩
      · exact .inl h'
      · refine .inr ⟨h', fun i hi => ?_⟩
        cases i with
        | zero =>
          simp at h
          obtain ⟨v, hv, e⟩ := h
          simp [visitAfter]
          exact ⟨v, hv, e⟩
        | succ i => exact h'' i (by omega)
    · next h =>
      refine .inl ?_
      simp at h
      simp
      exact h

/-- The number a creation takes is held by no visit (R146). -/
theorem VisitStore.freeNumber_free (t : VisitStore) (h : t.records.length ≤ 63) :
    t.freeNumber t.records.length t.counter ∉ t.records.map (·.number) := by
  rcases t.freeNumber_cases t.records.length t.counter with h' | ⟨h', h''⟩
  · exact h'
  · intro hm
    rw [h'] at hm
    have hsub : ((List.range (t.records.length + 1)).map (visitAfter t.counter)) ⊆ t.records.map (·.number) := by
      intro x hx
      simp only [List.mem_map, List.mem_range] at hx
      obtain ⟨i, hi, rfl⟩ := hx
      rcases Nat.lt_or_eq_of_le (Nat.le_of_lt_succ hi) with k | k
      · exact h'' i k
      · rw [k]; exact hm
    have hnd : ((List.range (t.records.length + 1)).map (visitAfter t.counter)).Nodup := by
      refine List.Nodup.map_on ?_ List.nodup_range
      intro i hi j hj e
      simp only [List.mem_range] at hi hj
      exact visitAfter_inj _ _ _ (by omega) (by omega) e
    have := (hnd.subperm hsub).length_le
    simp at this

theorem Moves.visits (s : State) (f : VisitStore → VisitStore)
    (h : s.ret.visits.Sound → (f s.ret.visits).Sound) : Moves s (s.onVisits f) := .one (.visits s f h)

theorem Moves.createVisit (s : State) (l : LaneNo) (a : Admitted) : Moves s (s.createVisit l a).1 := by
  unfold State.createVisit
  split
  · exact .refuseVehicle s l _ _
  · next ht =>
    split
    · exact .joinSiteFull s l
    · next h =>
      refine Moves.trans ?_ (.enterAwaitBridge _ l _)
      refine .visits s _ (fun k => ?_)
      have h63 : s.ret.visits.records.length ≤ 63 := by simp [State.tableFull] at h; omega
      have hp := insertVisit_perm
        (a.visit (s.ret.visits.freeNumber s.ret.visits.records.length s.ret.visits.counter) l s.ret.clock)
        s.ret.visits.records
      refine ⟨by rw [hp.length_eq]; simp; omega, ?_, ?_⟩
      · rw [(hp.map (·.number)).nodup_iff]
        exact List.nodup_cons.mpr ⟨s.ret.visits.freeNumber_free h63, k.numbers⟩
      · rw [(hp.map (·.tag)).nodup_iff]
        refine List.nodup_cons.mpr ⟨?_, k.tags⟩
        simp [State.visitOfTag] at ht
        simp [Admitted.visit]
        exact ht

theorem Moves.decideByPermit (s : State) (l : LaneNo) (tag : Word) (k : StreamNo) (p : Permit) :
    Moves s (s.decideByPermit l tag k p).1 := by
  unfold State.decideByPermit
  split
  · exact .refuseVehicle s l _ _
  · exact .createVisit s l _

theorem Moves.cacheStep (s : State) (l : LaneNo) (tag : Word) (k : StreamNo) : Moves s (s.cacheStep l tag k).1 := by
  unfold State.cacheStep
  split
  · exact .sendQuery s l _ _
  · split
    · exact .refl s
    · exact (Moves.one (.adm s _ (fun k => k.touched _))).trans (.decideByPermit _ l _ _ _)

theorem Moves.streamStep (s : State) (l : LaneNo) (tag : Word) (k : StreamNo) : Moves s (s.streamStep l tag k).1 := by
  unfold State.streamStep
  split
  · exact .cacheStep s l _ _
  · exact .refuseVehicle s l _ _

theorem Moves.decideAdmission (s : State) (l : LaneNo) (tag : Word) (k : StreamNo) : Moves s (s.decideAdmission l tag k).1 := by
  unfold State.decideAdmission
  split
  · exact .refuseVehicle s l _ _
  · split
    · exact .joinSiteFull s l
    · exact .streamStep s l _ _

theorem Moves.resume (s : State) (l : LaneNo) : Moves s (s.resume l).1 := by
  unfold State.resume
  split
  · exact .refl s
  · exact .streamStep s l _ _

theorem Moves.serveSiteFull (xs : List LaneNo) (s : State) : Moves s (s.serveSiteFull xs) := by
  induction xs generalizing s with
  | nil => exact .refl s
  | cons l rest ih =>
    have h : Moves s ((s.leaveSiteFull l).resume l).1 := (Moves.leaveSiteFull s l).trans (.resume _ l)
    unfold State.serveSiteFull
    simp only
    split
    · exact h
    · exact h.trans (ih _)

theorem Moves.serveFreed (s : State) : Moves s s.serveFreed := by
  unfold State.serveFreed
  split
  · exact .refl s
  · exact .serveSiteFull _ s

theorem Moves.without (s : State) (n : Nat) : Moves s (s.onVisits (fun t => t.without n)) :=
  .visits s _ (fun h => ⟨Nat.le_trans (List.length_filter_le _ _) h.size,
    h.numbers.sublist (List.Sublist.map _ List.filter_sublist), h.tags.sublist (List.Sublist.map _ List.filter_sublist)⟩)

theorem Moves.removeVisit (s : State) (n : Nat) : Moves s (s.removeVisit n) := by
  unfold State.removeVisit
  split
  · exact (Moves.without s n).trans (.serveFreed _)
  · exact .refl s

theorem VisitStore.Sound.of {t u : VisitStore} (h : t.Sound) (hn : u.records.map (·.number) = t.records.map (·.number))
    (ht : u.records.map (·.tag) = t.records.map (·.tag)) : u.Sound := by
  refine ⟨?_, by rw [hn]; exact h.numbers, by rw [ht]; exact h.tags⟩
  have := congrArg List.length hn
  simp at this
  rw [this]
  exact h.size

/-- A change of a visit that keeps its number and its tag. -/
theorem Moves.onVisit (s : State) (n : Nat) (f : Visit → Visit)
    (h : ∀ v, (f v).number = v.number ∧ (f v).tag = v.tag) : Moves s (s.onVisit n f) := by
  refine .visits s _ (fun k => k.of ?_ ?_)
  · simp only [List.map_map]
    refine List.map_congr_left (fun v _ => ?_)
    simp only [Function.comp]
    split
    · exact (h v).1
    · rfl
  · simp only [List.map_map]
    refine List.map_congr_left (fun v _ => ?_)
    simp only [Function.comp]
    split
    · exact (h v).2
    · rfl

/-- A visit replaced by one of its number and tag. -/
theorem Moves.replaceVisit (s : State) (n : Nat) (v w : Visit) (hv : s.visitOf n = some v) (hn : w.number = v.number)
    (ht : w.tag = v.tag) : Moves s (s.onVisit n (fun _ => w)) := by
  have hm : v ∈ s.ret.visits.records := List.mem_of_find?_eq_some hv
  have hvn : v.number = n := by simpa using List.find?_some hv
  refine .visits s _ (fun k => ?_)
  have hu : ∀ x ∈ s.ret.visits.records, x.number = n → x = v := fun x hx e =>
    List.inj_on_of_nodup_map k.numbers hx hm (e.trans hvn.symm)
  refine k.of ?_ ?_
  all_goals
    simp only [List.map_map]
    refine List.map_congr_left (fun x hx => ?_)
    simp only [Function.comp]
    split
    · next e => rw [hu x hx e]; assumption
    · rfl

theorem Moves.order (s : State) (f : VisitStore → VisitStore) (h : ∀ t, (f t).records = t.records) :
    Moves s (s.onVisits f) :=
  .visits s f (fun k => k.of (by rw [h]) (by rw [h]))

theorem Moves.clearCurrentLane (s : State) (n : Nat) : Moves s (s.clearCurrentLane n) :=
  .onVisit s n _ (fun _ => ⟨rfl, rfl⟩)

theorem Moves.giveUpVisit (s : State) (l : LaneNo) : Moves s (s.giveUpVisit l) := by
  unfold State.giveUpVisit
  split
  · exact .refl s
  · split
    · exact .removeVisit s _
    · exact .clearCurrentLane s _

/-! ### Tickets -/

theorem Moves.placeTare (s : State) (t : Tare) : Moves s (s.placeTare t) :=
  .one (.tares s _ (fun h => h.placed t))

theorem Moves.testHigh (s : State) : Moves s s.testHigh := by
  unfold State.testHigh
  simp only
  split
  · exact (Moves.one (.marks s _)).step (.report _ _)
  · exact .one (.marks s _)

theorem Moves.reportFull (s : State) : Moves s s.reportFull := by
  unfold State.reportFull
  split
  · exact .refl s
  · exact (Moves.one (.marks s _)).step (.report _ _)

theorem Moves.refreshTare (s : State) (v : Visit) (b : TicketBody) (r : WeighingRecord) :
    Moves s (s.refreshTare v b r) := by
  unfold State.refreshTare
  split
  · exact .placeTare s _
  · exact .refl s

theorem Moves.enterLeaving (s : State) (l : LaneNo) : Moves s (s.enterLeaving l) := by
  unfold State.enterLeaving
  simp only
  refine ((Moves.raiseRear s l).trans ?_).trans (.enterState _ l _ _)
  split
  · exact .refl _
  · split
    · refine .onVisit _ _ _ (fun v => ?_)
      split <;> exact ⟨rfl, rfl⟩
    · exact .refl _

theorem Moves.freeWaiting (s : State) (n : Nat) : Moves s (s.freeWaiting n) := by
  unfold State.freeWaiting
  split
  · exact .refl s
  · exact .enterLeaving s _

theorem Consecutive.tail {ts : List Ticket} (h : Consecutive ts) : Consecutive ts.tail := by
  match ts, h with
  | [], _ => trivial
  | [_], _ => trivial
  | _ :: _ :: _, h => exact h.2

theorem Consecutive.append {ts : List Ticket} {t : Ticket} (h : Consecutive ts)
    (k : ∀ u, ts.getLast? = some u → t.number = succSkipZero u.number) : Consecutive (ts ++ [t]) := by
  induction ts with
  | nil => trivial
  | cons a rest ih =>
    cases rest with
    | nil => exact ⟨k a rfl, trivial⟩
    | cons b rest => exact ⟨h.1, ih h.2 (fun u hu => k u (by simpa [List.getLast?_cons_cons] using hu))⟩

/-- The issue of a ticket that carries the counter's number keeps the journal sound (R174, R175). -/
theorem JournalStore.add_sound (j : JournalStore) (t : Ticket) (hn : t.number = j.counter) (hc : t.collected = false)
    (h : j.Sound) : (j.add t).Sound := by
  have hl : ∀ ts : List Ticket, ts = j.tickets ∨ (ts = j.tickets.tail ∧ ts ≠ []) →
      ∀ u, ts.getLast? = some u → t.number = succSkipZero u.number := by
    intro ts hts u hu
    rw [hn]
    refine h.counter _ ?_
    unfold JournalStore.newest
    rcases hts with rfl | ⟨rfl, _⟩
    · rw [hu]; rfl
    · cases hj : j.tickets with
      | nil => simp [hj] at hu
      | cons a rest =>
        rw [hj] at hu
        simp at hu
        cases rest with
        | nil => simp at hu
        | cons b rest => simp [List.getLast?_cons_cons, hu]
  have hp : ∀ ts : List Ticket, ts.Pairwise (fun a b => b.collected = true → a.collected = true) →
      (ts ++ [t]).Pairwise (fun a b => b.collected = true → a.collected = true) := by
    intro ts hts
    rw [List.pairwise_append]
    exact ⟨hts, by simp, fun a _ b hb => by simp at hb; subst hb; simp [hc]⟩
  have hnew : ∀ ts : List Ticket, (ts ++ [t]).getLast?.map (·.number) = some t.number := by
    intro ts; simp
  unfold JournalStore.add
  by_cases hs : j.tickets.length < 240
  · simp only [hs, if_true]
    exact ⟨by simp; omega, h.consecutive.append (hl _ (.inl rfl)),
      fun n e => by
        have := hnew j.tickets
        unfold JournalStore.newest at e
        simp only at e
        rw [this] at e
        injection e with e
        rw [e],
      hp _ h.run⟩
  · simp only [hs, if_false]
    have h240 : j.tickets.length = 240 := by have := h.size; omega
    refine ⟨by simp [h240], h.consecutive.tail.append (hl _ (.inr ⟨rfl, ?_⟩)), fun n e => ?_, hp _ ?_⟩
    · intro e
      have := congrArg List.length e
      simp [h240] at this
    · have := hnew j.tickets.tail
      unfold JournalStore.newest at e
      simp only at e
      rw [this] at e
      injection e with e
      rw [e]
    · exact h.run.sublist (List.tail_sublist _)

theorem Moves.deductFor (s : State) (b : TicketBody) : Moves s (s.deductFor b) := by
  unfold State.deductFor
  split
  · exact .refl s
  · exact .one (.adm s _ (fun k => k.deduct _ _))

theorem Moves.issue (s : State) (v : Visit) (b : TicketBody) : Moves s (s.issue v b) := by
  unfold State.issue
  refine Moves.trans ?_ (.testHigh _)
  refine Moves.trans ?_ (.freeWaiting _ _)
  refine Moves.step ?_ (.report _ _)
  refine Moves.trans ?_ (.onVisit _ _ _ (fun _ => ⟨rfl, rfl⟩))
  refine Moves.trans ?_ (.order _ _ (fun _ => rfl))
  exact (Moves.one (.journal s _ (fun h => JournalStore.add_sound _ _ rfl rfl h))).trans (.deductFor _ _)

theorem Moves.drainAtMost (k : Nat) (s : State) : Moves s (s.drainAtMost k) := by
  induction k generalizing s with
  | zero => exact .refl s
  | succ k ih =>
    unfold State.drainAtMost
    split
    · exact .refl s
    · split
      · exact .refl s
      · split
        · exact .refl s
        · split
          · split
            · refine Moves.trans ?_ (ih _)
              exact .order s _ (fun _ => rfl)
            · split
              · refine Moves.trans ?_ (ih _)
                exact .order s _ (fun _ => rfl)
              · exact (Moves.issue s _ _).trans (ih _)
          · exact .reportFull s

theorem Moves.drain (s : State) : Moves s s.drain := .drainAtMost _ s

theorem Moves.joinAndDrain (s : State) (n : Nat) (b : TicketBody) : Moves s (s.joinAndDrain n b) := by
  have h : Moves s ((s.onVisit n (fun v => { v with pending := some b })).onVisits
      (fun t => { t with order := t.order ++ [n] })).drain := by
    refine Moves.trans ?_ (.drain _)
    refine Moves.trans ?_ (.order _ _ (fun _ => rfl))
    exact .onVisit s n _ (fun _ => ⟨rfl, rfl⟩)
  unfold State.joinAndDrain
  simp only
  split
  · exact h.trans (.onVisit _ _ _ (fun _ => ⟨rfl, rfl⟩))
  · exact h

/-! ### Captures, takeover, transitions -/

theorem Moves.startCapture (s : State) (l : LaneNo) (b : BridgeNo) (n : Nat) : Moves s (s.startCapture l b n) := by
  unfold State.startCapture
  split
  · refine Moves.trans ?_ (.onVisit _ _ _ (fun v => by cases h : v.state <;> exact ⟨rfl, rfl⟩))
    next h =>
      refine .one (.bridge s b _ ⟨.inl rfl, fun k => k, fun _ => .inr ?_⟩)
      simp [State.canStartCapture] at h
      exact h.2
  · exact .refl s

theorem Moves.startOwnCapture (s : State) (l : LaneNo) : Moves s (s.startOwnCapture l) := by
  unfold State.startOwnCapture
  split
  · exact .startCapture s l _ _
  · exact .refl s

theorem Moves.dropCapture (s : State) (b : BridgeNo) : Moves s (s.dropCapture b) :=
  .bridge s b _ (fun _ => ⟨rfl, rfl, .inr rfl⟩)

theorem Moves.returnVisit (s : State) (n : Nat) : Moves s (s.returnVisit n) :=
  .onVisit s n _ (fun _ => ⟨rfl, rfl⟩)

theorem Moves.cancelCaptureOn (s : State) (b : BridgeNo) (w : Cancellation) : Moves s (s.cancelCaptureOn b w) := by
  unfold State.cancelCaptureOn
  split
  · exact .refl s
  · have h := (Moves.dropCapture s b).trans
      (.lane _ ‹Capture›.lane (fun n => { n with lastReason := some (.cancelled w) }) (fun _ => ⟨rfl, rfl, rfl⟩))
    simp only
    split
    · exact h
    · exact h.trans (.returnVisit _ _)

theorem Moves.cancelCaptureOf (s : State) (l : LaneNo) (w : Cancellation) : Moves s (s.cancelCaptureOf l w) := by
  unfold State.cancelCaptureOf
  split
  · exact .refl s
  · exact .cancelCaptureOn s _ w

theorem Moves.treatTakenOver (s : State) (n : Nat) : Moves s (s.treatTakenOver n) := by
  unfold State.treatTakenOver
  split
  · exact .refl s
  · next v hv =>
    split
    · exact .removeVisit s _
    · next w hw =>
      have h : w.number = v.number ∧ w.tag = v.tag := by
        unfold Visit.takenOver at hw
        split at hw <;> first | (injection hw with hw; subst hw; exact ⟨rfl, rfl⟩) | simp at hw
      exact .replaceVisit s n v w hv h.1 h.2

theorem Moves.enterManual (s : State) (l : LaneNo) : Moves s (s.enterManual l) := by
  unfold State.enterManual
  simp only
  refine Moves.step ?_ (.report _ _)
  refine Moves.step ?_ (.lane _ l _ (fun _ => rfl))
  refine Moves.trans ?_ (.releaseGrant _ l)
  split
  · exact .cancelCaptureOf s l _
  · exact (Moves.cancelCaptureOf s l _).trans (.treatTakenOver _ _)

theorem Moves.stopSequence (s : State) (l : LaneNo) : Moves s (s.stopSequence l) := by
  unfold State.stopSequence
  simp only
  refine Moves.trans ?_ (.lane _ l _ (fun _ => ⟨rfl, rfl, rfl⟩))
  have h : ∀ t : State, Moves s t → Moves s (if (t.lane l).state = .awaitBridge then t.withdrawRequest l else t) :=
    fun t k => .ite (k.trans (.withdrawRequest t l)) k
  have i : ∀ t : State, Moves s t → Moves s (if (t.lane l).state = .siteFull then t.leaveSiteFull l else t) :=
    fun t k => .ite (k.trans (.leaveSiteFull t l)) k
  exact h _ (i _ (.ite (.abandonQuery s l) (.refl s)))

theorem Moves.takeOver (s : State) (l : LaneNo) : Moves s (s.takeOver l) := by
  unfold State.takeOver
  split
  · exact .refl s
  · have h := (Moves.stopSequence s l).trans
      (.lane _ l (fun n => { n with takeoverFrom := some n.state }) (fun _ => ⟨rfl, rfl, rfl⟩))
    simp only
    split
    · exact h.trans (.enterState _ l _ _)
    · exact h.trans (.enterManual _ l)

theorem Moves.testTakeover (s : State) (l : LaneNo) : Moves s (s.testTakeover l) := by
  unfold State.testTakeover
  split
  · exact .enterManual s l
  · exact .refl s

@[simp] theorem State.lowerFront_lane (s : State) (l m : LaneNo) : (s.lowerFront l).lane m = s.lane m := by
  unfold State.lowerFront State.commandLower?
  split <;> rfl

theorem Moves.completeEntry (s : State) (l : LaneNo) (hs : (s.lane l).state = .entering) : Moves s (s.completeEntry l) := by
  have h := (Moves.lane s l (fun n => { n with entryTimer := .stopped }) (fun _ => ⟨rfl, rfl, rfl⟩)).trans
    (.lowerFront _ l)
  unfold State.completeEntry
  simp only
  split
  · exact h
  · split
    · exact h.step (.lane _ l _ (fun _ => by simp [Lane.signalOk, signalFor, hs]))
    · exact (h.trans (.startOwnCapture _ l)).trans (.enterState _ l _ _)

theorem Moves.passRear (s : State) (l : LaneNo) : Moves s (s.passRear l) := by
  have h := (Moves.lowerRear s l).trans (.clearVehicle _ l)
  unfold State.passRear
  simp only
  split
  · exact h
  · split
    · exact h.trans (.removeVisit _ _)
    · exact h.trans (.clearCurrentLane _ _)

theorem Moves.endLeaving (s : State) (l : LaneNo) : Moves s (s.endLeaving l) :=
  (Moves.releaseGrant s l).trans (.comeToIdle _ l)

theorem Moves.endBackout (s : State) (l : LaneNo) : Moves s (s.endBackout l) := by
  have h := ((Moves.lowerFront s l).trans (.releaseGrant _ l)).trans (.giveUpVisit _ l)
  unfold State.endBackout
  simp only
  refine ((h.trans ?_).trans (.clearVehicle _ l)).trans (.comeToIdle _ l)
  split
  · split
    · exact .recordRefusal _ _ _ _
    · exact .refl _
  · exact .refl _

theorem Moves.endPassing (s : State) (l : LaneNo) : Moves s (s.endPassing l) := by
  have h := (Moves.lowerFront s l).trans (.clearVehicle _ l)
  unfold State.endPassing
  simp only
  refine (h.trans ?_).trans (.enterState _ l _ _)
  split
  · exact .refl _
  · exact .removeVisit _ _

theorem Moves.withdraw (s : State) (l : LaneNo) : Moves s (s.withdraw l) := by
  unfold State.withdraw
  refine Moves.trans ?_ (.enterState _ l _ _)
  refine Moves.trans ?_ (.clearVehicle _ l)
  refine Moves.trans ?_ (.giveUpVisit _ l)
  refine Moves.trans ?_ (.releaseGrant _ l)
  refine Moves.trans ?_ (.lane _ l _ (fun _ => ⟨rfl, rfl, rfl⟩))
  exact .lowerFront s l

theorem Moves.entryExpired (s : State) (l : LaneNo) : Moves s (s.entryExpired l) := by
  unfold State.entryExpired
  split
  · exact .withdraw s l
  · exact .lane s l _ (fun _ => ⟨rfl, rfl, rfl⟩)

theorem Moves.testLane (s : State) (l : LaneNo) : Moves s (s.testLane l) := by
  unfold State.testLane
  repeat' split
  all_goals first
    | exact .refl s
    | exact .enterLeaving s l
    | exact .completeEntry s l ‹_›
    | exact .endLeaving s l
    | exact .endBackout s l
    | exact .endPassing s l

theorem Moves.leaveBeforeEntry (s : State) (l : LaneNo) : Moves s (s.leaveBeforeEntry l) := by
  unfold State.leaveBeforeEntry
  split
  · exact (Moves.clearVehicle s l).trans (.enterState _ l _ _)
  · exact (Moves.clearVehicle s l).trans (.enterState _ l _ _)
  · exact (Moves.clearVehicle s l).trans (.enterState _ l _ _)
  · exact ((Moves.abandonQuery s l).trans (.clearVehicle _ l)).trans (.enterState _ l _ _)
  · exact ((Moves.leaveSiteFull s l).trans (.clearVehicle _ l)).trans (.enterState _ l _ _)
  · exact ((((Moves.withdrawRequest s l).trans (.releaseGrant _ l)).trans (.giveUpVisit _ l)).trans
      (.clearVehicle _ l)).trans (.enterState _ l _ _)
  · exact .refl s

theorem Moves.faultLane (s : State) (l : LaneNo) : Moves s (s.faultLane l) := by
  unfold State.faultLane
  split
  · exact .refl s
  · exact .cancelCaptureOf s l _
  · refine Moves.trans ?_ (.enterState _ l _ _)
    refine Moves.trans ?_ (.lane _ l _ (fun _ => ⟨rfl, rfl, rfl⟩))
    exact (Moves.cancelCaptureOf s l _).trans (.stopSequence _ l)

theorem Moves.faultBarrier (s : State) (b : BarrierNo) (r : FaultReason) : Moves s (s.faultBarrier b r) := by
  unfold State.faultBarrier
  simp only
  refine Moves.trans ?_ (.forEach (fun l s => .testTakeover s l) _ _)
  exact ((Moves.one (.barrier s b _ (fun x _ => x.enterFault_lowerOk r))).step (.report _ _)).trans
    (.forEach (fun l s => .faultLane s l) _ _)

theorem Moves.barrierSettled (s : State) (b : BarrierNo) : Moves s (s.barrierSettled b) :=
  .forEach (fun l s => (Moves.testLane s l).trans (.testTakeover _ l)) _ s

/-! ### Evaluations -/

theorem Moves.attemptZero (s : State) (b : BridgeNo) : Moves s (s.attemptZero b) := by
  unfold State.attemptZero
  split
  · simp only
    split
    · next h =>
      refine Moves.step ?_ (.report _ _)
      exact .one (.bridge s b _ ⟨.inr h, fun _ => Nat.zero_le _, fun k => .inl k⟩)
    · split
      · exact .refl s
      · refine Moves.step ?_ (.report _ _)
        exact .bridge s b _ (fun _ => ⟨rfl, rfl, .inl rfl⟩)
  · exact .refl s

theorem Moves.zeroAndGrant (s : State) (b : BridgeNo) : Moves s (s.zeroAndGrant b) := by
  unfold State.zeroAndGrant
  simp only
  split
  · exact ((Moves.one (.evaluations s _)).trans (.decideGrant _ b)).trans (.attemptZero _ b)
  · exact ((Moves.one (.evaluations s _)).trans (.attemptZero _ b)).trans (.decideGrant _ b)

theorem Moves.leaveOrWait (s : State) (l : LaneNo) (n : Nat) : Moves s (s.leaveOrWait l n) := by
  unfold State.leaveOrWait
  repeat' split
  all_goals first
    | exact .enterState s l _ _
    | exact .enterLeaving s l
    | exact .refl s

theorem Moves.settleWeighing (s : State) (l : LaneNo) (v : Visit) (r : WeighingRecord) :
    Moves s (s.settleWeighing l v r) := by
  unfold State.settleWeighing
  split
  · split
    · simp only
      split
      · refine Moves.trans ?_ (.enterLeaving _ l)
        exact .onVisit s _ _ (fun _ => ⟨rfl, rfl⟩)
      · exact .onVisit s _ _ (fun _ => ⟨rfl, rfl⟩)
    · refine Moves.trans ?_ (.leaveOrWait _ l _)
      refine Moves.trans ?_ (.joinAndDrain _ _ _)
      exact .onVisit s _ _ (fun _ => ⟨rfl, rfl⟩)
  · exact ((Moves.refreshTare s v _ r).trans (.joinAndDrain _ _ _)).trans (.leaveOrWait _ l _)
  · exact .refl s

theorem Moves.completeCapture (s : State) (b : BridgeNo) (c : Capture) : Moves s (s.completeCapture b c) := by
  have h := (Moves.dropCapture s b).step (.report _
    (.captureDone { bridge := b, lane := c.lane, visit := c.visit, start := c.start, record := s.weighingRecord b }))
  unfold State.completeCapture
  simp only
  split
  · exact h
  · exact h.trans (.settleWeighing _ _ _ _)

theorem Moves.testCapture (s : State) (b : BridgeNo) : Moves s (s.testCapture b) := by
  unfold State.testCapture
  split
  · exact .refl s
  · next h =>
    split
    · exact .one (.bridge s b _ ⟨.inl rfl, fun k => k, fun _ => .inl (by simp [h])⟩)
    · exact .completeCapture s b _

theorem Moves.applyEvaluation (s : State) (b : BridgeNo) (e : Evaluation) : Moves s (s.applyEvaluation b e) := by
  unfold State.applyEvaluation
  refine Moves.trans ?_ (.forEach (fun l s => .testLane s l) _ _)
  refine Moves.trans ?_ (.testCapture _ b)
  refine Moves.trans ?_ (.zeroAndGrant _ b)
  exact .bridge s b _ (fun _ => ⟨rfl, rfl, .inl rfl⟩)

theorem Moves.evaluate (s : State) (b : BridgeNo) : Moves s (s.evaluate b) := by
  unfold State.evaluate
  split
  · exact .refl s
  · exact .applyEvaluation s b _

theorem Moves.evaluateDeck (s : State) (d : DeckNo) : Moves s (s.evaluateDeck d) := by
  unfold State.evaluateDeck
  split
  · exact .refl s
  · exact .evaluate s _

theorem Moves.deckArrival (s : State) (d : DeckNo) : Moves s (s.deckArrival d) := .one (.deck s d _)

end Sys2Proof.Machine
end

