-- ==== Sys2Proof/Laws/Steps.lean ====
section
/-! SUPPORT. What a command can do to a state, said once: a sequence of the changes of `Change`, with at most one of the
special changes of `Special` among them. An invariant is kept by every step when each of these keeps it. -/

namespace Sys2Proof.Machine

/-- The limits of the link unit (R188, R192). -/
def Link.Limits (k : Link) : Prop := k.queue.length ≤ 4 ∧ k.busy.length ≤ 4 ∧ k.reports.length ≤ 32

/-- What a request or an event may make of the retained contents: the sizes stay in their limits, the settings U stay
within 15, and the calibration changes only with the switch closed. A change of a bridge's calibration is a special
change. -/
structure State.LegalRetained (s : State) (r : Retained) : Prop where
  urgent  : (∀ b, (s.timing b).urgent ≤ 15) → ∀ b : BridgeNo, (r.site.timing.read b).urgent ≤ 15
  bridges : r.cal.bridges = s.ret.cal.bridges
  journal : s.ret.journal.Sound → r.journal.Sound
  visits  : s.ret.visits.Sound → r.visits.Sound
  tares   : TaresDistinct s.ret.tares → TaresDistinct r.tares
  locked  : s.metrology.closed = true ∨
    (r.cal = s.ret.cal ∧ r.calCounter = s.ret.calCounter ∧ r.site.deckMap = s.ret.site.deckMap)

/-- One change that a command makes. -/
inductive Change : State → State → Prop
  | move {s t : State} (h : Move s t) : Change s t
  | pending (s : State) (x : List Instr) : Change s { s with pending := x }
  | channels (s : State) (x : Table 16 Channel) : Change s { s with channels := x }
  | metrology (s : State) (m : Metrology) (h : m.closed = s.metrology.closed) : Change s { s with metrology := m }
  | decks (s : State) (x : Table 4 Deck) : Change s { s with decks := x }
  | bridges (s : State) (x : Table 4 Bridge) (h : ∀ b, s.LegalBridge b (x.read b)) : Change s { s with bridges := x }
  | barriers (s : State) (x : Table 8 Barrier) (h : ∀ b, (s.barrier b).lowerOk → (x.read b).lowerOk) :
      Change s { s with barriers := x }
  | lanes (s : State) (x : Table 4 Lane) (h : ∀ l, (s.lane l).signalOk → (x.read l).signalOk) :
      Change s { s with lanes := x }
  | pins (s : State) (x : Pins) : Change s { s with pins := x }
  | loops (s : State) (x : Table 4 ApproachLoop) : Change s { s with loops := x }
  | beams (s : State) (x : Table 8 Beam) : Change s { s with beams := x }
  | powerFail (s : State) (p : PowerFail) (h : p.asserted = true → s.failing = true) : Change s { s with powerFail := p }
  | link (s : State) (f : Link → Link) (h : s.link.Limits → (f s.link).Limits) : Change s (s.onLink f)
  | retained (s : State) (f : Retained → Retained) (h : s.LegalRetained (f s.ret)) : Change s (s.onRet f)

/-- A sequence of changes. -/
inductive Changes : State → State → Prop
  | refl (s : State) : Changes s s
  | step {s t u : State} : Changes s t → Change t u → Changes s u

theorem Changes.one {s t : State} (h : Change s t) : Changes s t := .step (.refl s) h

theorem Changes.trans {s t u : State} (h : Changes s t) (k : Changes t u) : Changes s u := by
  induction k with
  | refl => exact h
  | step _ m ih => exact .step ih m

theorem Moves.changes {s t : State} (h : Moves s t) : Changes s t := by
  induction h with
  | refl => exact .refl _
  | step _ m ih => exact .step ih (.move m)

/-- A property that each change keeps is kept by every sequence of them. -/
theorem Changes.keep {P : State → Prop} (hP : ∀ {s t}, Change s t → P s → P t) {s t : State} (h : Changes s t)
    (hs : P s) : P t := by
  induction h with
  | refl => exact hs
  | step _ m ih => exact hP m ih

theorem Changes.ite {c : Prop} [Decidable c] {s t u : State} (h : Changes s t) (k : Changes s u) :
    Changes s (if c then t else u) := by
  split
  · exact h
  · exact k

theorem Changes.forEach {α : Type} {f : α → State → State} (h : ∀ x s, Changes s (f x s)) (xs : List α) (s : State) :
    Changes s (forEach xs f s) := by
  induction xs generalizing s with
  | nil => exact .refl s
  | cons x xs ih => exact (h x s).trans (ih (f x s))

/-- A special change: the metrology switch takes a state, a bridge is calibrated, power fail is asserted, the part
resets, main power is lost. -/
inductive Special : State → State → Prop
  | none (s : State) : Special s s
  | switch (s : State) (m : Metrology) : Special s { s with metrology := m }
  | recalibrate {s u : State} (b : BridgeNo) (f : BridgeCal → BridgeCal) (hc : s.metrology.closed = true)
      (h : Changes (s.onBridgeCal b f) u) : Special s (u.zeroToReference b)
  | halt {s t : State} (h : Moves { s with powerFail := { asserted := true, filter := Option.none } } t)
      (hc : ∀ b, (t.bridge b).capture = Option.none) : Special s t
  | reset (s : State) (cause : ResetCause) : Special s (s.resetPart cause)
  | dark (s : State) : Special s s.dark

/-- What one command makes of a state. -/
def Shape (s t : State) : Prop := ∃ a b, Changes s a ∧ Special a b ∧ Changes b t

theorem Shape.of {s t : State} (h : Changes s t) : Shape s t := ⟨s, s, .refl s, .none s, h⟩

theorem Shape.before {s t u : State} (h : Changes s t) (k : Shape t u) : Shape s u := by
  obtain ⟨a, b, h1, h2, h3⟩ := k
  exact ⟨a, b, h.trans h1, h2, h3⟩

theorem Shape.after {s t u : State} (h : Shape s t) (k : Changes t u) : Shape s u := by
  obtain ⟨a, b, h1, h2, h3⟩ := h
  exact ⟨a, b, h1, h2, h3.trans k⟩

/-! ### Small changes -/

theorem State.LegalBridge.refl (s : State) (b : BridgeNo) : s.LegalBridge b (s.bridge b) :=
  ⟨.inl rfl, fun k => k, fun k => .inl k⟩

theorem Changes.onChannel (s : State) (c : ChannelNo) (f : Channel → Channel) : Changes s (s.onChannel c f) :=
  .one (.channels s _)
theorem Changes.onDeck (s : State) (d : DeckNo) (f : Deck → Deck) : Changes s (s.onDeck d f) := .one (.decks s _)
theorem Changes.onLoop (s : State) (a : LoopNo) (f : ApproachLoop → ApproachLoop) : Changes s (s.onLoop a f) :=
  .one (.loops s _)
theorem Changes.onBeam (s : State) (m : BeamNo) (f : Beam → Beam) : Changes s (s.onBeam m f) := .one (.beams s _)
theorem Changes.onPins (s : State) (f : Pins → Pins) : Changes s (s.onPins f) := .one (.pins s _)
theorem Changes.onAdm (s : State) (f : Admission → Admission)
    (h : (f s.adm).cache = s.adm.cache ∧ (f s.adm).records = s.adm.records) : Changes s (s.onAdm f) :=
  (Moves.onAdm s f h).changes
theorem Changes.onSlot (s : State) (l : LaneNo) (f : QuerySlot → QuerySlot) : Changes s (s.onSlot l f) :=
  (Moves.onSlot s l f).changes
theorem Changes.report (s : State) (r : Report) : Changes s (s.report r) := .one (.move (.report s r))
theorem Changes.seal (s : State) : Changes s s.seal := .one (.move (.seal s))

theorem Changes.onSite (s : State) (f : SiteSettings → SiteSettings)
    (hu : (∀ b, (s.timing b).urgent ≤ 15) → ∀ b : BridgeNo, ((f s.ret.site).timing.read b).urgent ≤ 15)
    (hl : s.metrology.closed = true ∨ (f s.ret.site).deckMap = s.ret.site.deckMap) : Changes s (s.onSite f) := by
  refine .one (.retained s _ ⟨hu, rfl, fun h => h, fun h => h, fun h => h, ?_⟩)
  rcases hl with h | h
  · exact .inl h
  · exact .inr ⟨rfl, rfl, h⟩

theorem Changes.siteKept (s : State) (f : SiteSettings → SiteSettings) (ht : ∀ x, (f x).timing = x.timing)
    (hl : s.metrology.closed = true ∨ ∀ x, (f x).deckMap = x.deckMap) : Changes s (s.onSite f) := by
  refine .onSite s f (fun h b => ?_) (hl.imp id (fun h => h _))
  rw [ht]
  exact h b

theorem Changes.bridge (s : State) (b : BridgeNo) (f : Bridge → Bridge)
    (h : ∀ x, (f x).zb = x.zb ∧ (x.backlog ≤ 15 → (f x).backlog ≤ 15) ∧ (f x).capture = x.capture) :
    Changes s (s.onBridge b f) := by
  obtain ⟨h1, h2, h3⟩ := h (s.bridge b)
  exact .one (.move (.bridge s b f ⟨.inl h1, h2, fun k => .inl (h3 ▸ k)⟩))

theorem Changes.barrier (s : State) (b : BarrierNo) (f : Barrier → Barrier) (h : ∀ x, x.lowerOk → (f x).lowerOk) :
    Changes s (s.onBarrier b f) := .one (.move (.barrier s b f h))

theorem Changes.barrierKept (s : State) (b : BarrierNo) (f : Barrier → Barrier)
    (h : ∀ x, (f x).state = x.state ∧ (f x).occupied = x.occupied) : Changes s (s.onBarrier b f) := by
  refine .barrier s b f (fun x hx => ?_)
  obtain ⟨h1, h2⟩ := h x
  simpa [Barrier.lowerOk, Barrier.lowerDrive, h1, h2] using hx

theorem Link.choose_limits (k : Link) (h : k.Limits) : k.choose.Limits := by
  unfold Link.Limits at h ⊢
  have e := k.choose_kept
  refine ⟨by rw [e.2.1]; exact h.1, by rw [e.2.2.2.1]; exact h.2.1, ?_⟩
  rcases Link.choose_cases k with ⟨h1, _⟩ | ⟨r, h1, _⟩
  · rw [h1]; exact h.2.2
  · have := h.2.2
    rw [h1] at this
    simp at this
    omega

theorem Changes.transmit (s : State) : Changes s s.transmit := by
  unfold State.transmit
  split
  · exact .one (.link s _ (fun h => Link.choose_limits _ h))
  · exact .refl s

theorem Changes.lost (s : State) (f : Link → Link)
    (h : ∀ k, (f k).queue = k.queue ∧ (f k).busy = k.busy ∧ (f k).reports = k.reports) : Changes s (s.onLink f) := by
  refine .one (.link s f (fun k => ?_))
  obtain ⟨h1, h2, h3⟩ := h s.link
  simpa [Link.Limits, h1, h2, h3] using k

theorem Changes.setReply (s : State) (r : Reply) : Changes s (s.setReply r) := .lost s _ (fun _ => ⟨rfl, rfl, rfl⟩)

/-! ### Cells, decks and bridges -/

theorem Changes.sampleArrives (s : State) (c : ChannelNo) (n : Int) (st : SampleStatus) :
    Changes s (s.sampleArrives c n st) := by
  unfold State.sampleArrives
  split
  · exact .onChannel s c _
  · next d _ =>
    simp only
    have h : ∀ t, Changes s t → Changes s (if t.leadOf d = some c then ((t.deckArrival d).evaluateDeck d).seal else t) :=
      fun t k => .ite ((((k.trans (Moves.deckArrival t d).changes).trans (Moves.evaluateDeck _ d).changes)).trans (.seal _)) k
    refine h _ (.ite ?_ (.onChannel s c _))
    exact (Changes.onChannel s c _).trans (.report _ _)

theorem Changes.setReceiver (s : State) (c : ChannelNo) (r : CellReceiver) : Changes s (s.setReceiver c r) :=
  .onChannel s c _

theorem Changes.cellByte (s : State) (c : ChannelNo) (b : Byte) (e : Bool) : Changes s (s.cellByte c b e) := by
  unfold State.cellByte State.collectCell
  repeat' split
  all_goals first
    | exact .refl s
    | exact .setReceiver s c _
    | exact (Changes.setReceiver s c _).trans (.sampleArrives _ c _ _)

theorem Changes.stallExpired (s : State) (c : ChannelNo) : Changes s (s.stallExpired c) := by
  unfold State.stallExpired
  split
  · simp only
    split
    · exact .onChannel s c _
    · exact (Changes.onChannel s c _).trans (.report _ _)
  · exact .refl s

theorem Changes.freshnessExpired (s : State) (d : DeckNo) : Changes s (s.freshnessExpired d) := by
  unfold State.freshnessExpired
  split
  · simp only
    split
    · exact .onDeck s d _
    · exact (((Changes.onDeck s d _).trans (.onDeck _ d _)).trans (Moves.evaluateDeck _ d).changes).trans (.seal _)
  · exact .refl s

theorem countTo_le (limit n : Nat) (h : n ≤ limit) : countTo limit n ≤ limit := by
  unfold countTo
  split <;> omega

theorem Changes.zeroTimerExpired (s : State) (b : BridgeNo) : Changes s (s.zeroTimerExpired b) := by
  unfold State.zeroTimerExpired
  simp only
  have h : Changes s (s.onBridge b (fun x => { x with zeroTimer := s.zeroTime b, backlog := countTo 15 x.backlog })) :=
    .bridge s b _ (fun x => ⟨rfl, fun k => countTo_le 15 _ k, rfl⟩)
  exact .ite (h.trans (.report _ _)) h

theorem Moves.captureFailedAt (s : State) (l : LaneNo) (w : Blocking) : Moves s (s.captureFailedAt l w) := by
  have h : Moves s (s.onLane l (fun n => { n with lastReason := some (.capture w) })) := .lane s l _ (fun _ => ⟨rfl, rfl, rfl⟩)
  unfold State.captureFailedAt
  exact .ite (h.trans (.enterState _ _ _ _)) h

theorem Changes.captureExpired (s : State) (b : BridgeNo) : Changes s (s.captureExpired b) := by
  unfold State.captureExpired
  split
  · exact .refl s
  · simp only
    refine Changes.trans ?_ (.seal _)
    refine Moves.changes (Moves.trans ?_ (.captureFailedAt _ _ _))
    refine Moves.step ?_ (.report _ _)
    exact (Moves.dropCapture s b).trans (.returnVisit _ _)

/-! ### Barriers, loops and beams -/

theorem Changes.motionExpired (s : State) (b : BarrierNo) : Changes s (s.motionExpired b) := by
  unfold State.motionExpired
  exact .ite ((Moves.faultBarrier s b _).changes.trans (.seal _)) (.refl s)

theorem Changes.switchChanged (s : State) (b : BarrierNo) (e : SwitchEffect) : Changes s (s.switchChanged b e) := by
  unfold State.switchChanged
  split
  · exact .refl s
  · exact ((Changes.barrier s b _ (fun x _ => x.arriveUp_lowerOk _)).trans (Moves.barrierSettled _ b).changes).trans
      (.seal _)
  · exact ((Changes.barrier s b _ (fun x _ => x.arriveDown_lowerOk)).trans (Moves.barrierSettled _ b).changes).trans
      (.seal _)
  · exact (Moves.faultBarrier s b _).changes.trans (.seal _)

theorem Barrier.switchSettled_kept (x : Barrier) (w : EndSwitch) (a : Bool) :
    (x.switchSettled w a).state = x.state ∧ (x.switchSettled w a).occupied = x.occupied := by
  cases w <;> exact ⟨rfl, rfl⟩

theorem Barrier.switchInput_kept (x : Barrier) (w : EndSwitch) (a : Bool) :
    (x.switchInput w a).state = x.state ∧ (x.switchInput w a).occupied = x.occupied := by
  cases w <;> exact ⟨rfl, rfl⟩

theorem Barrier.inputsInactive_kept (x : Barrier) :
    x.inputsInactive.state = x.state ∧ x.inputsInactive.occupied = x.occupied := by
  unfold Barrier.inputsInactive
  split <;> exact ⟨rfl, rfl⟩

theorem Changes.switchHeld (s : State) (b : BarrierNo) (w : EndSwitch) : Changes s (s.switchHeld b w) := by
  unfold State.switchHeld
  refine .ite ?_ (.refl s)
  exact (Changes.barrierKept s b _ (fun x => x.switchSettled_kept w _)).trans (.switchChanged _ b _)

theorem Changes.moveMark (s : State) (l : LaneNo) (b : BarrierNo) (f : CrossingMark → CrossingMark) :
    Changes s (s.moveMark l b f) := by
  unfold State.moveMark
  refine .ite ?_ (.refl s)
  exact Moves.changes (.lane s l _ (fun _ => ⟨rfl, rfl, rfl⟩))

theorem Changes.safetyActive (s : State) (b : BarrierNo) : Changes s (s.safetyActive b) := by
  unfold State.safetyActive State.handOccupied
  refine .ite (.barrierKept s b _ (fun _ => ⟨rfl, rfl⟩)) ?_
  exact (Changes.barrier s b _ (fun x _ => x.loopOccupied_lowerOk _)).trans
    (.forEach (fun l s => .moveMark s l b _) _ _)

theorem Changes.laneClear (s : State) (l : LaneNo) (b : BarrierNo) : Changes s (s.laneClear l b) := by
  unfold State.laneClear
  simp only
  refine Changes.trans ?_ (Moves.testLane _ l).changes
  exact .ite ((Changes.moveMark s l b _).trans (Moves.passRear _ l).changes) (.moveMark s l b _)

theorem Changes.safetyClear (s : State) (b : BarrierNo) : Changes s (s.safetyClear b) := by
  unfold State.safetyClear State.handClear
  refine .ite ?_ (.refl s)
  exact ((Changes.barrier s b _ (fun x _ => x.loopClear_lowerOk _)).trans
    (.forEach (fun l s => .laneClear s l b) _ _)).trans (.seal _)

theorem Changes.approachActive (s : State) (a : LoopNo) : Changes s (s.approachActive a) := by
  unfold State.approachActive
  refine .ite (.onLoop s a _) ?_
  refine (Changes.onLoop s a _).trans (.forEach (fun l s => ?_) _ _)
  unfold State.approachReached
  exact .ite (Moves.comeToIdle s l).changes (.refl s)

theorem Changes.approachClear (s : State) (a : LoopNo) : Changes s (s.approachClear a) := by
  unfold State.approachClear
  refine .ite ?_ (.refl s)
  simp only
  refine Changes.trans ?_ (.seal _)
  refine (Changes.onLoop s a _).trans (.forEach (fun l s => ?_) _ _)
  unfold State.approachLeft
  exact .ite (.refl s) ((Moves.leaveBeforeEntry s l).trans (.testLane _ l)).changes

/-! ### Timers of lanes and queries -/

theorem Changes.identityExpired (s : State) (l : LaneNo) : Changes s (s.identityExpired l) := by
  unfold State.identityExpired
  refine .ite (.ite (Moves.changes (.lane s l _ (fun _ => ⟨rfl, rfl, rfl⟩))) (.ite (Moves.enterState s l _ _).changes (.refl s)))
    (.refl s)

theorem Changes.entryTimerExpired (s : State) (l : LaneNo) : Changes s (s.entryTimerExpired l) := by
  unfold State.entryTimerExpired
  exact .ite (.ite (Moves.changes (.lane s l _ (fun _ => ⟨rfl, rfl, rfl⟩)))
    (.ite ((Moves.entryExpired s l).changes.trans (.seal _)) (.refl s))) (.refl s)

theorem Moves.fallBack (s : State) (l : LaneNo) (q : QuerySlot) : Moves s (s.fallBack l q) := by
  unfold State.fallBack
  split
  · exact .refuseVehicle s l _ _
  · exact (Moves.createVisit s l _).trans (.onSlot _ l _)

theorem Moves.queryTimedOut (s : State) (l : LaneNo) : Moves s (s.queryTimedOut l) := by
  unfold State.queryTimedOut
  refine Moves.trans ?_ (.fallBack _ l _)
  refine Moves.trans ?_ (.lane _ l _ (fun _ => ⟨rfl, rfl, rfl⟩))
  exact .onSlot s l _

theorem Changes.deadlineExpired (s : State) (l : LaneNo) : Changes s (s.deadlineExpired l) := by
  unfold State.deadlineExpired
  exact .ite (.ite (.onSlot s l _) ((Moves.queryTimedOut s l).changes.trans (.seal _))) (.refl s)

end Sys2Proof.Machine
end

