-- ==== Sys2Proof/Laws/Requests.lean ====
section
/-! SUPPORT. What the owning block's rule for each request can do to a state: changes, and for two calibration requests a
special change. -/

namespace Sys2Proof.Machine

theorem clampSetting_le {lo hi v : Nat} (h : lo ≤ hi) : clampSetting lo hi v ≤ hi := by
  unfold clampSetting
  repeat' split
  all_goals omega

@[simp] theorem State.accepted_state (s : State) (b : ReplyBody) : (s.accepted b).state = s := rfl
@[simp] theorem State.accepted_status (s : State) (b : ReplyBody) : (s.accepted b).status = .ok := rfl
@[simp] theorem State.accepted_body (s : State) (b : ReplyBody) : (s.accepted b).body = b := rfl
@[simp] theorem State.refused_state (s : State) (st : Status) : (s.refused st).state = s := rfl
@[simp] theorem State.refused_status (s : State) (st : Status) : (s.refused st).status = st := rfl
@[simp] theorem State.refused_body (s : State) (st : Status) : (s.refused st).body = .empty := rfl

/-! ### Settings -/

theorem Changes.leaveListing (s : State) (l : LaneNo) (k : LaneConfig) : Changes s (s.leaveListing l k) := by
  unfold State.leaveListing
  split
  · exact .refl s
  · exact .ite (.refl s) (.one (.move (.grant s _ _)))

theorem Changes.actConfigLane (f : ConfigLaneFields) (s : State) : Changes s (actConfigLane f s).state := by
  unfold Machine.actConfigLane
  split
  · next l k _ _ =>
    split
    · exact .refl s
    · split
      · exact .refl s
      · split
        · exact .refl s
        · have h : Changes s (((s.leaveListing l k).onSite (fun t => { t with lanes := t.lanes.write l k })).seal) :=
by
            refine Changes.trans ?_ (.seal _)
            refine (Changes.leaveListing s l k).trans ?_
            exact .siteKept _ _ (fun _ => rfl) (.inr fun _ => rfl)
          exact Changes.ite (h.trans (Moves.comeToIdle _ l).changes) h
  · exact .refl s

theorem Changes.takePeriod (s : State) (p : Nat) : Changes s (s.takePeriod p) := by
  have h : Changes s (s.onSite (fun t => { t with period := p })) :=
    .siteKept s _ (fun _ => rfl) (.inr fun _ => rfl)
  unfold State.takePeriod
  exact .ite ((h.trans (.one (.channels _ _))).trans (.one (.decks _ _))) (h.trans (.one (.channels _ _)))

theorem Changes.takeTiming (s : State) (b : BridgeNo) (k : BridgeTiming) (hk : k.urgent ≤ 15) :
    Changes s (s.onSite (fun t => { t with timing := t.timing.write b k })) := by
  refine .onSite s _ (fun h c => ?_) (.inr rfl)
  simp only [Table.read_write]
  split
  · exact hk
  · exact h c

theorem Changes.actConfigBridgeTiming (f : BridgeTimingFields) (s : State) :
    Changes s (actConfigBridgeTiming f s).state := by
  unfold Machine.actConfigBridgeTiming
  split
  · exact .refl s
  · next b _ =>
    split
    · exact .refl s
    · simp only [State.accepted]
      refine Changes.trans ?_ (Moves.decideGrant _ b).changes
      have h : Changes s ((((s.takePeriod (periodOf f)).onSite
          (fun t => { t with timing := t.timing.write b (bridgeTimingOf f) })).seal).onBridge b (fun x =>
            { x with zeroTimer := (((s.takePeriod (periodOf f)).onSite
              (fun t => { t with timing := t.timing.write b (bridgeTimingOf f) })).seal).zeroTime b })) :=
        (((Changes.takePeriod s _).trans (.takeTiming _ b _ (clampSetting_le (by omega)))).trans (.seal _)).trans
          (.bridge _ b _ (fun _ => ⟨rfl, fun k => k, rfl⟩))
      exact .ite (h.trans (.report _ _)) h

theorem Changes.actConfigStream (f : ConfigStreamFields) (s : State) : Changes s (actConfigStream f s).state := by
  unfold Machine.actConfigStream
  split
  · split
    · exact .refl s
    · refine Changes.trans ?_ (.seal _)
      exact .siteKept s _ (fun _ => rfl) (.inr fun _ => rfl)
  · exact .refl s

theorem Changes.actConfigTimers (f : ConfigTimersFields) (s : State) : Changes s (actConfigTimers f s).state := by
  unfold Machine.actConfigTimers
  split
  · exact .refl s
  · simp only [State.accepted]
    refine Changes.trans ?_ (Moves.testHigh _).changes
    refine Changes.trans ?_ (.onAdm _ _ ⟨rfl, rfl⟩)
    refine Changes.trans ?_ (.seal _)
    exact .siteKept s _ (fun _ => rfl) (.inr fun _ => rfl)

theorem Changes.actTimeSet (v : Word) (s : State) : Changes s (actTimeSet v s).state := by
  unfold Machine.actTimeSet
  split
  · exact .refl s
  · refine Changes.trans ?_ (.seal _)
    exact .one (.retained s _ ⟨fun h => h, rfl, fun h => h, fun h => h, fun h => h, .inr ⟨rfl, rfl, rfl⟩⟩)

/-! ### Calibration -/

theorem State.calibrationGate_closed {s : State} (h : s.calibrationGate = none) : s.metrology.closed = true := by
  unfold State.calibrationGate at h
  cases hc : s.metrology.closed <;> simp_all

theorem Changes.calibrated (s : State) (k : Byte) (i : Option Nat) (h : s.metrology.closed = true) :
    Changes s (s.calibrated k i) := by
  unfold State.calibrated
  refine Changes.trans ?_ (.report _ _)
  refine Changes.trans ?_ (.seal _)
  exact .one (.retained s _ ⟨fun h => h, rfl, fun h => h, fun h => h, fun h => h, .inl h⟩)

theorem Moves.zeroToReference (s : State) (b : BridgeNo) : Moves s (s.zeroToReference b) := by
  unfold State.zeroToReference
  refine .one (.bridge s b _ ⟨.inr ?_, fun k => k, fun k => .inl k⟩)
  simp [BridgeCal.zeroInRange]

/-- What follows the return of the zero to its reference, when a calibration clears a bridge's window (R36). -/
theorem Moves.clearBridge (s : State) (b : BridgeNo) : Moves (s.zeroToReference b) (s.clearBridge b) := by
  unfold State.clearBridge
  refine .ite ?_ (.applyEvaluation _ b _)
  exact .bridge _ b _ (fun _ => ⟨rfl, rfl, .inl rfl⟩)

theorem Changes.reassignChannels (s : State) (old new : Table 16 (Option DeckNo)) :
    Changes s (s.reassignChannels old new) := by
  unfold State.reassignChannels
  exact .forEach (fun c s => .ite (.refl s) (.onChannel s c _)) _ s

theorem Changes.awaitMembers (s : State) (ds : List DeckNo) : Changes s (s.awaitMembers ds) := by
  unfold State.awaitMembers
  exact .forEach (fun c s => .ite (.onChannel s c _) (.refl s)) _ s

theorem Changes.resetDecks (s : State) (ds : List DeckNo) : Changes s (s.resetDecks ds) := by
  unfold State.resetDecks
  exact .forEach (fun d s => .onDeck s d _) _ s

/-- A request changes neither the metrology switch nor the power-fail input by way of changes. -/
theorem Changes.closed {s t : State} (h : Changes s t) : t.metrology.closed = s.metrology.closed := by
  induction h with
  | refl => rfl
  | step _ m ih =>
    rw [← ih]
    cases m <;> first | rfl | assumption | skip
    next h => rw [h.kept.metrology]

theorem Changes.takeDeckMap (s : State) (map : Table 16 (Option DeckNo)) (h : s.metrology.closed = true) :
    Changes s (s.takeDeckMap map) := by
  unfold State.takeDeckMap
  simp only
  refine Changes.trans ?_ (.seal _)
  have k : Changes s ((((s.onSite (fun t => { t with deckMap := map })).reassignChannels s.ret.site.deckMap
      map).awaitMembers (changedDecks s.ret.site.deckMap map)).resetDecks (changedDecks s.ret.site.deckMap map)) := by
    refine Changes.trans ?_ (.resetDecks _ _)
    refine Changes.trans ?_ (.awaitMembers _ _)
    refine Changes.trans ?_ (.reassignChannels _ _ _)
    exact .siteKept s _ (fun _ => rfl) (.inl h)
  refine Changes.trans ?_
    (.forEach (fun b s => ((Moves.zeroToReference s b).trans (.clearBridge s b)).changes) _ _)
  exact k.trans (.calibrated _ _ _ (by rw [k.closed]; exact h))

theorem Changes.actCalDeckMap (d : Table 16 Byte) (s : State) : Changes s (actCalDeckMap d s).state := by
  unfold Machine.actCalDeckMap
  split
  · exact .refl s
  · next h =>
    split
    · exact .refl s
    · split
      · exact .takeDeckMap s _ (State.calibrationGate_closed h)
      · exact .refl s

theorem Changes.takeCell (s : State) (c : ChannelNo) (z : Int) (n : Nat) (h : s.metrology.closed = true) :
    Changes s (s.takeCell c z n) := by
  unfold State.takeCell State.zeroToReference?
  have k : Changes s (s.onRet (fun r =>
      { r with cal := { r.cal with channels := (r.cal.channels.write c { zero := z, span := n, calibrated := true }) } })) :=
    .one (.retained s _ ⟨fun h => h, rfl, fun h => h, fun h => h, fun h => h, .inl h⟩)
  simp only
  split
  · exact k.trans (.calibrated _ _ _ (by rw [k.closed]; exact h))
  · have k' := k.trans (Moves.zeroToReference _ ‹BridgeNo›).changes
    exact k'.trans (.calibrated _ _ _ (by rw [k'.closed]; exact h))

theorem Changes.actCalCell (f : CalCellFields) (s : State) : Changes s (actCalCell f s).state := by
  unfold Machine.actCalCell
  split
  · exact .refl s
  · next h =>
    repeat' split
    all_goals first
      | exact .refl s
      | exact .takeCell s _ _ _ (State.calibrationGate_closed h)

theorem Shape.takeBridgeCal (s : State) (b : BridgeNo) (k : BridgeCal) (h : s.metrology.closed = true) :
    Shape s (s.takeBridgeCal b k) := by
  unfold State.takeBridgeCal
  simp only
  have g : Changes (s.onBridgeCal b (fun _ => k)) (forEach ((s.bridgeCal b).members ++ k.members)
      (fun d s => s.onDeck d Deck.emptied) (s.onBridgeCal b (fun _ => k))) :=
    .forEach (fun d s => .onDeck s d _) _ _
  exact ⟨s, _, .refl s,
    .recalibrate b (fun _ => k) h (g.trans (.calibrated _ 0x12 (some b.val) (by rw [g.closed]; exact h))),
    (Moves.clearBridge _ b).changes.trans (.seal _)⟩

theorem Shape.actCalBridge (f : CalBridgeFields) (s : State) : Shape s (actCalBridge f s).state := by
  unfold Machine.actCalBridge
  split
  · exact .of (.refl s)
  · next h =>
    split
    · split
      · exact .of (.refl s)
      · exact .takeBridgeCal s _ _ (State.calibrationGate_closed h)
    · exact .of (.refl s)

theorem Shape.takeReferenceZero (s : State) (b : BridgeNo) (z : Int) (h : s.metrology.closed = true) :
    Shape s (s.takeReferenceZero b z) := by
  unfold State.takeReferenceZero
  exact ⟨s, _, .refl s, .recalibrate b (fun k => { k with z0 := z }) h (.refl _), .calibrated _ _ _ h⟩

theorem Shape.actCalReferenceZero (f : CalZeroFields) (s : State) : Shape s (actCalReferenceZero f s).state := by
  unfold Machine.actCalReferenceZero
  split
  · exact .of (.refl s)
  · next h =>
    repeat' split
    all_goals first
      | exact .of (.refl s)
      | exact .takeReferenceZero s _ _ (State.calibrationGate_closed h)

/-! ### Lanes, barriers, bridges, channels -/

theorem Moves.takeUp (s : State) (l : LaneNo) (v : Visit) : Moves s (s.takeUp l v) :=
  .onVisit s _ _ (fun _ => ⟨rfl, rfl⟩)

theorem Moves.arriveOutbound (s : State) (l : LaneNo) (tag : Word) : Moves s (s.arriveOutbound l tag) := by
  unfold State.arriveOutbound
  split
  · exact .refuseVehicle s l _ _
  · exact (Moves.takeUp s l _).trans (.enterAwaitBridge _ l _)

theorem Moves.arriveBypass (s : State) (l : LaneNo) (tag : Word) : Moves s (s.arriveBypass l tag) := by
  unfold State.arriveBypass
  split
  · exact .refuseVehicle s l _ _
  · simp only
    refine Moves.trans ?_ (.enterState _ l _ _)
    refine Moves.trans ?_ (.raiseFront _ l)
    refine Moves.trans ?_ (.lane _ l _ (fun _ => ⟨rfl, rfl, rfl⟩))
    refine Moves.trans ?_ (.onVisit _ _ _ (fun _ => ⟨rfl, rfl⟩))
    exact .takeUp s l _

theorem Moves.takeArrival (s : State) (l : LaneNo) (tag : Word) (k : StreamNo) : Moves s (s.takeArrival l tag k) := by
  have h : Moves s (s.onLane l (fun n =>
      { n with identityTimer := .stopped, identity := some { tag := tag, stream := k } })) :=
    .lane s l _ (fun _ => ⟨rfl, rfl, rfl⟩)
  unfold State.takeArrival
  simp only
  split
  · exact h
  · exact h.trans (.decideAdmission _ l _ _)
  · exact h.trans (.arriveOutbound _ l _)
  · exact h.trans (.arriveBypass _ l _)

theorem Changes.actArrival (l : Byte) (tag : Word) (k : Byte) (s : State) : Changes s (actArrival l tag k s).state := by
  unfold Machine.actArrival
  repeat' split
  all_goals first
    | exact .refl s
    | exact (Moves.takeArrival s _ tag _).changes.trans (.seal _)

theorem Changes.actLaneTakeover (l : Byte) (s : State) : Changes s (actLaneTakeover l s).state := by
  unfold Machine.actLaneTakeover
  repeat' split
  all_goals first
    | exact .refl s
    | exact (Moves.takeOver s _).changes.trans (.seal _)

theorem Moves.leaveManual (s : State) (l : LaneNo) : Moves s (s.leaveManual l) := by
  unfold State.leaveManual
  exact .ite (.enterState s l _ _) (.comeToIdle s l)

theorem Changes.actLaneRelease (l : Byte) (s : State) : Changes s (actLaneRelease l s).state := by
  unfold Machine.actLaneRelease
  repeat' split
  all_goals first
    | exact .refl s
    | exact ((Moves.forEach (fun b s => Moves.commandLower s b) _ s).trans (.leaveManual _ _)).changes

theorem Changes.actLaneRetry (l : Byte) (s : State) : Changes s (actLaneRetry l s).state := by
  unfold Machine.actLaneRetry
  repeat' split
  all_goals first
    | exact .refl s
    | exact ((Moves.startOwnCapture s _).trans (.enterState _ _ _ _)).changes.trans (.seal _)

theorem Changes.actLaneBackout (l : Byte) (s : State) : Changes s (actLaneBackout l s).state := by
  unfold Machine.actLaneBackout
  repeat' split
  all_goals first
    | exact .refl s
    | exact ((Moves.raiseFront s _).trans (.enterState _ _ _ _)).changes

theorem barrierCommandOf_moves {c : Byte} {g : State → BarrierNo → State} (h : barrierCommandOf c = some g) (s : State)
    (b : BarrierNo) : Moves s (g s b) := by
  unfold barrierCommandOf at h
  repeat' split at h
  all_goals first
    | (injection h with h; subst h; first | exact .commandRaise s b | exact .commandLower s b)
    | simp at h

theorem Changes.actBarrierCommand (l b c : Byte) (s : State) : Changes s (actBarrierCommand l b c s).state := by
  unfold Machine.actBarrierCommand
  split
  · next hg =>
    repeat' split
    all_goals first
      | exact .refl s
      | exact (barrierCommandOf_moves hg s _).changes
  · exact .refl s

theorem Changes.resetBarrier (s : State) (b : BarrierNo) : Changes s (s.resetBarrier b) := by
  unfold State.resetBarrier
  have h : Changes s (s.onBarrier b Barrier.reset) := .barrier s b _ (fun x hx => x.reset_lowerOk hx)
  exact .ite (.ite h ((h.trans (Moves.barrierSettled _ b).changes).trans (.seal _))) (.refl s)

theorem Changes.actBarrierReset (b : Byte) (s : State) : Changes s (actBarrierReset b s).state := by
  unfold Machine.actBarrierReset
  split
  · exact .refl s
  · exact .resetBarrier s _

theorem Changes.actZeroNow (b : Byte) (s : State) : Changes s (actZeroNow b s).state := by
  unfold Machine.actZeroNow
  split
  · exact .refl s
  · next b _ =>
    split
    · exact .refl s
    · next h =>
      refine Changes.trans ?_ (Moves.decideGrant _ b).changes
      refine .one (.move (.bridge s b _ ⟨.inr ?_, fun _ => Nat.zero_le _, fun k => .inl k⟩))
      unfold State.zeroNowRefusal at h
      repeat' split at h
      all_goals simp_all [Bridge.zeroTaken]

theorem Changes.actZeroWaive (b : Byte) (s : State) : Changes s (actZeroWaive b s).state := by
  unfold Machine.actZeroWaive
  split
  · exact .refl s
  · refine Changes.trans ?_ (Moves.decideGrant _ _).changes
    exact .bridge s _ _ (fun x => ⟨rfl, fun _ => Nat.zero_le _, rfl⟩)

theorem Changes.clearStalls (s : State) (cs : List ChannelNo) : Changes s (s.clearStalls cs) := by
  unfold State.clearStalls
  exact .forEach (fun c s => .onChannel s c _) _ s

theorem Changes.actChannelClear (x : Selector) (s : State) : Changes s (actChannelClear x s).state := by
  unfold Machine.actChannelClear
  repeat' split
  all_goals simp only [State.accepted_state, State.refused_state]
  · exact .refl s
  · exact .clearStalls s _
  · exact .clearStalls s _

/-! ### Permits and refusals -/

theorem Changes.installAnswer (s : State) (n : Bool) (a : Answer) : Changes s (s.installAnswer n a) := by
  unfold State.installAnswer
  split
  · exact .refl s
  · exact .ite (.refl s) (.one (.move (.adm s _ (fun k => k.install _))))

theorem Moves.decideByAnswer (s : State) (l : LaneNo) (a : Answer) : Moves s (s.decideByAnswer l a).1 := by
  have h : Moves s ((s.onSlot l (fun _ => .vacant)).onLane l (fun n => { n with query := none })) := by
    refine Moves.trans ?_ (.lane _ l _ (fun _ => ⟨rfl, rfl, rfl⟩))
    exact .onSlot s l _
  unfold State.decideByAnswer
  simp only
  split
  · exact h.trans (.refuseVehicle _ l _ _)
  · exact h.trans (.decideByPermit _ l _ _ _)

theorem Changes.timelyAnswer (s : State) (l : LaneNo) (a : Answer) : Changes s (s.timelyAnswer l a).state := by
  unfold State.timelyAnswer
  simp only
  split
  · simp only [State.accepted_state]
    refine Changes.trans ?_ (.onSlot _ l _)
    exact .installAnswer s _ a
  · exact ((Changes.installAnswer s _ a).trans (Moves.decideByAnswer _ l a).changes).trans (.seal _)

theorem Changes.takeAccount (s : State) (v : Visit) (a : Answer) : Changes s (s.takeAccount v a) := by
  unfold State.takeAccount
  split
  · exact .refl s
  · refine Changes.trans ?_ (.seal _)
    refine Moves.changes ?_
    exact .onVisit s _ _ (fun _ => ⟨rfl, rfl⟩)

theorem Changes.lateAnswer (s : State) (l : LaneNo) (a : Answer) : Changes s (s.lateAnswer l a).state := by
  unfold State.lateAnswer
  simp only
  split
  · exact .installAnswer s _ a
  · have h := fun v => (Changes.installAnswer s (s.slot l).noInstall a).trans (.takeAccount _ v a)
    split
    · exact h _
    · exact (h _).trans (.report _ _)

theorem Changes.takeAnswer (s : State) (l : LaneNo) (a : Answer) : Changes s (s.takeAnswer l a).state := by
  unfold State.takeAnswer
  repeat' split
  all_goals first
    | exact .refl s
    | exact .timelyAnswer s l a
    | exact .lateAnswer s l a

theorem Changes.actPermitAnswer (f : PermitAnswerFields) (s : State) : Changes s (actPermitAnswer f s).state := by
  unfold Machine.actPermitAnswer
  repeat' split
  all_goals first
    | exact .refl s
    | exact .takeAnswer s _ _

theorem Changes.actInvalidate (c : Byte) (a : Half) (t : Word) (s : State) : Changes s (actInvalidate c a t s).state := by
  unfold Machine.actInvalidate State.invalidate
  repeat' split
  all_goals simp only [State.accepted_state, State.refused_state]
  all_goals first
    | exact .refl s
    | exact .one (.move (.adm s _ (fun k => (k.removeWhere _).same rfl rfl)))

theorem Changes.actCreditSet (a : Half) (c : Word) (x : Byte) (s : State) : Changes s (actCreditSet a c x s).state := by
  unfold Machine.actCreditSet
  split
  · exact .refl s
  · simp only [State.accepted_state]
    exact .one (.move (.adm s _ (fun k => k.setStanding _ _ _)))

theorem Changes.actRefusalClear (r o : Byte) (s : State) : Changes s (actRefusalClear r o s).state := by
  unfold Machine.actRefusalClear
  split
  · exact .refl s
  · have h : Changes s (s.onAdm (fun a => a.freeRecords r)) :=
      .one (.move (.adm s _ (fun k => k.freeRecords r)))
    exact Changes.ite (h.trans (.onAdm _ _ ⟨rfl, rfl⟩)) h

theorem Changes.unmask (s : State) : Changes s s.unmask := by
  unfold State.unmask
  have h : Changes s (s.onAdm (fun a => { a with mask := false })) := .onAdm s _ ⟨rfl, rfl⟩
  exact .ite ((h.trans (.report _ _)).trans (.onAdm _ _ ⟨rfl, rfl⟩)) h

theorem Changes.actRefusalMask (x : Byte) (s : State) : Changes s (actRefusalMask x s).state := by
  unfold Machine.actRefusalMask
  repeat' split
  all_goals simp only [State.accepted_state, State.refused_state]
  all_goals first
    | exact .refl s
    | exact .unmask s
    | exact .onAdm s _ ⟨rfl, rfl⟩

/-! ### Visits, tares, tickets -/

theorem Moves.visitTakenAway (s : State) (l : LaneNo) : Moves s (s.visitTakenAway l) := by
  have h : Moves s (s.clearLaneVisit l) := .lane s l _ (fun _ => ⟨rfl, rfl, rfl⟩)
  unfold State.visitTakenAway
  split
  · exact (((Moves.withdrawRequest s l).trans (.releaseGrant _ l)).trans (.clearVehicle _ l)).trans (.enterState _ l _ _)
  all_goals first
    | exact h.trans (.takeOver _ l)
    | exact h
    | exact .refl s

theorem Moves.cancelVisit (s : State) (v : Visit) : Moves s (s.cancelVisit v) := by
  unfold State.cancelVisit
  simp only
  refine Moves.trans ?_ (.serveFreed _)
  split
  · exact .without s _
  · exact (Moves.without s _).trans (.visitTakenAway _ _)

theorem Changes.cancelFound (s : State) (v : Option Visit) : Changes s (s.cancelFound v).state := by
  unfold State.cancelFound
  repeat' split
  all_goals first
    | exact .refl s
    | exact (Moves.cancelVisit s _).changes.trans (.seal _)

theorem Changes.actVisitCancel (k : Byte) (o : Word) (s : State) : Changes s (actVisitCancel k o s).state := by
  unfold Machine.actVisitCancel
  repeat' split
  all_goals first
    | exact .refl s
    | exact .cancelFound s _

theorem Changes.actTareWrite (f : TareWriteFields) (s : State) : Changes s (actTareWrite f s).state := by
  unfold Machine.actTareWrite
  repeat' split
  all_goals first
    | exact .refl s
    | exact (Moves.placeTare s _).changes.trans (.seal _)

theorem Changes.actTareDelete (t : Word) (s : State) : Changes s (actTareDelete t s).state := by
  have h : ∀ i, Changes s ((s.onRet (fun r => { r with tares := r.tares.write i none })).seal) := fun i => by
    refine Changes.trans ?_ (.seal _)
    exact .one (.retained s _ ⟨fun h => h, rfl, fun h => h, fun h => h, fun h => h.freed i, .inr ⟨rfl, rfl, rfl⟩⟩)
  unfold Machine.actTareDelete
  repeat' split
  all_goals first
    | exact .refl s
    | exact h _

theorem markCollected_length (k : Nat) (ts : List Ticket) : (markCollected k ts).length = ts.length := by
  induction ts generalizing k with
  | nil => cases k <;> rfl
  | cons t ts ih => cases k <;> simp [markCollected, ih]

theorem markCollected_numbers (k : Nat) (ts : List Ticket) :
    (markCollected k ts).map (·.number) = ts.map (·.number) := by
  induction ts generalizing k with
  | nil => cases k <;> rfl
  | cons t ts ih => cases k <;> simp [markCollected, ih]

theorem consecutive_of_numbers {ts us : List Ticket} (h : us.map (·.number) = ts.map (·.number)) (k : Consecutive ts) :
    Consecutive us := by
  induction ts generalizing us with
  | nil =>
    have : us = [] := by simpa using h
    subst this
    trivial
  | cons a rest ih =>
    cases us with
    | nil => trivial
    | cons x us =>
      cases us with
      | nil => trivial
      | cons y us =>
        cases rest with
        | nil => simp at h
        | cons b rest =>
          simp only [List.map_cons, List.cons.injEq] at h
          exact ⟨by rw [h.2.1, h.1]; exact k.1, ih (by simp [h.2.1, h.2.2]) k.2⟩

theorem markCollected_run (k : Nat) (ts : List Ticket)
    (h : ts.Pairwise (fun a b => b.collected = true → a.collected = true)) :
    (markCollected k ts).Pairwise (fun a b => b.collected = true → a.collected = true) := by
  induction ts generalizing k with
  | nil => cases k <;> exact .nil
  | cons t ts ih =>
    cases k with
    | zero => exact h
    | succ k => exact .cons (fun _ _ _ => rfl) (ih k (List.Pairwise.of_cons h))

/-- A collection keeps the journal sound (R174, R176). -/
theorem JournalStore.collect_sound (j : JournalStore) (n : Nat) (h : j.Sound) : (j.collect n).Sound := by
  refine ⟨?_, consecutive_of_numbers (markCollected_numbers _ _) h.consecutive, fun m e => h.counter m ?_,
    markCollected_run _ _ h.run⟩
  · simpa [JournalStore.collect, markCollected_length] using h.size
  · unfold JournalStore.newest at e ⊢
    rw [← List.getLast?_map] at e ⊢
    simpa [JournalStore.collect, markCollected_numbers] using e

theorem Moves.collectTickets (s : State) (n : Nat) : Moves s (s.collectTickets n) := by
  have h : Moves s (s.onJournal (fun j => j.collect n)) :=
    .one (.journal s _ (fun h => JournalStore.collect_sound _ n h))
  unfold State.collectTickets
  exact ((Moves.ite (h.trans (.one (.marks _ _))) h).trans (.testHigh _)).trans (.drain _)

theorem Changes.actTicketCollect (n : Word) (s : State) : Changes s (actTicketCollect n s).state := by
  unfold Machine.actTicketCollect
  repeat' split
  all_goals first
    | exact .refl s
    | exact (Moves.collectTickets s _).changes.trans (.seal _)

/-- A ticket base set on an empty journal keeps it sound (R180). -/
theorem JournalStore.base_sound (j : JournalStore) (n : Nat) (h : j.tickets = []) :
    JournalStore.Sound { j with counter := n, held := false } := by
  refine ⟨by simp [h], by simp [h, Consecutive], fun m e => ?_, by simp [h]⟩
  simp [JournalStore.newest, h] at e

theorem Changes.actTicketBase (n : Word) (s : State) : Changes s (actTicketBase n s).state := by
  unfold Machine.actTicketBase
  split
  · exact .refl s
  · split
    · exact .refl s
    · next he =>
      split
      · exact .refl s
      · have h : Moves s ((s.onJournal (fun j => { j with counter := n.toNat, held := false })).drain) := by
          refine Moves.trans ?_ (.drain _)
          exact .one (.journal s _ (fun _ => JournalStore.base_sound _ _ (by simpa using he)))
        exact h.changes.trans (.seal _)

theorem Changes.actRead (s : State) (r : Request) (h : (act r s).state = s) : Changes s (act r s).state := by
  rw [h]
  exact .refl s

theorem act_weightRead (x : Selector) (s : State) : (actWeightRead x s).state = s := by
  unfold actWeightRead
  repeat' split
  all_goals rfl

theorem act_channelRead (x : Selector) (s : State) : (actChannelRead x s).state = s := by
  unfold actChannelRead
  repeat' split
  all_goals rfl

theorem act_visitRead (k : Byte) (o : Word) (s : State) : (actVisitRead k o s).state = s := by
  unfold actVisitRead State.visitReply
  repeat' split
  all_goals rfl

theorem act_tareRead (k : Byte) (o : Word) (s : State) : (actTareRead k o s).state = s := by
  unfold actTareRead
  repeat' split
  all_goals rfl

theorem act_ticketRead (n : Word) (s : State) : (actTicketRead n s).state = s := by
  unfold actTicketRead
  repeat' split
  all_goals rfl

/-- What any request can do. -/
theorem Shape.act (r : Request) (s : State) : Shape s (act r s).state := by
  cases r
  case calBridge f => exact .actCalBridge f s
  case calReferenceZero f => exact .actCalReferenceZero f s
  all_goals refine Shape.of ?_
  case identify => exact .refl s
  case statusRead => exact .lost s (fun k => { k with reportsLost := false }) (fun _ => ⟨rfl, rfl, rfl⟩)
  case reset => exact .refl s
  case configLane f => exact .actConfigLane f s
  case configBridgeTiming f => exact .actConfigBridgeTiming f s
  case configStream f => exact .actConfigStream f s
  case configTimers f => exact .actConfigTimers f s
  case calDeckMap d => exact .actCalDeckMap d s
  case calCell f => exact .actCalCell f s
  case timeSet v => exact .actTimeSet v s
  case arrival l t k => exact .actArrival l t k s
  case laneTakeover l => exact .actLaneTakeover l s
  case laneRelease l => exact .actLaneRelease l s
  case laneRetry l => exact .actLaneRetry l s
  case laneBackout l => exact .actLaneBackout l s
  case barrierCommand l b c => exact .actBarrierCommand l b c s
  case barrierReset b => exact .actBarrierReset b s
  case weightRead x => exact .actRead s _ (act_weightRead x s)
  case zeroNow b => exact .actZeroNow b s
  case zeroWaive b => exact .actZeroWaive b s
  case channelRead x => exact .actRead s _ (act_channelRead x s)
  case channelClear x => exact .actChannelClear x s
  case permitAnswer f => exact .actPermitAnswer f s
  case invalidate c a t => exact .actInvalidate c a t s
  case creditSet a c x => exact .actCreditSet a c x s
  case cacheRead => exact .refl s
  case refusalRead => exact .refl s
  case refusalClear r o => exact .actRefusalClear r o s
  case refusalMask x => exact .actRefusalMask x s
  case visitRead k o => exact .actRead s _ (act_visitRead k o s)
  case visitCancel k o => exact .actVisitCancel k o s
  case tareWrite f => exact .actTareWrite f s
  case tareDelete t => exact .actTareDelete t s
  case tareRead k o => exact .actRead s _ (act_tareRead k o s)
  case ticketRead n => exact .actRead s _ (act_ticketRead n s)
  case ticketCollect n => exact .actTicketCollect n s
  case ticketBase n => exact .actTicketBase n s

end Sys2Proof.Machine
end

