-- ==== Sys2Proof/Laws/Commands.lean ====
section
/-! SUPPORT. What any command and any step can do to a state: the one inversion from which every invariant of a step
follows. -/

namespace Sys2Proof.Machine

/-! ### The link unit -/

theorem Shape.takeFrame (s : State) (f : LinkFrame) : Shape s (s.takeFrame f) := by
  unfold State.takeFrame
  split
  · exact .of (.setReply s _)
  · exact .of (.setReply s _)
  · exact (Shape.act _ s).after (.setReply _ _)

theorem Shape.takeNext (s : State) : Shape s s.takeNext := by
  unfold State.takeNext
  split
  · exact .of (.refl s)
  · split
    · exact .of (.refl s)
    · next f rest hq =>
      refine Shape.before ?_ (.takeFrame _ f)
      refine .one (.link s _ (fun h => ?_))
      have := h.1
      rw [hq] at this
      simp at this
      exact ⟨by simp; omega, h.2⟩

theorem Shape.queueFrame (s : State) (f : LinkFrame) : Shape s (s.queueFrame f) := by
  unfold State.queueFrame
  split
  · next hl =>
    refine Shape.before ?_ (.takeNext _)
    exact .one (.link s _ (fun h => ⟨by simp; omega, h.2⟩))
  · split
    · next hl =>
      exact .of (.one (.link s _ (fun h => ⟨h.1, by simp; omega, h.2.2⟩)))
    · exact .of (.refl s)

theorem Shape.frameArrives (s : State) (f : LinkFrame) : Shape s (s.frameArrives f) := by
  unfold State.frameArrives
  refine Shape.before ?_ (.queueFrame _ f)
  exact .lost s _ (fun _ => ⟨rfl, rfl, rfl⟩)

theorem Shape.run {s t : State} {f : State → State} (hf : Shape s (f s)) (h : s.run f = .next t) : Shape s t := by
  unfold State.run at h
  injection h with h
  subst h
  split
  · exact hf.after (.transmit _)
  · exact .of (.refl s)

theorem Shape.runPins {s t : State} {p : Pins → Pins} {f : State → State} (hf : ∀ s, Shape s (f s))
    (h : s.runPins p f = .next t) : Shape s t := by
  unfold State.runPins at h
  injection h with h
  subst h
  split
  · exact Shape.before (.onPins s p) ((hf _).after (.transmit _))
  · exact .of (.onPins s p)

theorem Shape.receive (s : State) {t : State} (r : Request) (h : s.receive r = .next t) : Shape s t :=
  Shape.run (.frameArrives s _) h

theorem Shape.hunt (s : State) : Shape s (s.onLink (fun k => { k with receiver := .hunting })) :=
  .of (.lost s _ (fun _ => ⟨rfl, rfl, rfl⟩))

theorem Shape.collect (s : State) (bytes : List Byte) :
    Shape s (s.onLink (fun k => { k with receiver := .collecting bytes })) :=
  .of (.lost s _ (fun _ => ⟨rfl, rfl, rfl⟩))

theorem Shape.judgeFrame (s : State) (bytes : List Byte) (n : Nat) : Shape s (s.judgeFrame bytes n) := by
  unfold State.judgeFrame
  simp only
  split
  · split
    · exact .frameArrives s _
    · exact .hunt s
  · exact .hunt s

theorem Shape.hostByte (s : State) (b : Byte) (e : Bool) : Shape s (s.hostByte b e) := by
  unfold State.hostByte State.collectByte
  repeat' split
  all_goals first
    | exact .of (.refl s)
    | exact .hunt s
    | exact .collect s _
    | exact .judgeFrame s _ _

theorem Shape.replySent (s : State) (r : Reply) : Shape s (s.replySent r) := by
  have h : Changes s (s.onLink (fun k => { k with current := none })) := .lost s _ (fun _ => ⟨rfl, rfl, rfl⟩)
  unfold State.replySent
  simp only
  split
  · exact ⟨_, _, h, .reset _ .request, .refl _⟩
  · exact .before h (.takeNext _)

theorem Shape.endTransmission (s : State) : Shape s s.endTransmission := by
  unfold State.endTransmission
  split
  · exact .of (.refl s)
  · next f _ =>
    refine Shape.before (.lost s (fun k => { k with sending := none }) (fun _ => ⟨rfl, rfl, rfl⟩)) ?_
    unfold State.frameSent
    split
    · exact .replySent _ _
    · refine .of (.one (.link _ _ (fun h => ⟨h.1, ?_, h.2.2⟩)))
      have := h.2.1
      simp
      simp at this
      omega
    · exact .of (.lost _ _ (fun _ => ⟨rfl, rfl, rfl⟩))
    · exact .of (.refl _)

/-! ### Power -/

theorem Moves.failCapture (s : State) (b : BridgeNo) : Moves s (s.failCapture b) := by
  unfold State.failCapture
  split
  · exact .refl s
  · exact .ite ((Moves.cancelCaptureOn s b _).trans (.enterState _ _ _ _)) (.cancelCaptureOn s b _)

@[simp] theorem State.enterState_bridge (s : State) (l : LaneNo) (st : LaneState) (r : Option Reason) (b : BridgeNo) :
    (s.enterState l st r).bridge b = s.bridge b := by
  unfold State.enterState
  split <;> rfl

@[simp] theorem State.onVisit_bridge (s : State) (n : Nat) (f : Visit → Visit) (b : BridgeNo) :
    (s.onVisit n f).bridge b = s.bridge b := rfl

theorem State.failCapture_capture (s : State) (b c : BridgeNo) :
    ((s.failCapture b).bridge c).capture = if b = c then none else (s.bridge c).capture := by
  have h : ((s.cancelCaptureOn b .powerFail).bridge c).capture = if b = c then none else (s.bridge c).capture := by
    unfold State.cancelCaptureOn
    split
    · split
      · next e h => subst h; exact e
      · rfl
    · simp only [State.returnVisit]
      unfold State.dropCapture
      by_cases h : b = c
      · subst h; simp
      · simp [h, State.bridge, State.onBridge, Table.read_write_other _ _ h]
  unfold State.failCapture
  split
  · split
    · next e h => subst h; exact e
    · rfl
  · simp only
    split
    · simpa using h
    · exact h

theorem State.failAll_capture (s : State) (c : BridgeNo) :
    ((forEach allFour (fun b s => s.failCapture b) s).bridge c).capture = none := by
  simp only [forEach, allFour, List.foldl, State.failCapture_capture]
  fin_cases c <;> simp

theorem Shape.powerFailing (s : State) : Shape s s.powerFailing := by
  unfold State.powerFailing
  split
  · next h => exact .of (.one (.powerFail s _ (fun _ => h)))
  · simp only
    refine ⟨s, _, .refl s, .halt (Moves.forEach (fun b s => .failCapture s b) allFour _) ?_,
      (Changes.seal _).trans (.report _ _)⟩
    intro b
    exact State.failAll_capture _ b

theorem PowerFail.inputInactive_asserted (p : PowerFail) : p.inputInactive.asserted = p.asserted := by
  unfold PowerFail.inputInactive
  split <;> rfl

theorem Moves.retest (s : State) (l : LaneNo) : Moves s (s.retest l) := by
  unfold State.retest
  simp only
  split
  · exact .leaveBeforeEntry s l
  · split
    · next h => exact .ite (.enterEntering s l (by rw [h]; decide)) (.refl s)
    · exact .ite (.enterState s l _ _) (.refl s)
    · exact .ite (.entryExpired s l) (.testLane s l)
    · exact .ite ((Moves.passRear s l).trans (.testLane _ l)) (.refl s)
    · exact .testTakeover s l
    · exact .comeToIdle s l
    · exact .testLane s l

theorem Moves.takeUpSlot (s : State) (l : LaneNo) : Moves s (s.takeUpSlot l) := by
  unfold State.takeUpSlot
  split
  · split
    · exact .decideByAnswer s l _
    · exact .ite (.queryTimedOut s l) (.refl s)
  · exact .refl s

theorem Changes.powerRestored (s : State) : Changes s s.powerRestored := by
  unfold State.powerRestored
  refine Changes.trans ?_ (.seal _)
  refine Changes.trans
    (.one (.powerFail s { asserted := false, filter := none } (fun h => absurd h (by decide)))) ?_
  refine Moves.changes ?_
  refine Moves.trans ?_ (.drain _)
  refine Moves.trans ?_ (.forEach (fun l s => .takeUpSlot s l) _ _)
  refine Moves.trans ?_ (.forEach (fun b s => .decideGrant s b) _ _)
  exact .forEach (fun l s => .retest s l) _ _

/-! ### Reset -/

@[simp] theorem tabulate_read {n : Nat} {α : Type} (f : Fin n → α) (i : Fin n) : (tabulate f).read i = f i := by
  simp [tabulate, Table.read, Vector.get_eq_getElem]

/-- The start-up reports, the high-water test and the drain at release are changes like any others (R197). -/
theorem Moves.started (s : State) (c : ResetCause) (kept : Bool) : Moves s (s.started c kept) := by
  have h1 : Moves s (s.report (.resetDone c kept s.laneHold s.ret.calCounter)) := .one (.report s _)
  have h2 : ∀ t, Moves s t → Moves s (if kept then t else t.report .backupLost) := fun t h => .ite h (h.step (.report _ _))
  have h3 : ∀ t : State, Moves s t → Moves s (if t.failing then t.report (.powerFail t.ret.clock 0) else t) :=
    fun t h => .ite (h.step (.report _ _)) h
  have h4 : ∀ t : State, Moves s t → Moves s t.reportFaults.testHigh := fun t h => by
    refine Moves.trans (h.trans ?_) (.testHigh _)
    exact .forEach (fun b s => .ite (.one (.report s _)) (.refl s)) _ _
  have h5 : ∀ t : State, Moves s t → Moves s (if kept then t.drain.seal else t) :=
    fun t h => .ite ((h.trans (.drain _)).step (.seal _)) h
  unfold State.started
  exact h5 _ (h4 _ (h3 _ (h2 _ h1)))

/-- A property that each change keeps, that holds after the bare reset and that the other special changes keep, is kept by
every special change. -/
theorem Special.keep {P : State → Prop} (hC : ∀ {s t}, Change s t → P s → P t)
    (hsw : ∀ s m, P s → P { s with metrology := m })
    (hrec : ∀ (s u : State) (b : BridgeNo) (f : BridgeCal → BridgeCal), P s → s.metrology.closed = true →
      Changes (s.onBridgeCal b f) u → P (u.zeroToReference b))
    (hpf : ∀ s p, P s → P { s with powerFail := p })
    (hbare : ∀ (s : State) (r : Retained), P s → (r = s.ret ∨ r = s.ret.checked) →
      ∀ powered, P { s.bare r with powered := powered })
    {s t : State} (h : Special s t) (hs : P s) : P t := by
  cases h with
  | none => exact hs
  | switch m => exact hsw _ _ hs
  | recalibrate b f hc h => exact hrec _ _ b f hs hc h
  | halt h _ => exact h.keep (fun m => hC (.move m)) (hpf _ _ hs)
  | reset c => exact (Moves.started _ _ _).keep (fun m => hC (.move m)) (hbare s _ hs (.inr rfl) true)
  | dark => exact hbare s _ hs (.inl rfl) false

/-! ### Every command -/

/-- What any command can do. -/
theorem Shape.exec (c : Instr) (s t : State) (h : exec c s = .next t) : Shape s t := by
  cases c
  case identify => exact .receive s _ h
  case statusRead => exact .receive s _ h
  case reset => exact .receive s _ h
  case configLane _ => exact .receive s _ h
  case configBridgeTiming _ => exact .receive s _ h
  case configStream _ => exact .receive s _ h
  case configTimers _ => exact .receive s _ h
  case calDeckMap _ => exact .receive s _ h
  case calCell _ => exact .receive s _ h
  case calBridge _ => exact .receive s _ h
  case calReferenceZero _ => exact .receive s _ h
  case timeSet _ => exact .receive s _ h
  case arrival _ _ _ => exact .receive s _ h
  case laneTakeover _ => exact .receive s _ h
  case laneRelease _ => exact .receive s _ h
  case laneRetry _ => exact .receive s _ h
  case laneBackout _ => exact .receive s _ h
  case barrierCommand _ _ _ => exact .receive s _ h
  case barrierReset _ => exact .receive s _ h
  case weightRead _ => exact .receive s _ h
  case zeroNow _ => exact .receive s _ h
  case zeroWaive _ => exact .receive s _ h
  case channelRead _ => exact .receive s _ h
  case channelClear _ => exact .receive s _ h
  case permitAnswer _ => exact .receive s _ h
  case invalidate _ _ _ => exact .receive s _ h
  case creditSet _ _ _ => exact .receive s _ h
  case cacheRead => exact .receive s _ h
  case refusalRead => exact .receive s _ h
  case refusalClear _ _ => exact .receive s _ h
  case refusalMask _ => exact .receive s _ h
  case visitRead _ _ => exact .receive s _ h
  case visitCancel _ _ => exact .receive s _ h
  case tareWrite _ => exact .receive s _ h
  case tareDelete _ => exact .receive s _ h
  case tareRead _ _ => exact .receive s _ h
  case ticketRead _ => exact .receive s _ h
  case ticketCollect _ => exact .receive s _ h
  case ticketBase _ => exact .receive s _ h
  case hostFrameReceived k p =>
    simp only [Machine.exec, execHostFrameReceived] at h
    refine Shape.run ?_ h
    split
    · exact .frameArrives s _
    · exact .hunt s
  case hostFrameGapTimeout =>
    simp only [Machine.exec, execHostFrameGapTimeout] at h
    exact Shape.run (.hunt s) h
  case transmitFrameEnd =>
    simp only [Machine.exec, execTransmitFrameEnd] at h
    exact Shape.run (.endTransmission s) h
  case sampleArrival c n st =>
    simp only [Machine.exec, execSampleArrival] at h
    exact Shape.run (.of (.sampleArrives s c _ st)) h
  case cellFrameGapTimeout c =>
    simp only [Machine.exec, execCellFrameGapTimeout] at h
    exact Shape.run (.of (.setReceiver s c _)) h
  case stallTimerExpiry c =>
    simp only [Machine.exec, execStallTimerExpiry] at h
    exact Shape.run (.of (.stallExpired s c)) h
  case freshnessExpiry d =>
    simp only [Machine.exec, execFreshnessExpiry] at h
    exact Shape.run (.of (.freshnessExpired s d)) h
  case zeroTimerExpiry b =>
    simp only [Machine.exec, execZeroTimerExpiry] at h
    exact Shape.run (.of (.zeroTimerExpired s b)) h
  case captureDeadlineExpiry b =>
    simp only [Machine.exec, execCaptureDeadlineExpiry] at h
    exact Shape.run (.of (.captureExpired s b)) h
  case motionTimerExpiry b =>
    simp only [Machine.exec, execMotionTimerExpiry] at h
    exact Shape.run (.of (.motionExpired s b)) h
  case identityTimerExpiry l =>
    simp only [Machine.exec, execIdentityTimerExpiry] at h
    exact Shape.run (.of (.identityExpired s l)) h
  case entryTimerExpiry l =>
    simp only [Machine.exec, execEntryTimerExpiry] at h
    exact Shape.run (.of (.entryTimerExpired s l)) h
  case agingTimerExpiry =>
    simp only [Machine.exec, execAgingTimerExpiry] at h
    exact Shape.run (.of (.one (.move (.adm s _ (fun k => k.aged _))))) h
  case queryDeadlineExpiry l =>
    simp only [Machine.exec, execQueryDeadlineExpiry] at h
    exact Shape.run (.of (.deadlineExpired s l)) h
  case clockTick =>
    simp only [Machine.exec, execClockTick] at h
    injection h with h
    subst h
    exact .of (.one (.retained s _ ⟨fun h => h, rfl, fun h => h, fun h => h, fun h => h, .inr ⟨rfl, rfl, rfl⟩⟩))
  case metrologyInputChange b =>
    simp only [Machine.exec, execMetrologyInputChange] at h
    refine Shape.runPins (fun u => ?_) h
    split
    · exact .of (.refl u)
    · exact .of (.one (.metrology u _ rfl))
  case metrologySwitchChange =>
    simp only [Machine.exec, execMetrologySwitchChange] at h
    refine Shape.run ?_ h
    exact ⟨s, _, .refl s, .switch s _, .refl _⟩
  case endSwitchInputChange b w a =>
    simp only [Machine.exec, execEndSwitchInputChange] at h
    refine Shape.runPins (fun u => ?_) h
    split
    · exact .of (.refl u)
    · exact .of (.barrierKept u b _ (fun x => x.switchInput_kept w a))
  case endSwitchChange b w =>
    simp only [Machine.exec, execEndSwitchChange] at h
    exact Shape.run (.of (.switchHeld s b w)) h
  case safetyLoopOccupied b i =>
    simp only [Machine.exec, execSafetyLoopOccupied] at h
    exact Shape.runPins (fun u => .of (.safetyActive u b)) h
  case safetyLoopInputInactive b =>
    simp only [Machine.exec, execSafetyLoopInputInactive] at h
    exact Shape.runPins (fun u => .of (.barrierKept u b _ (fun x => x.inputsInactive_kept))) h
  case safetyLoopClear b =>
    simp only [Machine.exec, execSafetyLoopClear] at h
    exact Shape.run (.of (.safetyClear s b)) h
  case approachLoopOccupied a i =>
    simp only [Machine.exec, execApproachLoopOccupied] at h
    exact Shape.runPins (fun u => .of (.approachActive u a)) h
  case approachLoopInputInactive a =>
    simp only [Machine.exec, execApproachLoopInputInactive] at h
    exact Shape.runPins (fun u => .of (.onLoop u a _)) h
  case approachLoopClear a =>
    simp only [Machine.exec, execApproachLoopClear] at h
    exact Shape.run (.of (.approachClear s a)) h
  case beamBroken m =>
    simp only [Machine.exec, execBeamBroken] at h
    exact Shape.runPins (fun u => .of (.onBeam u m _)) h
  case beamInputClear m =>
    simp only [Machine.exec, execBeamInputClear] at h
    exact Shape.runPins (fun u => .of (.onBeam u m _)) h
  case beamClear m =>
    simp only [Machine.exec, execBeamClear] at h
    exact Shape.run (.of (.onBeam s m _)) h
  case powerFailAssert =>
    simp only [Machine.exec, execPowerFailAssert] at h
    exact Shape.runPins (fun u => .powerFailing u) h
  case powerFailInputInactive =>
    simp only [Machine.exec, execPowerFailInputInactive] at h
    refine Shape.runPins (fun u => .of (.one (.powerFail u _ (fun k => ?_)))) h
    rw [PowerFail.inputInactive_asserted] at k
    exact k
  case powerFailDeassert =>
    simp only [Machine.exec, execPowerFailDeassert] at h
    refine Shape.run ?_ h
    split
    · exact .of (.powerRestored s)
    · exact .of (.refl s)
  case resetInput x =>
    simp only [Machine.exec, execResetInput] at h
    injection h with h
    subst h
    exact ⟨_, _, .onPins s _, .reset _ .input, .transmit _⟩
  case loadCellByteReceived c b e =>
    simp only [Machine.exec, execLoadCellByteReceived] at h
    exact Shape.run (.of (.cellByte s c b e)) h
  case hostLinkByteReceived b e =>
    simp only [Machine.exec, execHostLinkByteReceived] at h
    exact Shape.run (.hostByte s b e) h
  case mainPowerLoss =>
    simp only [Machine.exec, execMainPowerLoss] at h
    injection h with h
    subst h
    split
    · exact ⟨s, _, .refl s, .dark s, .refl _⟩
    · exact .of (.refl s)
  case backupSupplyFailure =>
    simp only [Machine.exec, execBackupSupplyFailure] at h
    injection h with h
    subst h
    split
    · exact .of (.refl s)
    · exact .of (.one (.retained s _ ⟨fun h => h, rfl, fun h => h, fun h => h, fun h => h, .inr ⟨rfl, rfl, rfl⟩⟩))

/-! ### Every step -/

theorem Changes.tick (s : State) : Changes s s.tick := by
  have h1 : Changes s { s with channels := s.channels.each Channel.tick } := .one (.channels s _)
  have h2 := h1.trans (.one (.metrology _ { s.metrology with hold := Timer.tick s.metrology.hold } rfl))
  have h3 := h2.trans (.one (.decks _ (s.decks.each (fun d => { d with freshness := Timer.tick d.freshness }))))
  have h4 := h3.trans (.one (.bridges _ (s.bridges.each Bridge.tick) (fun b => by
    refine ⟨.inl ?_, fun k => ?_, fun k => .inl ?_⟩
    · simp [Bridge.tick, State.bridge]
    · simpa [Bridge.tick, State.bridge] using k
    · simpa [Bridge.tick, State.bridge] using k)))
  have h5 := h4.trans (.one (.barriers _ (s.barriers.each Barrier.tick) (fun b => by
    simp [Barrier.tick, State.barrier, Barrier.lowerOk, Barrier.lowerDrive])))
  have h6 := h5.trans (.one (.loops _ (s.loops.each (fun x => { x with clearFilter := Timer.tick x.clearFilter }))))
  have h7 := h6.trans (.one (.beams _ (s.beams.each (fun x => { x with clearFilter := Timer.tick x.clearFilter }))))
  have h8 := h7.trans (.one (.lanes _ (s.lanes.each Lane.tick) (fun b => by
    simp [Lane.tick, State.lane, Lane.signalOk])))
  have h9 := h8.trans (Changes.onAdm _ (fun _ => s.adm.tick) ⟨rfl, rfl⟩)
  exact h9.trans (.one (.powerFail _ { s.powerFail with filter := Timer.tick s.powerFail.filter } (fun k => k)))

/-- What any step can do. -/
theorem Shape.step (s t : State) (h : step s = .next t) : Shape s t := by
  unfold Machine.step at h
  split at h
  · injection h with h
    subst h
    exact .of (.ite (.tick s) (.refl s))
  · next c rest _ => exact Shape.before (.one (.pending s rest)) (.exec c _ t h)

end Sys2Proof.Machine
end

