-- ==== Sys2Proof/Tests/Slice0.lean ====
section
/-! SUPPORT. Tests: the worked examples of the spec on fixed values, the smoke test of the well-formedness checks, one small
test of an event or a request for each family, and for each statement a state and operands that meet its hypotheses. -/

namespace Sys2Proof.Tests

set_option Elab.async false

open Sys2Proof Sys2Proof.Machine

/-! ### Well-formedness: each check refuses a term -/

/-- R189: a selector of ALL or NONE carries the number 0. -/
theorem test_wellFormed_refuses_selector : (Instr.weightRead ⟨1, 3⟩).wellFormed = false := by decide
/-- R189: a lane without an approach loop carries the loop number 0. -/
theorem test_wellFormed_refuses_loop :
    (Instr.configLane ⟨0, 1, 0, 0, 1, ⟨1, 2⟩, 0⟩).wellFormed = false := by decide
/-- R189: a zr of DEFAULT carries the number 0. -/
theorem test_wellFormed_refuses_zr : (Instr.calBridge ⟨0, 0, 255, 20, 60000, 1, 3, 10, 1, 60⟩).wellFormed = false := by decide
/-- Section 12.8: an UNKNOWN_TAG answer carries no entry. -/
theorem test_wellFormed_refuses_entry :
    (Instr.permitAnswer ⟨1, 7, 1, some ⟨7, 32, 1, 1, 0, 0⟩⟩).wellFormed = false := by decide
/-- Section 12.8: an ENTRY answer carries an entry. -/
theorem test_wellFormed_refuses_no_entry : (Instr.permitAnswer ⟨1, 7, 0, none⟩).wellFormed = false := by decide
/-- R189: a visit number stands in the two low-order bytes. -/
theorem test_wellFormed_refuses_visit_operand : (Instr.visitRead 0 65536).wellFormed = false := by decide
/-- R189: ALL carries the operand 0. -/
theorem test_wellFormed_refuses_visit_all : (Instr.visitCancel 2 1).wellFormed = false := by decide
/-- R189: FROM stands in the low-order byte. -/
theorem test_wellFormed_refuses_tare_operand : (Instr.tareRead 1 256).wellFormed = false := by decide
/-- R186: a payload is at most 1,023 bytes. -/
theorem test_wellFormed_refuses_long_frame :
    (Instr.hostFrameReceived 0x14 (List.replicate 1024 0)).wellFormed = false := by decide +kernel
/-- A well-formed request. -/
theorem test_wellFormed_admits : (Instr.weightRead ⟨0, 3⟩).wellFormed = true := by decide

/-! ### Worked examples of the spec -/

/-- Section 1.3, Worked example: cell weights, channels 0 to 2. -/
theorem test_cell_weights :
    cellWeight ⟨12350, 98304, true⟩ 4012350 = 6000000 ∧ cellWeight ⟨11900, 98304, true⟩ 3789101 = 5665802 ∧
      cellWeight ⟨12000, 99000, true⟩ 3901000 = 5874802 := by decide +kernel
/-- Section 1.3: a negative difference rounds away from zero, and a large span leaves the range. -/
theorem test_cell_weights_below_zero :
    cellWeight ⟨12350, 98304, true⟩ 12347 = -5 ∧ cellWeight ⟨12350, 98304, true⟩ 10000 = -3525 ∧
      inInt32 (cellWeight ⟨0, 16777215, true⟩ 8388607) = true ∧
      inInt32 (cellWeight ⟨-8388608, 16777215, true⟩ 8388607) = false := by decide +kernel
/-- Section 2.2, Example: filter refill, with L = 4. -/
theorem test_filter_refill :
    (((((Deck.mk .stale [] none none).take 23324454 4).take 23330454 4).take 23318454 4).take 23326454 4).filtered =
        some 23324954 ∧
      ((Deck.mk .valid [23324454, 23330454, 23318454, 23326454] none none).take 23322454 4).filtered =
        some 23324454 := by decide +kernel

/-- The bridge of section 2.7's weighing case. -/
def caseBridge : BridgeCal :=
  { members := [0], calibrated := true, interval := 20000, maximum := 60000000, filter := 1, window := 3, band := 10000,
    zr := 60, z0 := 12000 }

/-- Section 2.7: G of 23,310,000 g gives W of 23,320,000 g; the candidate zero 14,454 g is in range. -/
theorem test_weighing_case :
    caseBridge.quantised 23310000 = some 23320000 ∧ caseBridge.quantised 23309000 = some 23300000 ∧
      caseBridge.zeroInRange 14454 = true ∧ caseBridge.zeroInRange 1212000 = true ∧
      caseBridge.zeroInRange 1212001 = false := by decide +kernel
/-- Section 2.3, Example: a vehicle settling, evaluations 4 and 5. -/
theorem test_vehicle_settling :
    caseBridge.stateOf [.valid] (some 23308000) [23340454, 23326454, 23322454] false = .motion ∧
      caseBridge.stateOf [.valid] (some 23310000) [23326454, 23322454, 23324454] false = .stable ∧
      caseBridge.stateOf [.valid] (some 60180001) [] false = .over ∧
      caseBridge.stateOf [.valid] (some (-400001)) [] false = .under ∧
      caseBridge.nextWindow [23340454, 23326454, 23322454] (some 23324454) (some 23310000) =
        [23326454, 23322454, 23324454] := by decide +kernel

/-- A visit for the ticket examples. -/
def caseVisit : Visit :=
  { number := 17, tag := 0x4A3C9901, account := 520, stream := 4, provisional := false, storedTare := false,
    singlePass := false, state := .weighingOut, entryLane := 0, arrival := 41100, currentLane := some 3, first := none,
    pending := none, ticketNumber := none }

/-- A weighing record for the ticket examples. -/
def caseRecord (weight : Int) (interval : Nat) : WeighingRecord :=
  { weight := weight, interval := interval, bridge := 0, decks := [0], time := 41204, calCounter := 12, belowMin := false,
    zeroWaived := false }

/-- Section 10.6, the ticket case: net 11,860,000 g, charge 100,514. -/
theorem test_ticket_case :
    (computeTicket caseVisit (caseRecord 23320000 20000) (caseRecord 11470000 10000).secondPart ⟨8475, 1500, true⟩).net =
        11860000 ∧
      (computeTicket caseVisit (caseRecord 23320000 20000) (caseRecord 11470000 10000).secondPart
        ⟨8475, 1500, true⟩).charge = 100514 := by decide +kernel
/-- Section 10.6, a collection below the minimum: net −30,000 g, charge 2,500. -/
theorem test_collection_below_the_minimum :
    (computeTicket caseVisit (caseRecord 14230000 10000) ⟨14255000, 5000, 1, .storedTare, none, false⟩
        ⟨6000, 2500, true⟩).net = -30000 ∧
      (computeTicket caseVisit (caseRecord 14230000 10000) ⟨14255000, 5000, 1, .storedTare, none, false⟩
        ⟨6000, 2500, true⟩).charge = 2500 ∧
      (computeTicket caseVisit (caseRecord 14230000 10000) ⟨14255000, 5000, 1, .storedTare, none, false⟩
        ⟨6000, 2500, true⟩).direction = .collection := by decide +kernel
/-- R181: the running sum of the example's three words. -/
theorem test_check_sum : checkSum [0x00000001, 0x80000000, 0x00000003] = 0x00000008 := by decide +kernel
/-- R187: the CRC of the nine characters 1 to 9, polynomial 0x1021 from 0xFFFF, unreflected, is 0x29B1 (known of this
polynomial and start value, not from the spec). -/
theorem test_crc : crcOf [0x31, 0x32, 0x33, 0x34, 0x35, 0x36, 0x37, 0x38, 0x39] = 0x29B1 := by decide +kernel
/-- R176: the forward distance passes over 0. -/
theorem test_forward_distance :
    forwardDistance 5 9 = 4 ∧ forwardDistance 4294967295 1 = 1 ∧ forwardDistance 5 4 = 4294967294 := by decide +kernel

/-- An entry of the cache. -/
def entry (pfx : Word) (length account bucket : Nat) (credit : Int) (streams : Half) (stopped : Bool) : Permit :=
  { pfx := pfx, length := length, account := account, streams := streams, credit := credit, stopped := stopped,
    storedTare := false, tareRefresh := false, bucket := bucket }

/-- The cache of section 7.2's lookup example. -/
def lookupCache : Admission :=
  { State.reset.adm with
    cache := ((((Table.all 48 none).write 0 (some (entry 0x4A000000 8 310 1 90000 0x30 false))).write 1
      (some (entry 0x4A3C0000 16 520 1 1200 0xFF false))).write 2 (some (entry 0x4A3C1200 24 520 1 1200 0xFF false))).write 3
      (some (entry 0x4A3C1207 32 77 1 0 0xFF true)) }

/-- That cache with an entry written into slot 9. -/
def cacheWith (p : Permit) : Admission := { lookupCache with cache := lookupCache.cache.write 9 (some p) }

/-- Section 7.2, Example: longest-prefix lookup. -/
theorem test_longest_prefix_lookup :
    lookupCache.search 0x4A3C1207 = some 3 ∧ lookupCache.search 0x4A3C12FF = some 2 ∧
      lookupCache.search 0x4A3C9901 = some 1 ∧ lookupCache.search 0x4A3D0001 = some 0 ∧
      lookupCache.search 0x4B000000 = none := by decide +kernel
/-- Section 7.4, Example: installation into a full cache: slot 5 is the lowest of bucket 0. -/
theorem test_installation_evicts_the_coldest :
    Admission.installSlot
      { State.reset.adm with
        cache := (((Table.all 48 (some (entry 0 32 1 1 0 0 false))).write 33 (some (entry 0 32 1 0 0 0 false))).write 19
          (some (entry 0 32 1 0 0 0 false))).write 5 (some (entry 0 32 1 0 0 0 false)) }
      (entry 0x4A3C1300 24 520 3 241000 0 false) = 5 := by decide +kernel

/-! ### A small yard -/

/-- Lane 0 is INBOUND and lane 1 OUTBOUND on bridge 0, with both arms shared; lane 2 is BYPASS. Channels 0 and 1 stand on
deck 0, channel 2 on deck 1, all calibrated at 1 g per count; bridge 0 has deck 0 and bridge 1 has deck 1. -/
def yardRet : Retained :=
  { Retained.lost with
    clock := 1000
    site :=
      { SiteSettings.lost with
        lanes :=
          (((Table.all 4 LaneConfig.lost).write 0 ⟨.inbound, some 0, some 0, some 1, some 0, .refuse⟩).write 1
            ⟨.outbound, some 0, some 1, some 0, some 1, .provisional⟩).write 2
            ⟨.bypass, none, some 4, none, some 2, .refuse⟩
        streams := (Table.all 16 Stream.lost).write 4 ⟨8475, 1500, true⟩
        deckMap := (((Table.all 16 none).write 0 (some 0)).write 1 (some 0)).write 2 (some 1) }
    cal :=
      { channels :=
          (((Table.all 16 ChannelCal.lost).write 0 ⟨0, 65536, true⟩).write 1 ⟨0, 65536, true⟩).write 2 ⟨0, 65536, true⟩
        bridges :=
          ((Table.all 4 BridgeCal.lost).write 0 { caseBridge with z0 := 0 }).write 1
            { caseBridge with members := [1], z0 := 0 } } }

/-- The yard, its check word written, running and at rest. -/
def yard : State := { State.reset with ret := yardRet.sealed }

/-- The yard with lane 0 changed. -/
def yard0 (f : Lane → Lane) : State := yard.onLane 0 f

/-- The yard with lane 0 in a state. -/
def yardIn (st : LaneState) : State := yard0 (fun n => { n with state := st })

/-- The yard with a visit of tag 7 at lane 0. -/
def visit7 (st : VisitState) (lane : Option LaneNo) : Visit :=
  { number := 5, tag := 7, account := 520, stream := 4, provisional := false, storedTare := false, singlePass := false,
    state := st, entryLane := 0, arrival := 900, currentLane := lane, first := none, pending := none,
    ticketNumber := none }

/-- A state with that visit in its table. -/
def withVisit (s : State) (v : Visit) : State := s.onVisits (fun x => { x with records := [v], counter := 6 })

/-- The state a command answers, or the state before it where it answers none. -/
def after (c : Instr) (s : State) : State :=
  match exec c s with
  | .next t => t
  | .fault _ => s
  | .refused _ => s

theorem yard_ready : yard.Ready := ⟨rfl, rfl, rfl⟩
theorem yard_sends : yard.SendsWaiting := fun h => absurd h (by decide +kernel)

/-! ### One step of each family -/

/-- R79: an approach loop becoming OCCUPIED takes lane 0 to AWAIT_ID with its identity timer running. -/
theorem test_approach :
    ((after (.approachLoopOccupied 0 .presence) yard).lane 0).state = .awaitId ∧
      ((after (.approachLoopOccupied 0 .presence) yard).lane 0).identityTimer = .running 10000 := by decide +kernel
/-- R118, R133: an arrival that no entry covers sends query 1. -/
theorem test_arrival_query :
    ((after (.arrival 0 7 4) (yardIn .awaitId)).lane 0).state = .admitting ∧
      ((after (.arrival 0 7 4) (yardIn .awaitId)).slot 0).number = 1 := by decide +kernel
/-- R121: an arrival for a stream that is not enabled is refused, and record 0 holds the tag. -/
theorem test_arrival_refused :
    ((after (.arrival 0 7 5) (yardIn .awaitId)).lane 0).state = .refused ∧
      ((after (.arrival 0 7 5) (yardIn .awaitId)).adm.records.read 0).map (·.tag) = some 7 := by decide +kernel
/-- R62: a LOWERING barrier reverses at once when its loop becomes OCCUPIED. -/
theorem test_reversal :
    ((after (.safetyLoopOccupied 0 .fault) (yard.onBarrier 0 (fun b => { b with state := .lowering }))).barrier 0).state =
        .raising ∧
      ((after (.safetyLoopOccupied 0 .fault) (yard.onBarrier 0 (fun b => { b with state := .lowering }))).barrier
        0).reversals = 1 := by decide +kernel
/-- The yard with its decks in no bridge. -/
def yardApart : State :=
  yard.onRet (fun r => { r with cal := { r.cal with bridges := .all 4 .lost } })
/-- R6, R18: two counts on a deck of two channels at 1 g per count. -/
theorem test_deck_value :
    ((after (.sampleArrival 0 1500 .ok) (after (.sampleArrival 1 500 .ok) yardApart)).deck 0).filtered = some 2000 := by
  decide +kernel
/-- R9: deck 0 loses channel 1 and keeps channel 0 with a fresh sample: channel 0 is awaited until its next arrival. -/
theorem test_changed_deck_awaits :
    (((yardApart.takeDeckMap (yard.ret.site.deckMap.write 1 none)).channel 0).awaited = true) ∧
      ((after (.sampleArrival 0 5 .ok) (yardApart.takeDeckMap (yard.ret.site.deckMap.write 1 none))).channel 0).awaited =
        false ∧
      ((yardApart.takeDeckMap (yard.ret.site.deckMap.write 1 none)).channel 2).awaited = false := by decide +kernel
/-- R13 in R33: a period of 200 ms is held at 100 ms. -/
theorem test_bridge_timing :
    (after (.configBridgeTiming ⟨0, 200, 300, 4, 3, 10, 30⟩) yard).period = 100 := by decide +kernel
/-- R182: a power-fail assertion sets the input asserted and queues POWER_FAIL. -/
theorem test_power_fail :
    (after .powerFailAssert yard).failing = true ∧
      (after .powerFailAssert yard).link.reports.getLast? = some (.powerFail 1000 0) := by decide +kernel
/-- R189: a frame of kind 0x3F is answered with kind 0xBF and UNKNOWN_KIND. -/
theorem test_unknown_kind :
    ((after (.hostFrameReceived 0x3F []) yard).link.current.map (·.kind)) = some 0xBF ∧
      ((after (.hostFrameReceived 0x3F []) yard).link.current.map (·.status)) = some .unknownKind := by decide +kernel
/-- R185: the yard clock goes from 4,294,967,295 to 0. -/
theorem test_clock_wraps :
    (after .clockTick (yard.onRet (fun r => { r with clock := 4294967295 }))).ret.clock = 0 := by decide +kernel

/-! ### For each statement a state and operands that meet its hypotheses -/

/-- The state with the power-fail input asserted. -/
def underPowerFail (s : State) : State := { s with powerFail := { asserted := true, filter := none } }

/-- The state with the metrology switch CLOSED. -/
def unsealed (s : State) : State := { s with metrology := { closed := true, hold := none } }

/-- A ticket body, and two tickets, the older collected. -/
def body7 : TicketBody := computeTicket (visit7 .weighingOut none) (caseRecord 23320000 20000)
  (caseRecord 11470000 10000).secondPart ⟨8475, 1500, true⟩
def ticketNumbered (n : Nat) (collected : Bool) : Ticket :=
  { body := body7, number := n, timeUnset := false, issueTime := 990, calCounter := 1, collected := collected }
def withTickets (s : State) : State :=
  s.onJournal (fun _ => { tickets := [ticketNumbered 4294967295 true, ticketNumbered 1 false], counter := 2, held := false })

/-- Lane 0 holding the grant of bridge 0. -/
def granted (s : State) : State := s.onGrant 0 (fun g => { g with holder := some 0 })

/-- Visit 5 weighed at lane 0: a capture on bridge 0, the lane in WEIGHING with the grant. -/
def weighing : State :=
  ((granted (withVisit yard (visit7 .weighingIn (some 0)))).onLane 0
    (fun n => { n with state := .weighing, visit := some 5 })).onBridge 0
    (fun x => { x with capture := some { visit := 5, lane := 0, start := 990, timeout := 30, deadline := 20000, blocking := .motion },
                       window := [3000000, 3000000, 3000000], run := 2 })

theorem witness_EmptyQueueLetsTimePass :
    yard.pending = [] ∧ yard.powered = true ∧ (yard.channel 0).age = 65535 ∧
      ((yard.onChannel 0 (fun c => { c with age := 65534 })).channel 0).age < 65535 ∧
      ({ yard with powered := false } : State).powered = false := by decide +kernel
/-- The yard with visit 5's ticket pending and ticketing not held, its check word written. -/
def yardPending : State :=
  { yard with
    ret := Retained.sealed
      { yardRet with
        journal := { tickets := [], counter := 1, held := false }
        visits := { records := [{ visit7 .ticketPending none with pending := some body7 }], counter := 6, order := [5] } } }

theorem witness_ResetStartsAfresh :
    yard.ret.intact = true ∧ (yard.onRet Retained.spoiled).ret.intact = false ∧
      (yard.onRet Retained.spoiled).pins = Pins.atRest ∧ yard.ret.visits.order = [] ∧ yardPending.ret.intact = true ∧
      yardPending.pins.powerFail = false ∧ yardPending.ret.journal.held = false ∧
      yardPending.ret.journal.tickets.length < 240 ∧ yardPending.ret.visits.order = [5] ∧
      yardPending.visitOf 5 = some { visit7 .ticketPending none with pending := some body7 } := by
  refine ⟨beq_self_eq_true _, ?_, rfl, rfl, beq_self_eq_true _, rfl, rfl, by decide, rfl, rfl⟩
  simp [Retained.intact, Retained.spoiled, Retained.computedCheck, Retained.image]
theorem witness_LowerDriveStaysOffOverAnOccupiedLoop :
    (yard.onBarrier 0 (fun b => { b with state := .raising, occupied := true })).LowerSafe ∧
      ∃ t, step (yard.onBarrier 0 (fun b => { b with state := .raising, occupied := true })) = .next t := by
  refine ⟨?_, _, rfl⟩; unfold State.LowerSafe; decide +kernel
theorem witness_ZeroAndBacklogStayInTheirRanges :
    (yard.onBridge 0 (fun x => { x with zb := 1200000, backlog := 15 })).ZeroHeld ∧
      (yard.onBridge 0 (fun x => { x with zb := 1200000, backlog := 15 })).BacklogHeld ∧
      (∃ t, step (yard.onBridge 0 (fun x => { x with zb := 1200000, backlog := 15 })) = .next t) ∧
      (∃ t, exec (.zeroNow 0) (granted yard) = .next t) ∧ (granted yard).resetsAt (.zeroNow 0) = false ∧
      Instr.zeroNow 0 ≠ .mainPowerLoss ∧ ((granted yard).grant 0).holder = some 0 := by
  refine ⟨?_, ?_, ⟨_, rfl⟩, ⟨_, rfl⟩, rfl, by decide, by decide +kernel⟩
  · unfold State.ZeroHeld; decide +kernel
  · unfold State.BacklogHeld; decide +kernel

/-- Lane 0 in ADMITTING with query 1 ACTIVE, lane 1 in SITE_FULL. -/
def askingAndWaiting : State :=
  { ((yard.onLane 0 (fun n => { n with state := .admitting, query := some 1, identity := some ⟨7, 4⟩ })).onLane 1
      (fun n => { n with state := .siteFull, identity := some ⟨8, 4⟩ })).onSlot 0 (fun q =>
        { q with state := .active, number := 1, tag := 7 }) with siteFull := [1] }

theorem witness_LanesQueriesAndTheListAgree :
    askingAndWaiting.QueriesHeld ∧ askingAndWaiting.SiteFullHeld ∧ ∃ t, step askingAndWaiting = .next t := by
  have h : ∀ l : LaneNo, (((askingAndWaiting.lane l).state = .admitting ↔ (askingAndWaiting.slot l).state = .active) ∧
      ((askingAndWaiting.lane l).query = if (askingAndWaiting.slot l).state = .active then
        some (askingAndWaiting.slot l).number else none)) := by decide +kernel
  refine ⟨fun l => ⟨(h l).1, fun n => ?_⟩, ?_, _, rfl⟩
  · rw [(h l).2]; split <;> simp [*]
  · unfold State.SiteFullHeld; decide +kernel
theorem witness_WeighingVisitsHoldTheBridge :
    weighing.QueriesHeld ∧ weighing.SiteFullHeld ∧ weighing.VisitsHeld ∧ weighing.CapturesHeld ∧
      weighing.WeighingHeld ∧ ∃ t, step weighing = .next t := by
  have h : ∀ l : LaneNo, ((weighing.lane l).state ≠ .admitting ∧ (weighing.lane l).query = none ∧
      (weighing.slot l).state = .free) := by decide +kernel
  have none_else : ∀ b : BridgeNo, b = 0 ∨ (weighing.bridge b).capture = none := by decide +kernel
  refine ⟨fun l => ⟨by simp [h l], fun n => by simp [h l]⟩, ?_, ⟨by decide +kernel, by decide +kernel, by decide +kernel⟩,
    ?_, ?_, _, rfl⟩
  · unfold State.SiteFullHeld; decide +kernel
  · intro b k hk
    rcases none_else b with rfl | e
    · cases hk; exact ⟨by decide +kernel, by decide +kernel, by decide +kernel⟩
    · rw [e] at hk; cases hk
  · intro _ v hv _
    cases List.mem_singleton.mp hv
    exact ⟨0, _, rfl, rfl, rfl⟩
theorem witness_JournalKeepsItsTickets :
    (withTickets yard).JournalHeld ∧ (∃ t, step (withTickets yard) = .next t) ∧
      (∃ t, exec .clockTick (withTickets yard) = .next t) ∧ (withTickets yard).resetsAt .clockTick = false ∧
      ∃ x ∈ (withTickets yard).ret.journal.tickets, x.collected = false := by
  refine ⟨⟨by decide +kernel, ?_, ?_, ?_⟩, ⟨_, rfl⟩, ⟨_, rfl⟩, rfl, ticketNumbered 1 false, ?_, rfl⟩
  · exact ⟨rfl, trivial⟩
  · intro n h; cases h; rfl
  · simp [withTickets, State.onJournal, State.onRet, ticketNumbered]
  · simp [withTickets, State.onJournal, State.onRet]
theorem witness_RecordTablesStaySound :
    (withVisit yard (visit7 .onSite none)).VisitsHeld ∧ (withVisit yard (visit7 .onSite none)).TaresHeld ∧
      (withVisit yard (visit7 .onSite none)).AdmissionHeld ∧
      ∃ t, step (withVisit yard (visit7 .onSite none)) = .next t := by
  have tares : ∀ i : Fin 128, (withVisit yard (visit7 .onSite none)).ret.tares.read i = none := by decide +kernel
  have cache : ∀ i : Fin 48, (withVisit yard (visit7 .onSite none)).adm.permit i = none := by decide +kernel
  have records : ∀ i : Fin 8, (withVisit yard (visit7 .onSite none)).adm.records.read i = none := by decide +kernel
  refine ⟨⟨by decide +kernel, by decide +kernel, by decide +kernel⟩, ?_, ⟨?_, ?_, ?_⟩, _, rfl⟩
  · intro i j x y h; rw [tares] at h; cases h
  · intro i j p q h; rw [cache] at h; cases h
  · intro i j p q h; rw [cache] at h; cases h
  · intro i j p q h; rw [records] at h; cases h
theorem witness_CheckWordAgreesAfterEveryEvent : yard.Sealed ∧ ∃ t, step yard = .next t :=
  ⟨fun _ => beq_self_eq_true _, _, rfl⟩
theorem witness_SignalFollowsTheLaneState :
    (yard0 (fun n => { n with state := .passing, signal := .green })).SignalsFollow ∧
      ∃ t, step (yard0 (fun n => { n with state := .passing, signal := .green })) = .next t := by
  refine ⟨?_, _, rfl⟩; unfold State.SignalsFollow; decide +kernel
theorem witness_NoCaptureRunsUnderPowerFail :
    (underPowerFail yard).CapturesStopped ∧ (underPowerFail yard).failing = true ∧
      ∃ t, step (underPowerFail yard) = .next t := by
  refine ⟨fun _ => ?_, rfl, _, rfl⟩; decide +kernel
/-- The yard with an idle transmitter and nothing to send, and IDENTIFY waiting. -/
def idleLine : State :=
  { yard.onLink (fun k => { k with sending := none, reports := [] }) with pending := [.identify] }

theorem witness_LinkKeepsItsQueuesAndSends :
    idleLine.LinkHeld ∧ idleLine.link.sending = none ∧ idleLine.SendsWaiting ∧
      ∃ t, step idleLine = .next t ∧ t.link.sending ≠ idleLine.link.sending := by
  refine ⟨?_, rfl, fun _ => ⟨rfl, rfl, ?_, rfl⟩, _, rfl, ?_⟩
  · unfold State.LinkHeld; decide +kernel
  · decide +kernel
  · decide +kernel
theorem witness_CalibrationChangesOnlyWithTheSwitchClosed :
    yard.metrology.closed = false ∧ yard.resetsAt (.calCell ⟨0, 0, 5, 65536⟩) = false ∧
      ∃ t, exec (.calCell ⟨0, 0, 5, 65536⟩) yard = .next t := ⟨rfl, rfl, _, rfl⟩
theorem witness_PowerFailFreezesTheRetainedContents :
    (underPowerFail yard).failing = true ∧ (underPowerFail yard).CapturesStopped ∧
      (underPowerFail yard).resetsAt (.ticketCollect 1) = false ∧ Instr.ticketCollect 1 ≠ .powerFailDeassert ∧
      ∃ t, exec (.ticketCollect 1) (underPowerFail yard) = .next t := by
  refine ⟨rfl, fun _ => ?_, rfl, by decide, _, rfl⟩; decide +kernel
theorem witness_RequestFramesSpellTheirRequests :
    (Instr.ofRequest (.timeSet 5)).wellFormed = true ∧ readFrame 0x14 [0, 0, 0, 5] = .request (.timeSet 5) := by
  decide +kernel
theorem witness_LineBytesMakeFrames :
    yard.powered = true ∧ yard.SendsWaiting ∧ yard.link.receiver = .hunting ∧ (yard.channel 0).receiver = .hunting ∧
      (yard.onLink (fun k => { k with receiver := .collecting [0] })).link.receiver = .collecting [0] ∧
      sampleStatusOf 2 = some .cellFault ∧ sampleStatusOf 3 = none ∧
      ((yard.onChannel 0 (fun c => { c with receiver := .collecting [1, 2, 3] })).channel 0).receiver =
        .collecting [1, 2, 3] ∧ ((1 : Byte) ≠ 0x5A ∨ false = true) ∧ ([0x01] : List Byte).length = (halfOf 0 1).toNat ∧
      halfOf 0 0 ≠ crcOf [0, 1, 0x01] ∧ (halfOf 0 0).toNat < 1 ∧ 1024 < (halfOf 4 1).toNat := by
  refine ⟨rfl, yard_sends, rfl, rfl, rfl, rfl, rfl, by decide +kernel, by decide, by decide, by decide +kernel,
    by decide, by decide⟩
/-- A link with a current reply, `n` waiting requests and `m` BUSY replies. -/
def loaded (n m : Nat) : State :=
  yard.onLink (fun k =>
    { k with
      current := some (replyTo 0x01 .ok 0 .identification), queue := List.replicate n (.request .identify),
      busy := List.replicate m (replyTo 0x01 .busy 0 .empty) })

theorem witness_ReceivedFramesAreJudgedAndWait :
    yard.Ready ∧ (Instr.ofRequest (.timeSet 5)).wellFormed = true ∧ (readerOf 0x3F).isNone = true ∧
      readerOf 0x14 = some readTimeSet ∧ readTimeSet [1] = none ∧ (List.replicate 1023 (0 : Byte)).length ≤ 1023 ∧
      (loaded 3 0).powered = true ∧ (loaded 3 0).link.current.isSome = true ∧ (loaded 3 0).link.queue.length < 4 ∧
      (loaded 4 3).link.queue.length = 4 ∧ (loaded 4 3).link.busy.length < 4 ∧ (loaded 4 4).link.queue.length = 4 ∧
      (loaded 4 4).link.busy.length = 4 :=
  ⟨yard_ready, rfl, rfl, rfl, rfl, by decide +kernel⟩

/-- The transmitter sends a frame. -/
def sends (f : TxFrame) (s : State) : State := s.onLink (fun k => { k with sending := some f })

/-- A link where a reply of kind 2 is current, one of `m` BUSY replies formed before it, two queries and a report wait. -/
def line (current : Bool) (m ahead : Nat) (queries : List LaneNo) : State :=
  sends (.report .backupLost) (yard.onLink (fun k =>
    { k with
      current := if current then some (replyTo 2 .ok 0 .identification) else none
      busy := List.replicate m (replyTo 1 .busy 0 .empty), busyAhead := ahead,
      queries := queries.foldl (fun q l => q.write l (some ⟨l, 7, 0⟩)) (.all 4 none), reports := [.backupLost] }))
/-- R191: replies in the order they were formed, then the query of the lowest lane, then the oldest report. -/
theorem test_next_frame :
    (after .transmitFrameEnd (line true 1 1 [])).link.sending = some (.busy (replyTo 1 .busy 0 .empty)) ∧
      (after .transmitFrameEnd (line true 1 0 [0])).link.sending = some (.reply (replyTo 2 .ok 0 .identification)) ∧
      (after .transmitFrameEnd (line false 1 0 [0])).link.sending = some (.busy (replyTo 1 .busy 0 .empty)) ∧
      (after .transmitFrameEnd (line false 0 0 [3, 1])).link.sending = some (.query ⟨1, 7, 0⟩) ∧
      (after .transmitFrameEnd (line false 0 0 [])).link.sending = some (.report .backupLost) ∧
      (after .transmitFrameEnd (after .transmitFrameEnd (line false 0 0 []))).link.sending = none := by decide +kernel

theorem witness_EndOfAFrame :
    (sends (.report .backupLost) yard).powered = true ∧
      (sends (.report .backupLost) yard).link.sending = some (.report .backupLost) ∧
      (sends (.busy (replyTo 1 .busy 0 .empty)) yard).link.sending = some (.busy (replyTo 1 .busy 0 .empty)) ∧
      (sends (.query ⟨1, 7, 0⟩) (yard.onLink (fun k => { k with queries := k.queries.write 0 (some ⟨1, 7, 0⟩) }))).link.queries.read
        0 = some ⟨1, 7, 0⟩ ∧
      (sends (.reply (replyTo 1 .ok 0 .identification)) (loaded 1 0)).link.queue = .request .identify :: [] ∧
      (sends (.reply (replyTo 1 .ok 0 .identification)) (loaded 0 0)).link.queue = [] ∧
      (replyTo 1 .ok 0 .identification).body ≠ .resetAccepted ∧
      (replyTo 3 .ok 0 .resetAccepted).body = .resetAccepted ∧
      ((sends (.reply (replyTo 1 .ok 0 .identification)) (loaded 0 0)).onLink (fun k =>
        { k with queue := [.unknownKind 0x3F, .badLength 0x14] })).link.queue =
          .unknownKind 0x3F :: [.badLength 0x14] := by decide +kernel
theorem witness_RefusedRequestsChangeNothing :
    yard.Ready ∧ ∃ t p, exec (Instr.ofRequest (.zeroNow 4)) yard = .next t ∧ t.link.current = some p ∧ p.status ≠ .ok ∧
      p.status ≠ .late := ⟨yard_ready, _, _, rfl, rfl, by decide +kernel, by decide +kernel⟩
theorem witness_ReadsOfTheWholePart : yard.Ready := yard_ready
theorem witness_ReadsOfUnitsAndRecords :
    (withVisit yard (visit7 .onSite none)).Ready ∧ selectOf 4 ⟨0, 3⟩ = some (.one 3) ∧ selectOf 4 ⟨1, 0⟩ = some .all ∧
      selectOf 4 ⟨0, 4⟩ = none ∧ selectOf 16 ⟨0, 15⟩ = some (.one 15) ∧ selectOf 16 ⟨1, 0⟩ = some .all ∧
      selectOf 16 ⟨0, 16⟩ = none ∧ (0 : Byte).toNat = 0 ∧ 1 ≤ (65535 : Word).toNat ∧ (65535 : Word).toNat ≤ 65535 ∧
      (withVisit yard (visit7 .onSite none)).visitOf 5 = some (visit7 .onSite none) ∧ (1 : Byte).toNat = 1 ∧
      (withVisit yard (visit7 .onSite none)).visitOfTag 7 = some (visit7 .onSite none) ∧ yard.visitOf 5 = none ∧
      yard.visitOfTag 7 = none ∧ (2 : Byte).toNat = 2 ∧ 2 < (3 : Byte).toNat ∧ 65535 < (65536 : Word).toNat ∧ (127 : Word).toNat ≤ 127 ∧
      127 < (128 : Word).toNat ∧ 2 ≤ (2 : Byte).toNat ∧
      (withTickets yard).ret.journal.tickets.find? (fun y => y.number == (1 : Word).toNat) =
        some (ticketNumbered 1 false) ∧
      ∀ x ∈ (withTickets yard).ret.journal.tickets, x.number ≠ (2 : Word).toNat :=
  ⟨⟨rfl, rfl, rfl⟩, by decide +kernel⟩

/-- The fields of lane 2's own configuration with loop 3. -/
def laneFields : ConfigLaneFields := ⟨2, 3, 0xFF, 4, 0xFF, ⟨0, 3⟩, 0⟩

theorem witness_ConfigLaneWritesOneLane :
    ofByte 4 laneFields.lane = some 2 ∧ laneConfigOf laneFields = some ⟨.bypass, none, some 4, none, some 3, .refuse⟩ ∧
      yard.configFits 2 ⟨.bypass, none, some 4, none, some 3, .refuse⟩ = true ∧ yard.failing = false ∧
      (yard.lane 2).state = .idle ∧
      ((yard.onLoop 3 (fun x => { x with occupied := true })).loop 3).occupied = true ∧ ofByte 4 4 = none ∧
      laneConfigOf ⟨2, 4, 0xFF, 4, 0xFF, ⟨0, 3⟩, 0⟩ = none ∧
      yard.configFits 2 ⟨.bypass, none, some 4, none, some 0, .refuse⟩ = false ∧
      ((yard.onLane 2 (fun n => { n with state := .passing })).lane 2).state ≠ .idle := by decide +kernel
/-- R33, R193: values at the ends of a range and one beyond each end. -/
theorem test_nearest_end :
    [4, 5, 100, 101].map (clampSetting 5 100) = [5, 5, 100, 100] ∧
      [9, 10, 3600, 3601].map (clampSetting 10 3600) = [10, 10, 3600, 3600] ∧
      [0, 1, 365, 366].map (clampSetting 1 365) = [1, 1, 365, 365] := by decide

/-- Lane 1 waiting for bridge 0, which is stable with 200,000 g. -/
def asking : State :=
  ((yard.onLane 1 (fun n => { n with state := .awaitBridge })).onGrant 0 (fun g => { g with waiting := [1] })).onBridge 0
    (fun x => { x with state := .stable, gross := some 200000 })
theorem witness_ConfigBridgeTimingTakesTheSettings :
    yard.Ready ∧ (asking.grant 0).Chooses 1 ∧ asking.metrology.closed = false ∧ (4 : Byte).toNat < 5 ∧
      5 ≤ (5 : Byte).toNat ∧ (100 : Byte).toNat ≤ 100 ∧ 100 < (101 : Byte).toNat ∧
      (9 : Half).toNat < 10 ∧ 3600 < (3601 : Half).toNat ∧ (0 : Byte).toNat < 1 ∧ 15 < (16 : Byte).toNat ∧
      16 < (17 : Byte).toNat ∧ 50 < (51 : Byte).toNat ∧ 120 < (121 : Byte).toNat ∧ ofByte 4 3 = some 3 ∧ yard.failing = false ∧
      (yard.grant 3).waiting = [] ∧ (asking.grant 0).holder = none ∧
      ((after (.configBridgeTiming ⟨0, 20, 300, 5, 3, 10, 30⟩) asking).timing 0).urgent = 5 ∧
      (asking.bridge 0).backlog = 4 ∧ (asking.bridge 0).state = .stable ∧ (asking.bridge 0).gross = some 200000 ∧
      200000 ≤ ((after (.configBridgeTiming ⟨0, 20, 300, 5, 3, 10, 30⟩) asking).timing 0).empty *
        (asking.bridgeCal 0).interval ∧
      (asking.lane 1).state = .awaitBridge ∧ (asking.config 1).front = some 1 ∧ asking.link.reports.length < 32 ∧
      (yard.onBridge 3 (fun x => { x with backlog := 3 })).urgent 3 = false ∧
      ((after (.configBridgeTiming ⟨3, 20, 300, 3, 3, 10, 30⟩) yard).timing 3).urgent = 3 :=
  ⟨yard_ready, .inl (by decide +kernel), by decide +kernel⟩
theorem witness_SiteSettingsAndClockAreWritten :
    yard.Ready ∧ yard.failing = false ∧ ofByte 16 15 = some 15 ∧ (10000000 : Word).toNat ≤ 10000000 ∧
      (1 : Byte).toNat ≤ 1 ∧ 15 < (16 : Byte).toNat ∧ 10000000 < (10000001 : Word).toNat ∧ 1 < (2 : Byte).toNat ∧
      (1 : Byte).toNat < 2 ∧ 60 < (61 : Byte).toNat ∧ (4 : Byte).toNat < 5 ∧ 120 < (121 : Byte).toNat ∧
      20 < (21 : Byte).toNat ∧ 30 < (31 : Byte).toNat ∧ 365 < (366 : Half).toNat ∧ 240 < (241 : Byte).toNat ∧
      (0 : Half).toNat < 1 ∧ (underPowerFail yard).failing = true := ⟨yard_ready, by decide +kernel⟩
/-- The answer of query 1 for tag 7, with an entry that covers it. -/
def answerFields (answer : Byte) (e : Option AnswerEntry) : PermitAnswerFields := ⟨1, 7, answer, e⟩
def entryFields (tag : Word) : AnswerEntry := ⟨tag, 32, 520, 0x10, 90000, 0⟩

/-- Lane 0 in ADMITTING with its query slot in a state. -/
def admitting (st : SlotState) (p : Option Nat) : State :=
  (yard0 (fun n => { n with state := .admitting, query := some 1 })).onSlot 0 (fun _ =>
    { state := st, number := 1, tag := 7, stream := 4, deadline := .running 4000, noInstall := false, held := none,
      provisional := p })

theorem witness_PowerFailAndSealRefuse :
    (underPowerFail yard).Ready ∧ (underPowerFail yard).failing = true ∧ ofByte 4 3 = some 3 ∧ ofByte 16 15 = some 15 ∧
      (1 : Word) ≠ 0 ∧ (underPowerFail yard).ret.journal.tickets = [] ∧ yard.metrology.closed = false ∧
      (unsealed (underPowerFail yard)).metrology.closed = true ∧ (unsealed (underPowerFail yard)).failing = true ∧
      (underPowerFail yard).configFits 2 ⟨.bypass, none, some 4, none, some 3, .refuse⟩ = true ∧
      (tareOfFields ⟨7, 14255000, 5000, 0xFF⟩ yard.ret.clock).isSome = true ∧ visitSelect 0 5 = some (.number 5) ∧
      (withVisit (underPowerFail yard) (visit7 .onSite none)).visitOf 5 = some (visit7 .onSite none) ∧
      ((underPowerFail (yardIn .manual)).lane 0).state = .manual ∧ (yard.config 0).front = some 0 ∧
      (withVisit (underPowerFail (admitting .late (some 5))) { visit7 .onSite none with provisional := true }).Ready ∧
      (withVisit (underPowerFail (admitting .late (some 5))) { visit7 .onSite none with provisional := true }).visitOf
        5 = some { visit7 .onSite none with provisional := true } ∧
      (underPowerFail (admitting .late (some 5))).adm.slotHolding 1 7 = some 0 ∧
      ((underPowerFail (admitting .late (some 5))).slot 0).provisional = some 5 ∧
      (visit7 .onSite none).account ≠ (permitOf ⟨7, 32, 521, 0x10, 90000, 0⟩).account ∧
      (permitOf ⟨7, 32, 521, 0x10, 90000, 0⟩).covers 7 = true :=
  ⟨⟨rfl, rfl, rfl⟩, rfl, by decide, by decide, by decide, rfl, rfl, rfl, rfl, by decide +kernel, by decide +kernel, rfl,
    rfl, rfl, rfl, ⟨rfl, rfl, rfl⟩, rfl, by decide +kernel, rfl, by decide +kernel, by decide +kernel⟩
theorem witness_ChannelAndZeroCalibration :
    (unsealed yard).Ready ∧ (unsealed yard).metrology.closed = true ∧ (unsealed yard).failing = false ∧
      ofByte 16 15 = some 15 ∧ (1 : Word).toNat = 1 ∧ (0xFF800000 : Word).toInt = -8388608 ∧
      ((unsealed yard).onChannel 2 (fun c => { c with sample := some ⟨5, .ok⟩, age := 40 })).channel 2 =
        { yard.channel 2 with sample := some ⟨5, .ok⟩, age := 40 } ∧
      ofByte 4 3 = some 3 ∧
      (((unsealed yard).onBridge 3 (fun x => { x with underlying := true, sum := some 9 })).bridge 3).sum = some 9 ∧
      ((unsealed yard).bridge 3).underlying = false ∧ 1 < (2 : Byte).toNat ∧ 16 ≤ (16 : Byte).toNat ∧
      (0 : Word).toNat < 1 ∧ 16777215 < (16777216 : Word).toNat ∧ (0xFF7FFFFF : Word).toInt < -8388608 ∧
      8388607 < (0x00800000 : Word).toInt ∧ (2 : Byte).toNat = (2 : ChannelNo).val ∧
      ((unsealed yard).channel 2).sample = none ∧ 4 ≤ (4 : Byte).toNat :=
  ⟨⟨rfl, rfl, rfl⟩, by decide +kernel⟩
theorem witness_CalBridgeCalibratesTheBridge :
    (unsealed yard).Ready ∧ (unsealed yard).metrology.closed = true ∧ (unsealed yard).failing = false ∧
      ListedDecks 2 3 [2, 3] ∧ ListedDecks 0xFF 0xFF [] ∧
      (∀ d ∈ ([2, 3] : List DeckNo), ∀ o : BridgeNo, o ≠ 3 → d ∉ ((unsealed yard).bridgeCal o).members) ∧
      SixIntervals 50000 ∧ ¬ SixIntervals 50001 ∧ 60000000 % 20000 = 0 ∧ 100 * 20000 ≤ 60000000 ∧
      4 * 60000000 < 100 * (121 * 20000) ∧ 100 * (120 * 20000) ≤ 4 * 60000000 ∧
      (∀ l ∈ (unsealed yard).listing 3, ((unsealed yard).lane l).state ≠ .entering) ∧
      (unsealed yard).link.reports.length < 32 ∧ (0 : DeckNo) ∈ ((unsealed yard).bridgeCal 0).members ∧
      (4 : Byte) ≠ 0xFF ∧ (0 : Byte) ≠ 0xFF ∧ 5 * 20000 < (100001 : Word).toNat :=
  ⟨⟨rfl, rfl, rfl⟩, rfl, rfl, .inr (.inr (.inr ⟨2, 3, rfl, rfl, by decide, rfl⟩)), .inl ⟨rfl, rfl, rfl⟩,
    by decide +kernel, by simp [SixIntervals], by simp [SixIntervals], by decide +kernel⟩
theorem witness_CalDeckMapReassignsChannels :
    (unsealed yard).Ready ∧ (∀ c : ChannelNo, (Table.all 16 (0xFF : Byte)).read c = 0xFF ∧
        (Table.all 16 (none : Option DeckNo)).read c = none) ∧
      (∀ d : DeckNo, (allSixteen.filter (fun c => ((Table.all 16 (0xFF : Byte)).read c).toNat == d.val)).length ≤ 4) ∧
      (Table.all 16 (none : Option DeckNo)).read 2 ≠ (unsealed yard).deckOf 2 ∧
      (Table.all 16 (none : Option DeckNo)).read 3 = (unsealed yard).deckOf 3 ∧ 1 ∈ ((unsealed yard).bridgeCal 1).members ∧
      ((unsealed yard).bridgeCal 3).members = [] ∧ (unsealed yard).link.reports.length < 32 ∧
      (∀ b : BridgeNo, (unsealed yard).NoCrossing b) ∧
      4 ≤ (((Table.all 16 (0xFF : Byte)).write 15 4).read 15).toNat ∧
      ((Table.all 16 (0xFF : Byte)).write 15 4).read 15 ≠ 0xFF ∧
      4 < (allSixteen.filter (fun c => ((Table.all 16 (3 : Byte)).read c).toNat == (3 : DeckNo).val)).length := by
  refine ⟨⟨rfl, rfl, rfl⟩, by decide +kernel, by decide +kernel, by decide +kernel, by decide +kernel, by decide +kernel,
    by decide +kernel, by decide +kernel, ?_, by decide +kernel⟩
  unfold State.NoCrossing; decide +kernel
theorem witness_InboundArrivalIsJudgedInOrder :
    (yardIn .awaitId).Ready ∧ ofByte 4 0 = some 0 ∧ ofByte 16 4 = some 4 ∧ (yardIn .awaitId).failing = false ∧
      ((yardIn .awaitId).lane 0).state = .awaitId ∧ ((yardIn .awaitId).config 0).role = .inbound ∧
      (yardIn .awaitId).visitOfTag 7 = none ∧ (yardIn .awaitId).ret.visits.records.length < 64 ∧
      ((yardIn .awaitId).stream 4).enabled = true ∧ ((yardIn .awaitId).stream 5).enabled = false ∧
      (yardIn .awaitId).adm.search 7 = none ∧
      ((withVisit (yardIn .awaitId) (visit7 .onSite none)).visitOfTag 7).isSome = true ∧
      64 ≤ ((yardIn .awaitId).onVisits
        (fun x => { x with records := List.replicate 64 (visit7 .onSite none) })).ret.visits.records.length :=
  ⟨⟨rfl, rfl, rfl⟩, by decide +kernel⟩
theorem witness_ArrivalOnAHitCreatesAVisit :
    ({ yardIn .awaitId with adm := lookupCache } : State).adm.search 0x4A000022 = some 0 ∧
      ({ yardIn .awaitId with adm := lookupCache } : State).adm.permit 0 =
        some (entry 0x4A000000 8 310 1 90000 0x30 false) ∧
      (entry 0x4A000000 8 310 1 90000 0x30 false).stopped = false ∧
      (entry 0x4A000000 8 310 1 90000 0x30 false).streams.getLsbD 4 = true ∧
      (((yardIn .awaitId).stream 4).minCharge : Int) ≤ (entry 0x4A000000 8 310 1 90000 0x30 false).credit ∧
      ({ yardIn .awaitId with adm := lookupCache } : State).visitOfTag 0x4A000022 = none := by decide +kernel

/-- Lanes 1 and 2 in AWAIT_ID, and the visit of tag 7 in a state. -/
def yardOut (st : VisitState) (lane : Option LaneNo) : State :=
  withVisit ((yard.onLane 1 (fun n => { n with state := .awaitId })).onLane 2 (fun n => { n with state := .noId }))
    (visit7 st lane)

theorem witness_ArrivalAtOutboundAndBypassLanes :
    (yardOut .onSite none).Ready ∧ ((yardOut .onSite none).lane 1).state = .awaitId ∧
      ((yardOut .onSite none).config 1).role = .outbound ∧
      (yardOut .onSite none).visitOfTag 7 = some (visit7 .onSite none) ∧
      ((yardOut .ticketed (some 2)).lane 2).state = .noId ∧ ((yardOut .ticketed (some 2)).config 2).role = .bypass ∧
      (yardOut .ticketed (some 2)).visitOfTag 7 = some (visit7 .ticketed (some 2)) ∧
      (yardOut .onSite (some 0)).visitOfTag 7 = some (visit7 .onSite (some 0)) ∧
      (yardOut .onSite none).visitOfTag 8 = none ∧
      (yardOut .exiting none).visitOfTag 7 = some (visit7 .exiting none) ∧
      (yardOut .ticketed (some 1)).visitOfTag 7 = some (visit7 .ticketed (some 1)) :=
  ⟨⟨rfl, rfl, rfl⟩, by decide +kernel⟩
/-- Lane 0 in WEIGHING with the grant, a capture and a visit in some state. -/
def servedIn (st : VisitState) : State := withVisit weighing (visit7 st (some 0))

theorem witness_TakeoverAndReleaseOfALane :
    yard.Ready ∧ ofByte 4 0 = some 0 ∧ yard.failing = false ∧ ((yardIn .manual).lane 0).state = .manual ∧
      (yard.lane 0).state ≠ .manual ∧ (yard.lane 0).state ≠ .takeoverPending ∧ yard.laneMoving 0 = false ∧
      (yard.onBarrier 1 (fun b => { b with state := .raising })).laneMoving 0 = true ∧ (yardIn .manual).Ready ∧
      (((yardIn .manual).onBarrier 1 (fun b => { b with state := .fault })).barrier 1).state = .fault ∧
      ((yardIn .manual).onGrant 0 (fun g => { g with holder := some 1 })).heldByOther 0 0 = true ∧
      (yardIn .manual).heldByOther 0 0 = false ∧
      (∀ st : VisitState, (servedIn st).Ready ∧ (servedIn st).siteFull = [] ∧
        (∀ b : BridgeNo, ((servedIn st).grant b).waiting = []) ∧ ((servedIn st).lane 0).visit = some 5 ∧
        (servedIn st).visitOf 5 = some (visit7 st (some 0)) ∧ (servedIn st).laneMoving 0 = false ∧
        ((servedIn st).lane 0).state = .weighing ∧ ((servedIn st).grant 0).holder = some 0 ∧
        ((servedIn st).bridge 0).capture.isSome = true) := by
  refine ⟨yard_ready, rfl, rfl, rfl, by decide +kernel, by decide +kernel, by decide +kernel, by decide +kernel,
    ⟨rfl, rfl, rfl⟩, by decide +kernel, by decide +kernel, by decide +kernel, fun st => ⟨⟨rfl, rfl, rfl⟩, rfl, ?_⟩⟩
  cases st <;> decide +kernel

/-- Lane 0 in CAPTURE_FAILED with visit 5 and the grant. -/
def failedCapture : State :=
  (granted (withVisit yard (visit7 .admitted (some 0)))).onLane 0 (fun n => { n with state := .captureFailed, visit := some 5 })

theorem witness_RetryAndBackoutAfterAFailure :
    failedCapture.Ready ∧ (failedCapture.lane 0).state = .captureFailed ∧ (failedCapture.config 0).bridge = some 0 ∧
      (failedCapture.lane 0).visit = some 5 ∧ (failedCapture.grant 0).holder = some 0 ∧
      (failedCapture.bridge 0).capture = none ∧ failedCapture.failing = false ∧
      (yard.lane 0).state ≠ .captureFailed := ⟨⟨rfl, rfl, rfl⟩, by decide +kernel⟩
theorem witness_BarrierCommandsMoveTheArm :
    (yardIn .manual).Ready ∧ ofByte 8 1 = some 1 ∧ ((yardIn .manual).config 0).rear = some 1 ∧
      ((yardIn .manual).lane 0).state = .manual ∧ (yardIn .manual).heldByOther 0 1 = false ∧
      ((yardIn .manual).onGrant 0 (fun g => { g with holder := some 1 })).heldByOther 0 1 = true :=
  ⟨⟨rfl, rfl, rfl⟩, by decide +kernel⟩
theorem witness_BarrierResetReadsTheSwitches :
    ofByte 8 7 = some 7 ∧ (yard.barrier 7).state ≠ .fault ∧
      ((yard.onBarrier 7 (fun b => { b with state := .fault })).barrier 7).upActive ≠
        ((yard.onBarrier 7 (fun b => { b with state := .fault })).barrier 7).downActive ∧
      ((yard.onBarrier 7 (fun b => { b with state := .fault, upActive := true })).barrier 7).upActive =
        ((yard.onBarrier 7 (fun b => { b with state := .fault, upActive := true })).barrier 7).downActive ∧
      (∀ l ∈ yard.lanesNaming 7, (yard.lane l).state = .laneFault) := by decide +kernel

/-- Bridge 0 STABLE with some G. -/
def stableAt (g : Int) : State := yard.onBridge 0 (fun x => { x with state := .stable, gross := some g })

theorem witness_ZeroAndStallRequests :
    (stableAt 1200000).Ready ∧ ofByte 4 0 = some 0 ∧ ((stableAt 1200000).grant 0).holder = none ∧
      ((stableAt 1200000).bridge 0).state = .stable ∧
      ((stableAt 1200000).bridgeCal 0).zeroInRange (((stableAt 1200000).bridge 0).zb + 1200000) = true ∧
      ((stableAt 1200001).bridgeCal 0).zeroInRange (((stableAt 1200001).bridge 0).zb + 1200001) = false ∧
      ((granted yard).grant 0).holder.isSome = true ∧ (yard.bridge 0).state ≠ .stable ∧
      selectOf 16 ⟨0, 15⟩ = some (.one 15) ∧ selectOf 16 ⟨1, 0⟩ = some .all ∧ selectOf 16 ⟨2, 0⟩ = none ∧
      ofByte 4 4 = none := ⟨⟨rfl, rfl, rfl⟩, by decide +kernel⟩

theorem witness_AnswersToQueries :
    (admitting .active none).Ready ∧ (admitting .active none).failing = false ∧
      answerOf (answerFields 0 (some (entryFields 7))) = .ok (.entry (permitOf (entryFields 7))) ∧
      (admitting .active none).adm.slotHolding 1 7 = some 0 ∧ (permitOf (entryFields 7)).covers 7 = true ∧
      ((admitting .active none).slot 0).state = .active ∧ ((admitting .active none).slot 0).noInstall = false ∧
      (permitOf (entryFields 7)).stopped = false ∧ (permitOf (entryFields 7)).streams.getLsbD 4 = true ∧
      (((admitting .active none).stream 4).minCharge : Int) ≤ (permitOf (entryFields 7)).credit ∧
      (admitting .active none).visitOfTag 7 = none ∧ (admitting .active none).ret.visits.records.length < 64 ∧
      answerOf (answerFields 1 none) = .ok .unknownTag ∧ ((admitting .active none).lane 0).state ≠ .refused ∧
      (underPowerFail (admitting .active none)).failing = true ∧ Answer.unknownTag.covers 7 = true ∧
      ((admitting .late none).slot 0).state = .late ∧ (admitting .late none).adm.slotHolding 1 7 = some 0 ∧
      (∀ l : LaneNo, (yard.slot l).state = .free) ∧ (Answer.entry (permitOf (entryFields 8))).covers 7 = false ∧
      (((admitting .active none).onSlot 0 (fun q => { q with noInstall := true })).slot 0).noInstall = true ∧
      (permitOf ⟨7, 32, 520, 0x10, 90000, 1⟩).stopped = true ∧
      (permitOf ⟨7, 32, 520, 0x20, 90000, 0⟩).streams.getLsbD 4 = false ∧
      (permitOf ⟨7, 32, 520, 0x10, 1499, 0⟩).credit < ((admitting .active none).stream 4).minCharge ∧
      ((withVisit (admitting .active none) (visit7 .onSite none)).visitOfTag 7).isSome = true ∧
      64 ≤ ((admitting .active none).onVisits
        (fun x => { x with records := List.replicate 64 { visit7 .onSite none with tag := 8 } })).ret.visits.records.length ∧
      ((admitting .active none).onVisits
        (fun x => { x with records := List.replicate 64 { visit7 .onSite none with tag := 8 } })).visitOfTag 7 = none ∧
      0 ∉ (admitting .active none).siteFull ∧
      (cacheWith (entry 7 32 77 1 0 0xFF true)).permit 9 = some (entry 7 32 77 1 0 0xFF true) ∧
      (admitting .active none).adm.permit 47 = none ∧
      (∀ i : Fin 48, ({ lookupCache with cache := .all 48 (some (entry 0 32 1 1 0 0 false)) } : Admission).permit i =
        some (entry 0 32 1 1 0 0 false)) :=
  ⟨⟨rfl, rfl, rfl⟩, by decide +kernel⟩
theorem witness_LateAnswerNamesTheAccount :
    (withVisit (admitting .late (some 5)) { visit7 .onSite none with provisional := true }).Ready ∧
      (withVisit (admitting .late (some 5)) { visit7 .onSite none with provisional := true }).visitOf 5 =
        some { visit7 .onSite none with provisional := true } ∧
      ((withVisit (admitting .late (some 5)) { visit7 .onSite none with provisional := true }).slot 0).provisional =
        some 5 ∧
      (withVisit (admitting .late (some 5)) { visit7 .onSite none with provisional := true }).link.reports.length < 32 ∧
      answerOf (answerFields 0 (some (entryFields 7))) = .ok (.entry (permitOf (entryFields 7))) ∧
      (permitOf (entryFields 7)).stopped = false ∧ (permitOf (entryFields 7)).streams.getLsbD 4 = true ∧
      ((yard.stream 4).minCharge : Int) ≤ (permitOf (entryFields 7)).credit ∧
      (permitOf ⟨7, 32, 520, 0x10, 1499, 0⟩).credit < (yard.stream 4).minCharge ∧
      (permitOf ⟨7, 32, 520, 0, 1499, 0⟩).streams.getLsbD 4 = false ∧ (permitOf ⟨7, 32, 520, 0, 0, 1⟩).stopped = true ∧
      answerOf (answerFields 1 none) = .ok .unknownTag ∧
      (withVisit (admitting .late (some 5)) { visit7 .onSite none with provisional := true }).adm.slotHolding 1 7 =
        some 0 :=
  ⟨⟨rfl, rfl, rfl⟩, by decide +kernel⟩
theorem witness_InvalidateAndCreditSet :
    yard.Ready ∧ (65535 : Half) ≠ 0 ∧ 3 ≤ (3 : Byte).toNat ∧ (1 : Byte).toNat ≤ 1 ∧ 1 < (2 : Byte).toNat ∧
      ((admitting .active none).slot 0).state ≠ .free ∧ (yard.slot 0).state = .free := ⟨yard_ready, by decide +kernel⟩
theorem witness_RefusalRecordsAreClearedAndMasked :
    yard.Ready ∧ (1 : Byte).toNat ≤ 1 ∧ 1 < (2 : Byte).toNat ∧ yard.adm.reportPending = false ∧
      (yard.onAdm (fun a => { a with reportPending := true })).adm.reportPending = true ∧ yard.link.reports.length < 32 :=
  ⟨yard_ready, by decide +kernel⟩
/-- A tare of tag 7. -/
def tare7 : Tare := { tag := 7, tare := 14255000, interval := 5000, bridge := none, time := 1000 }

/-- Lanes 0 and 3 in SITE_FULL with tags 8 and 9, and a visit of tag 7 without a lane. -/
def yardFull (stream : StreamNo) : State :=
  { withVisit ((yard.onLane 0 (fun n => { n with state := .siteFull, identity := some ⟨8, stream⟩ })).onLane 3
      (fun n => { n with state := .siteFull, identity := some ⟨9, 4⟩ })) (visit7 .onSite none) with siteFull := [0, 3] }

theorem witness_VisitsAndTaresByRequest :
    yard.Ready ∧ (0 : Byte).toNat = 0 ∧ 1 ≤ (65535 : Word).toNat ∧ (65535 : Word).toNat ≤ 65535 ∧
      65535 < (65536 : Word).toNat ∧ (1 : Byte).toNat = 1 ∧ 1 < (2 : Byte).toNat ∧ yard.visitOf 5 = none ∧
      yard.visitOfTag 7 = none ∧ (withVisit yard (visit7 .onSite none)).visitOfTag 7 = some (visit7 .onSite none) ∧
      (underPowerFail (withVisit yard (visit7 .onSite none))).failing = true ∧
      (withVisit yard (visit7 .exiting none)).visitOf 5 = some (visit7 .exiting none) ∧
      (withVisit yard (visit7 .ticketPending none)).visitOf 5 = some (visit7 .ticketPending none) ∧
      (withVisit (yard0 (fun n => { n with state := .awaitBridge, visit := some 5 })) (visit7 .admitted (some 0))).visitOf
        5 = some (visit7 .admitted (some 0)) ∧ yard.siteFull = [] ∧ (yardFull 4).visitOf 5 = some (visit7 .onSite none) ∧
      (yardFull 4).siteFull = 0 :: [3] ∧ (∀ m ∈ (0 :: [3] : List LaneNo), ((yardFull 4).lane m).state = .siteFull) ∧
      ((yardFull 4).lane 0).identity = some ⟨8, 4⟩ ∧ ((yardFull 5).lane 3).identity = some ⟨9, 4⟩ ∧
      ((yardFull 5).stream 5).enabled = false ∧ ((yardFull 4).stream 4).enabled = true ∧
      (yardFull 4).adm.search 8 = none ∧ (yardFull 4).visitOfTag 8 = none ∧
      ({ yardFull 4 with adm := cacheWith (entry 8 32 310 1 90000 0x30 false) } : State).adm.search 8 = some 9 ∧
      yard.failing = false ∧ ((5000 : Word).toNat : Int) ∣ (14255000 : Word).toInt ∧
      ¬ ((5000 : Word).toNat : Int) ∣ (14255001 : Word).toInt ∧ 4 ≤ (4 : Byte).toNat ∧ (4 : Byte) ≠ 0xFF ∧
      (3 : Byte).toNat = (3 : BridgeNo).val ∧
      (yard.onRet (fun r => { r with tares := r.tares.write 127 (some tare7) })).ret.tares.read 127 = some tare7 ∧
      (∀ i : Fin 128, yard.ret.tares.read i = none) ∧
      (∀ j : Fin 128, ((Table.all 128 (some tare7)).read j) = some tare7) ∧ tare7.tag ≠ 8 :=
  ⟨yard_ready, by decide +kernel⟩
/-- A journal of 240 uncollected tickets, for whose oldest lane 0 waits in TICKET_WAIT with visit 5's ticket. -/
def ticketWaits : State :=
  (((withVisit yard { visit7 .ticketPending (some 0) with pending := some body7 }).onVisits
    (fun x => { x with order := [5] })).onJournal (fun _ =>
      { tickets := (List.range 240).map (fun i => ticketNumbered (i + 1) false), counter := 241, held := false })).onLane 0
    (fun n => { n with state := .ticketWait, visit := some 5 })

/-- Two tickets pending, of visits 5 and 6, in an empty journal. -/
def twoPending : State :=
  yard.onRet (fun r =>
    { r with
      journal := { tickets := [], counter := 4294967295, held := false }
      visits :=
        { records :=
            [{ visit7 .ticketPending none with pending := some body7 },
             { visit7 .ticketPending none with number := 6, tag := 8, pending := some { body7 with tag := 8 } }]
          counter := 7, order := [6, 5] } })
/-- R168, R169: the tickets issue in the pending-ticket order, the numbers passing over 0. -/
theorem test_drain_of_two :
    ((after (.ticketCollect 9) twoPending).ret.journal.tickets.map (fun x => (x.number, x.body.tag))) =
      [(4294967295, 8), (1, 7)] := by decide +kernel

theorem witness_TicketCollectAndTicketBase_drain :
    twoPending.Ready ∧ twoPending.failing = false ∧ (9 : Word) ≠ 0 ∧ twoPending.ret.journal.held = false ∧
      twoPending.ret.visits.order.Nodup ∧
      twoPending.ret.visits.order.map (fun m => (twoPending.visitOf m).bind (·.pending)) =
        [{ body7 with tag := 8 }, body7].map some ∧
      twoPending.ret.journal.tickets = [] ∧ twoPending.ret.journal.tickets.length + 2 ≤ 240 ∧
      (∀ l : LaneNo, (twoPending.lane l).state ≠ .ticketWait) ∧ yard.ret.visits.order = [] :=
  ⟨⟨rfl, rfl, rfl⟩, by decide +kernel⟩
theorem witness_TicketCollectAndTicketBase :
    (withTickets yard).Ready ∧ (withTickets yard).failing = false ∧ (withTickets yard).ret.visits.order = [] ∧
      (withTickets yard).ret.journal.oldest = some 4294967295 ∧ forwardDistance 4294967295 1 < 2 ∧
      2 ≤ forwardDistance 4294967295 2 ∧ forwardDistance 4294967295 2 < 2147483648 ∧
      2147483648 ≤ forwardDistance 4294967295 4294967294 ∧ yard.ret.journal.tickets = [] ∧
      (withTickets yard).ret.journal.tickets ≠ [] ∧
      (withVisit yard { visit7 .ticketPending none with pending := some body7 }).visitOf 5 =
        some { visit7 .ticketPending none with pending := some body7 } ∧
      (∀ l : LaneNo, (yard.lane l).state ≠ .ticketWait) ∧ ticketWaits.Ready ∧ ticketWaits.failing = false ∧
      ticketWaits.ret.visits.order = [5] ∧ ticketWaits.ret.journal.held = false ∧
      ticketWaits.ret.journal.oldest = some 1 ∧ ticketWaits.ret.journal.tickets.length = 240 ∧
      forwardDistance 1 1 < 2147483648 ∧
      ticketWaits.visitOf 5 = some { visit7 .ticketPending (some 0) with pending := some body7 } ∧
      (ticketWaits.lane 0).state = .ticketWait ∧ (ticketWaits.lane 0).visit = some 5 ∧
      (∀ k : LaneNo, k ≠ 0 → (ticketWaits.lane k).state ≠ .ticketWait) ∧
      (ticketWaits.onJournal (fun j => { j with held := true })).ret.journal.held = true := by
  refine ⟨⟨rfl, rfl, rfl⟩, ?_, ?_, ?_, ?_, ?_, ?_, ?_, ?_, ?_, ?_, ?_, ⟨rfl, rfl, rfl⟩, rfl, rfl, rfl, ?_⟩ <;>
    decide +kernel
theorem witness_TicketsAreComputed :
    (caseRecord 23320000 20000).interval ≥ 1 ∧ (caseRecord 11470000 10000).secondPart.interval ≥ 1 ∧
      ((23320000 : Int) - 11470000 + 20000 ≤ 2147483647) ∧
      2147483647 < roundDiv ((150000000 : Int) - -2147480000) 20000 * 20000 ∧ body7.charge < 2147483647 ∧
      20 * body7.ticketInterval ≤ body7.net.natAbs := by decide +kernel
theorem witness_ChannelsTakeSamplesAndStalls :
    yard.powered = true ∧ yard.deckOf 15 = none ∧ yard.deckOf 1 = some 0 ∧ yard.leadOf 0 ≠ some 1 ∧
      (yard.channel 1).fault = false ∧ yard.link.reports.length < 32 ∧ (yard.channel 1).stallTimer = none ∧
      ((yard.onChannel 1 (fun c => { c with stallTimer := some 0 })).channel 1).stallTimer.isSome = true := by
  decide +kernel
/-- The yard with bridge 0 of two decks. -/
def yardTwo : State := yard.onBridgeCal 0 (fun k => { k with members := [0, 1] })

/-- The yard with a sample of 5 counts on deck 1, and the evaluation of bridge 1 that follows it in either order of log
entry 2. -/
def light : State := (yard.onChannel 2 (fun x => x.arrived 5 .ok yard.stallTime)).deckArrival 1
def lightEvaluated (first : Bool) : State :=
  let s := light.onBridge 1 (fun x => x.evaluated (light.evaluation 1))
  let s := { s with evaluations := s.evaluations + 1 }
  let s := if first then (s.decideGrant 1).attemptZero 1 else (s.attemptZero 1).decideGrant 1
  let s := s.testCapture 1
  forEach (s.listing 1) (fun l s => s.testLane l) s
theorem light_arrival :
    after (.sampleArrival 2 5 .ok) yard = (lightEvaluated (Config.grantFirst light.evaluations)).seal.transmit := by
  have h : yard.deckOf 2 = some 1 := by decide +kernel
  have k : (yard.onChannel 2 (fun x => x.arrived 5 .ok yard.stallTime)).leadOf 1 = some 2 := by decide +kernel
  have b : light.bridgeOfDeck 1 = some 1 := by decide +kernel
  have m : (light.bridgeCal 1).members.isEmpty = false := by decide +kernel
  have e : light.evaluate 1 = lightEvaluated (Config.grantFirst light.evaluations) := by
    simp only [State.evaluate, m]; rfl
  have d : light.evaluateDeck 1 = light.evaluate 1 := by simp only [State.evaluateDeck, b]
  have p : yard.powered = true := rfl
  rw [← e, ← d]
  simp [after, exec, execSampleArrival, State.run, State.sampleArrives, h, k, p, light]
theorem light_decks (e : DeckNo) : (after (.sampleArrival 2 5 .ok) yard).deck e = light.deck e := by
  rw [light_arrival]
  generalize Config.grantFirst light.evaluations = first
  revert e; cases first <;> decide +kernel

theorem witness_LeadArrivalWeighsTheBridge :
    yard.powered = true ∧ yard.deckOf 2 = some 1 ∧ yard.leadOf 1 = some 2 ∧ yard.deckChannels 0 = [0, 1] ∧
      yard.leadOf 0 = some 0 ∧ (yard.channelCal 2).calibrated = true ∧ (yard.channelCal 3).calibrated = false ∧
      (yard.onChannel 2 (fun x => { x with sample := some ⟨8388607, .ok⟩ })).cellWeightNow 2 = 8388607 ∧
      (yard.onChannel 2 (fun x => { x with sample := some ⟨8388607, .overrange⟩ })).OverAt 2 ∧ yard.StaleAt 1 ∧
      (yard.onChannel 1 (fun x => { x with sample := some ⟨5, .ok⟩, age := 0, awaited := true })).StaleAt 1 ∧
      yard.bridgeOfDeck 1 = some 1 ∧ (yard.bridgeCal 1).members = [1] ∧ (yard.bridgeCal 1).calibrated = true ∧
      yardApart.bridgeOfDeck 1 = none ∧ yardTwo.bridgeOfDeck 0 = some 0 ∧
      ((yardTwo.onDeck 1 (fun k => { k with condition := .over })).deck 1).condition = .over ∧
      ((after (.sampleArrival 2 5 .ok) yard).deck 1).condition = .valid ∧
      (yard.bridgeCal 1).members.map (fun e => ((after (.sampleArrival 2 5 .ok) yard).deck e).filtered) = [some 5] := by
  simp only [light_decks]
  refine ⟨rfl, by decide +kernel, by decide +kernel, by decide +kernel, by decide +kernel, by decide +kernel,
    by decide +kernel, by decide +kernel, .inl ⟨8388607, by decide +kernel⟩, .inl (by decide +kernel), .inr (.inr (.inr (by decide +kernel))), by decide +kernel⟩

/-- The part as deck 0 has taken 3,000,000 g at its lead channel, in the weighing of visit 5. -/
def weighed : State :=
  ((weighing.onChannel 1 (fun c => { c with sample := some ⟨0, .ok⟩, age := 5 })).onChannel 0
    (fun x => x.arrived (3000000 : BitVec 24).toInt .ok weighing.stallTime)).deckArrival 0

theorem witness_CaptureCompletionWeighsTheVisit :
    weighing.powered = true ∧ weighing.failing = false ∧ weighing.leadOf 0 = some 0 ∧ weighing.bridgeOfDeck 0 = some 0 ∧
      (weighing.bridge 0).capture.isSome = true ∧ (weighing.grant 0).holder = some 0 ∧
      (weighing.lane 0).state = .weighing ∧ weighing.visitOf 5 = some (visit7 .weighingIn (some 0)) ∧
      (weighing.barrier 0).state = .down ∧
      (∀ m ∈ weighing.listing 0, m ≠ 0 → (weighing.lane m).state = .awaitBridge ∨ (weighing.lane m).state = .idle) ∧
      (weighing.beam 0).broken = false ∧ (weighing.beam 1).broken = false ∧ (weighed.evaluation 0).state = .stable ∧
      (weighing.timing 0).hold ≤ (weighed.evaluation 0).run ∧ (weighed.evaluation 0).weight = some 3000000 := by
  decide +kernel

/-- Bridge 1 with a stable run of 2 and 150,000 g on it, its backlog and Zb as given, before a sample of its deck. -/
def settling (backlog : Nat) (zb : Int) : State :=
  yard.onBridge 1 (fun x =>
    { x with zb := zb, backlog := backlog, window := [zb + 150000, zb + 150000, zb + 150000], run := 2 })
/-- That deck with a sample of some counts taken. -/
def settled (backlog : Nat) (zb : Int) (counts : BitVec 24) : State :=
  ((settling backlog zb).onChannel 2 (fun x => x.arrived counts.toInt .ok (settling backlog zb).stallTime)).deckArrival 1

theorem witness_ZeroCaptureOfAnEvaluation :
    (settling 4 0).EvaluatedBy (settled 4 0 150000) 2 150000 1 1 ∧ ((settling 4 0).grant 1).holder = none ∧
      ((settling 4 0).grant 1).waiting = [] ∧ ((settled 4 0 150000).evaluation 1).state = .stable ∧
      ((settling 4 0).timing 1).hold ≤ ((settled 4 0 150000).evaluation 1).run ∧
      ((settled 4 0 150000).evaluation 1).gross = some 150000 ∧ ((settling 4 0).bridge 1).capture = none ∧
      (settling 4 0).NoCrossing 1 ∧
      (settling 4 1200000).EvaluatedBy (settled 4 1200000 1350000) 2 1350000 1 1 ∧
      ((settled 4 1200000 1350000).evaluation 1).state = .stable ∧
      ((settled 4 1200000 1350000).evaluation 1).gross = some 150000 ∧
      (settling 0 0).EvaluatedBy (settled 0 0 150000) 2 150000 1 1 ∧ ((settling 0 0).bridge 1).backlog = 0 := by
  refine ⟨⟨rfl, by decide +kernel, by decide +kernel, by decide +kernel, rfl⟩, by decide +kernel, by decide +kernel,
    by decide +kernel, by decide +kernel, by decide +kernel, by decide +kernel, ?_,
    ⟨rfl, by decide +kernel, by decide +kernel, by decide +kernel, rfl⟩, by decide +kernel, by decide +kernel,
    ⟨rfl, by decide +kernel, by decide +kernel, by decide +kernel, rfl⟩, by decide +kernel⟩
  unfold State.NoCrossing; decide +kernel

/-- Lane 1 waiting for bridge 1 of the yard, on which deck 1 settles. -/
def askingOne (backlog : Nat) : State :=
  (((settling backlog 0).onSite (fun t => { t with lanes := t.lanes.write 1 { t.lanes.read 1 with bridge := some 1 } })).onLane
    1 (fun n => { n with state := .awaitBridge })).onGrant 1 (fun g => { g with waiting := [1] })
def askedOne (backlog : Nat) (counts : BitVec 24) : State :=
  ((askingOne backlog).onChannel 2 (fun x => x.arrived counts.toInt .ok (askingOne backlog).stallTime)).deckArrival 1
/-- Lane 0 in CAPTURE_FAILED holding bridge 0, for which lane 1 waits. -/
def handing (g : Int) : State :=
  ((granted asking).onLane 0 (fun n => { n with state := .captureFailed })).onBridge 0
    (fun x => { x with gross := some g, backlog := 0 })

/-- Lane 1 waits for bridge 0 with every condition of R104 met, and the metrology switch has closed since the evaluation. -/
def sealedAsking : State :=
  { asking.onBridge 0 (fun y => { y with backlog := 0 }) with metrology := { closed := true, hold := none } }

/-- R10, R109: the closed switch withholds the grant, which the open one allows. -/
theorem test_closed_switch_withholds_the_grant :
    (sealedAsking.decideGrant 0).grant 0 = sealedAsking.grant 0 ∧
      (({ sealedAsking with metrology := asking.metrology }).decideGrant 0).grant 0 = { holder := some 1, waiting := [], last := some 1 } := by
  decide +kernel

theorem witness_GrantDecisions :
    asking.Ready ∧ asking.failing = false ∧ (underPowerFail asking).failing = true ∧
      (asking.onBridge 0 (fun y => { y with backlog := 0 })).Grantable 0 ∧ (asking.grant 0).Chooses 1 ∧
      (asking.lane 1).state = .awaitBridge ∧ (asking.config 1).front = some 1 ∧
      ¬ (yard.onBridge 0 (fun y => { y with backlog := 0 })).Grantable 0 ∧
      (askingOne 4).EvaluatedBy (askedOne 4 5000000) 2 5000000 1 1 ∧ (askingOne 4).NoCrossing 1 ∧
      ((askingOne 4).bridge 1).capture = none ∧ ((askingOne 4).timing 1).urgent ≤ ((askingOne 4).bridge 1).backlog ∧
      ((askedOne 4 5000000).evaluation 1).state ≠ .stable ∧
      (askingOne 0).EvaluatedBy (askedOne 0 150000) 2 150000 1 1 ∧ (askingOne 0).NoCrossing 1 ∧
      ((askedOne 0 150000).evaluation 1).state = .stable ∧ ((askedOne 0 150000).evaluation 1).gross = some 150000 ∧
      ((askingOne 0).grant 1).Chooses 1 ∧ ((handing 0).lane 0).state = .captureFailed ∧
      ((handing 0).grant 0).holder = some 0 ∧ (handing 0).laneMoving 0 = false ∧
      ((handing 0).grant 0).waiting = [1] ∧ ((handing 0).onGrant 0 (fun g => { g with holder := none })).Grantable 0 ∧
      ¬ ((handing 200001).onGrant 0 (fun g => { g with holder := none })).Grantable 0 := by
  refine ⟨⟨rfl, rfl, rfl⟩, rfl, rfl,
    ⟨rfl, by decide +kernel, by decide +kernel, .inl (by decide +kernel), 200000, by decide +kernel, by decide +kernel⟩,
    .inl (by decide +kernel), by decide +kernel, by decide +kernel, ?_,
    ⟨rfl, by decide +kernel, by decide +kernel, by decide +kernel, rfl⟩, ?_, by decide +kernel, by decide +kernel,
    by decide +kernel, ⟨rfl, by decide +kernel, by decide +kernel, by decide +kernel, rfl⟩, ?_, by decide +kernel,
    by decide +kernel, .inl (by decide +kernel), by decide +kernel, by decide +kernel, by decide +kernel,
    by decide +kernel,
    ⟨rfl, by decide +kernel, by decide +kernel, .inl (by decide +kernel), 0, by decide +kernel, by decide +kernel⟩, ?_⟩
  · intro h; have := h.state; revert this; decide +kernel
  · unfold State.NoCrossing; decide +kernel
  · unfold State.NoCrossing; decide +kernel
  · intro h
    obtain ⟨g, hg, hl⟩ := h.empty
    have : g = 200001 := by
      have e : (((handing 200001).onGrant 0 (fun g => { g with holder := none })).bridge 0).gross = some 200001 := by
        decide +kernel
      rw [e] at hg; exact (Option.some.inj hg).symm
    subst this; revert hl; decide +kernel

/-- A visit weighed a second time at lane 1: the capture of an outbound visit, ticketing held or not. -/
def weighingOut (held : Bool) (order : List Nat) : State :=
  (((((withVisit yard { visit7 .weighingOut (some 1) with first := some (caseRecord 23320000 20000) }).onVisits
    (fun x => { x with order := order })).onJournal (fun j => { j with held := held })).onLane 1
    (fun n => { n with state := .weighing, visit := some 5 })).onGrant 0 (fun g => { g with holder := some 1 })).onBridge 0
    (fun x => { x with capture := some { visit := 5, lane := 1, start := 990, timeout := 30, deadline := 20000, blocking := .motion },
                       window := [3000000, 3000000, 3000000], run := 2 })
/-- A first weighing at lane 0 of a visit with the permission for a stored tare, the tag's tare in record 0 or not. -/
def weighingTare (tare : Option Tare) : State :=
  (withVisit weighing { visit7 .weighingIn (some 0) with storedTare := true }).onRet
    (fun r => { r with tares := r.tares.write 0 tare })
/-- The other channel of deck 0 with a sample, and the deck with 3,000,000 g on its lead channel. -/
def onDeckZero (s : State) : State := s.onChannel 1 (fun c => { c with sample := some ⟨0, .ok⟩, age := 5 })
def evaluated (s : State) : State :=
  (s.onChannel 0 (fun x => x.arrived (3000000 : BitVec 24).toInt .ok s.stallTime)).deckArrival 0

theorem completes_of (s : State) (l : LaneNo) (v : Visit) (r f : BarrierNo)
    (h : s.powered = true ∧ s.failing = false ∧ s.deckOf 0 = some 0 ∧ s.leadOf 0 = some 0 ∧ s.bridgeOfDeck 0 = some 0 ∧
      (s.bridge 0).capture = some { visit := 5, lane := l, start := 990, timeout := 30, deadline := 20000, blocking := .motion } ∧
      (s.grant 0).holder = some l ∧ (s.lane l).state = .weighing ∧ (s.lane l).visit = some 5 ∧ s.visitOf 5 = some v ∧
      (s.config l).front = some f ∧ (s.barrier f).state = .down ∧ (s.config l).rear = some r ∧
      (∀ m ∈ s.listing 0, m ≠ l → (s.lane m).state = .awaitBridge ∨ (s.lane m).state = .idle) ∧
      (∀ m : LaneNo, (s.lane m).state ≠ .ticketWait) ∧ (s.beam 0).broken = false ∧ (s.beam 1).broken = false ∧
      ((evaluated s).evaluation 0).state = .stable ∧ (s.timing 0).hold ≤ ((evaluated s).evaluation 0).run ∧
      ((evaluated s).evaluation 0).weight = some 3000000) :
    s.CompletesCapture (evaluated s) 0 3000000 0 0 l
      { visit := 5, lane := l, start := 990, timeout := 30, deadline := 20000, blocking := .motion } v r 3000000 := by
  obtain ⟨h1, h2, h3, h4, h5, h6, h7, h8, h9, h10, h11, h12, h13, h14, h15, h16, h17, h18, h19, h20⟩ := h
  exact { powered := h1, deck := h3, lead := h4, bridge := h5, arrived := rfl, failing := h2, capture := h6, lane := rfl,
          holder := h7, state := h8, serves := h9, visit := h10, front := ⟨f, h11, h12⟩, rear := h13, others := h14,
          waiting := fun m e => absurd e (h15 m), beams := ⟨h16, h17⟩, stable := h18, held := h19, weight := h20 }

theorem witness_CaptureCompletionMakesTheTicket :
    (∃ u, (onDeckZero (weighingOut false [])).CompletesCapture u 0 3000000 0 0 1
      { visit := 5, lane := 1, start := 990, timeout := 30, deadline := 20000, blocking := .motion }
      { visit7 .weighingOut (some 1) with first := some (caseRecord 23320000 20000) } 0 3000000) ∧
    (∃ u, (onDeckZero (weighingOut true [9])).CompletesCapture u 0 3000000 0 0 1
      { visit := 5, lane := 1, start := 990, timeout := 30, deadline := 20000, blocking := .motion }
      { visit7 .weighingOut (some 1) with first := some (caseRecord 23320000 20000) } 0 3000000) ∧
    (∃ u, (onDeckZero (weighingTare (some tare7))).CompletesCapture u 0 3000000 0 0 0
      { visit := 5, lane := 0, start := 990, timeout := 30, deadline := 20000, blocking := .motion }
      { visit7 .weighingIn (some 0) with storedTare := true } 1 3000000) ∧
    (∃ u, (onDeckZero (weighingTare none)).CompletesCapture u 0 3000000 0 0 0
      { visit := 5, lane := 0, start := 990, timeout := 30, deadline := 20000, blocking := .motion }
      { visit7 .weighingIn (some 0) with storedTare := true } 1 3000000) ∧
    (yard.config 1).role = .outbound ∧ (yard.config 0).role = .inbound ∧ (weighingTare (some tare7)).tareOf 7 = some tare7 ∧
    tare7.time ≤ (weighingTare (some tare7)).ret.clock ∧ (weighingTare none).tareOf 7 = none ∧
    (weighingOut false []).ret.journal.held = false ∧ (weighingOut false []).ret.visits.order = [] ∧
    (weighingOut false []).ret.journal.tickets.length < 240 ∧ (weighingOut true [9]).ret.journal.held = true ∧
    (computeTicket (visit7 .weighingOut (some 1)) (caseRecord 23320000 20000) (caseRecord 3000000 20000).secondPart
      (yard.stream 4)).direction = .delivery ∧
    ({ weighingOut false [] with
        adm := cacheWith { entry 7 32 520 1 90000 0x30 false with tareRefresh := true } } : State).adm.search 7 = some 9 :=
  ⟨⟨_, completes_of _ 1 _ 0 1 (by decide +kernel)⟩, ⟨_, completes_of _ 1 _ 0 1 (by decide +kernel)⟩,
    ⟨_, completes_of _ 0 _ 1 0 (by decide +kernel)⟩, ⟨_, completes_of _ 0 _ 1 0 (by decide +kernel)⟩, by decide +kernel⟩
theorem witness_DeckAndBridgeTimersExpire :
    (yard.deck 0).freshness = none ∧
      (((yard.onDeck 0 (fun k => { k with freshness := some 0, condition := .stale })).deck 0).freshness.isSome = true) ∧
      ((yard.onDeck 0 (fun k => { k with freshness := some 0, condition := .valid })).deck 0).condition ≠ .stale ∧
      yard.bridgeOfDeck 0 = some 0 ∧ yard.bridgeOfDeck 3 = none ∧ (yard.timing 0).urgent ≠ (yard.bridge 0).backlog + 1 ∧
      (yard.timing 0).urgent = ((yard.onBridge 0 (fun x => { x with backlog := 3 })).bridge 0).backlog + 1 ∧
      (yard.bridge 0).capture = none ∧ (weighing.bridge 0).capture.isSome = true ∧
      (weighing.lane 0).state = .weighing ∧ weighing.link.reports.length < 31 := by decide +kernel

/-- Lane 0 in ENTERING with visit 5, the grant and a running entry timer, over an empty bridge. -/
def enteringEmpty : State :=
  ((granted (withVisit yard (visit7 .admitted (some 0)))).onLane 0
    (fun n => { n with state := .entering, visit := some 5, entryTimer := .running 1 })).onBridge 0
    (fun x => { x with gross := some 0 })

theorem witness_LaneTimersAndQueryDeadlinesExpire :
    ((yard0 (fun n => { n with state := .awaitId, identityTimer := .running 0 })).lane 0).identityTimer = .running 0 ∧
      (yard.lane 0).identityTimer = .stopped ∧ (underPowerFail yard).failing = true ∧ yard.failing = false ∧
      (enteringEmpty.lane 0).state = .entering ∧ enteringEmpty.ownBridgeEmpty 0 = true ∧
      enteringEmpty.approachOccupied 0 = false ∧ enteringEmpty.safetyOccupied (enteringEmpty.config 0).front = false ∧
      (enteringEmpty.grant 0).holder = some 0 ∧ (enteringEmpty.grant 0).waiting = [] ∧ enteringEmpty.siteFull = [] ∧
      yard.ownBridgeEmpty 0 = false ∧ (yard.slot 0).state ≠ .active ∧
      ((admitting .active none).slot 0).deadline = .running 4000 ∧ (yard.config 0).fallback = .refuse ∧
      (yard.config 1).fallback = .provisional ∧
      ((enteringEmpty.onSite (fun t => { t with lanes := t.lanes.write 0 { t.lanes.read 0 with role := .outbound } })).config
        0).role = .outbound ∧ enteringEmpty.visitOf 5 = some (visit7 .admitted (some 0)) := by decide +kernel

/-- Barrier 0 in a state with its loop OCCUPIED or CLEAR and its filters running. -/
def armIn (st : BarrierState) (up down occupied : Bool) : State :=
  (yard.onBarrier 0 (fun b =>
    { b with
      state := st, upActive := up, downActive := down, occupied := occupied, pendingLower := true, upFilter := some 0,
      downFilter := some 0, clearFilter := if occupied then some 0 else none })).onPins
    (fun p => { p with upSwitch := p.upSwitch.write 0 true })

theorem witness_BarriersFollowTheirSwitches :
    yard.powered = true ∧ yard.pins.upSwitch.read 0 ≠ true ∧ yard.pins.downSwitch.read 0 ≠ false ∧
      (yard.barrier 0).upFilter = none ∧ ((armIn .raising false false true).barrier 0).upFilter.isSome = true ∧
      (armIn .raising false false true).pins.upSwitch.read 0 = true ∧
      ((armIn .raising false false true).barrier 0).downActive = false ∧
      (∀ l ∈ yard.lanesNaming 0, (yard.lane l).state = .idle) ∧
      (armIn .lowering false false false).pins.downSwitch.read 0 = true ∧
      ((armIn .lowering false false false).barrier 0).upActive = false ∧
      ((armIn .down false true false).onPins (fun p => { p with downSwitch := p.downSwitch.write 0 false })).pins.downSwitch.read
        0 = false ∧
      ((armIn .raising false true true).barrier 0).downActive = true ∧
      ((armIn .up true false false).barrier 0).upActive = true ∧ ((armIn .up true false false).barrier 0).state = .up ∧
      ((armIn .up true false false).onPins (fun p => { p with upSwitch := p.upSwitch.write 0 false })).pins.upSwitch.read
        0 = false ∧
      (yard.barrier 0).state ≠ .raising ∧ (yard.barrier 0).state ≠ .lowering := by decide +kernel
/-- Lane 0 in LEAVING under its UP rear barrier, whose loop's clear filter runs. -/
def leavingOver (mark : CrossingMark) : State :=
  (yard0 (fun n => { n with state := .leaving, identity := some ⟨7, 4⟩, rearMark := mark })).onBarrier 1 (fun b =>
    { b with state := .up, occupied := true, clearFilter := some 0 })
/-- R78, R90: the rear mark of a LEAVING lane becomes PASSED, and its rear barrier lowers. -/
theorem test_rear_mark :
    ((after (.safetyLoopClear 1) (leavingOver .seen)).lane 0).rearMark = .passed ∧
      ((after (.safetyLoopClear 1) (leavingOver .seen)).barrier 1).state = .lowering ∧
      ((after (.safetyLoopClear 1) (leavingOver .none)).lane 0).rearMark = .none ∧
      ((after (.safetyLoopOccupied 0 .fault) (yardIn .manual)).lane 0).frontMark = .none := by decide +kernel
theorem witness_SafetyLoopsGuardTheArm :
    ((armIn .lowering false false true).barrier 0).occupied = true ∧ (yard.barrier 0).occupied = false ∧
      ((armIn .lowering false false false).barrier 0).state = .lowering ∧ WatchesMarks .idle ∧ ¬ WatchesMarks .manual ∧
      (yard.config 0).front = some 0 ∧ (yard.lane 0).frontMark = .none ∧ (yard.barrier 0).clearFilter = none ∧
      ((armIn .up true false true).barrier 0).clearFilter.isSome = true ∧
      (∀ l ∈ yard.lanesNaming 0, (yard.lane l).state = .idle) ∧ (leavingOver .seen).failing = false ∧
      ((leavingOver .seen).lane 0).state = .leaving ∧ ((leavingOver .seen).config 0).rear = some 1 ∧
      ((leavingOver .seen).config 0).front ≠ some 1 ∧ ((leavingOver .seen).barrier 1).state = .up ∧
      ((leavingOver .seen).barrier 1).clearFilter.isSome = true ∧ ((leavingOver .seen).lane 0).visit = none ∧
      ((leavingOver .seen).lane 0).rearMark = .seen ∧ ((leavingOver .passed).lane 0).rearMark ≠ .seen ∧
      (∀ m ∈ (leavingOver .seen).lanesNaming 1, m ≠ 0 → ((leavingOver .seen).lane m).state = .idle) := by
  refine ⟨by decide +kernel, by decide +kernel, by decide +kernel, ⟨by decide, by decide, by decide⟩,
    fun h => h.2.2 rfl, ?_⟩
  decide +kernel

/-- Lane 0 in ENTERING over a loaded bridge with its front mark PASSED, its loop's clear filter running. -/
def enteringLoaded : State :=
  (((granted (withVisit yard (visit7 .admitted (some 0)))).onLane 0
    (fun n => { n with state := .entering, visit := some 5, frontMark := .passed })).onBridge 0
    (fun x => { x with gross := some 23310000 })).onLoop 0 (fun _ => { occupied := true, clearFilter := some 0 })

theorem witness_ApproachLoopsBringAndLoseVehicles :
    enteringLoaded.powered = true ∧ enteringLoaded.failing = false ∧ (enteringLoaded.loop 0).occupied = true ∧
      (yard.loop 0).occupied = false ∧ (yard.loop 0).clearFilter = none ∧
      (enteringLoaded.loop 0).clearFilter.isSome = true ∧ enteringLoaded.lanesAtLoop 0 = [0] ∧
      ((yardIn .refused).lane 0).state = .refused ∧ (enteringLoaded.lane 0).entered = false ∧
      enteringLoaded.bridgeLoaded 0 = true ∧ enteringLoaded.visitOf 5 = some (visit7 .admitted (some 0)) ∧
      (enteringLoaded.grant 0).holder = some 0 ∧ (enteringLoaded.bridge 0).capture = none ∧
      ((admitting .active none).lane 0).state = .admitting ∧ ((admitting .active none).slot 0).state = .active ∧
      ((yardFull 4).lane 0).state = .siteFull ∧ (asking.lane 1).state = .awaitBridge ∧ asking.lanesAtLoop 1 = [1] ∧
      (asking.grant 0).holder ≠ some 1 ∧ asking.siteFull = [] := by decide +kernel

/-- Lane 0 alone in the yard in a state, with visit 5, the grant of bridge 0 and some G on it; both its marks SEEN, or both
PASSED; its arms in a state with their filters running, the loops CLEAR, the down switches active. -/
def alone (st : LaneState) (v : VisitState) (mark : CrossingMark) (arms : BarrierState) (g : Int) : State :=
  let s := (granted (withVisit yard (visit7 v (some 0)))).onSite (fun t =>
    { t with lanes := (Table.all 4 LaneConfig.lost).write 0 (t.lanes.read 0) })
  let s := s.onLane 0 (fun n =>
    { n with state := st, visit := some 5, identity := some ⟨7, 4⟩, frontMark := mark, rearMark := mark })
  let s := s.onBridge 0 (fun x => { x with gross := some g })
  { s with
    barriers := .all 8
      { s.barrier 0 with
        state := arms, downActive := false, downFilter := some 0, occupied := true, clearFilter := some 0 }
    loops := .all 4 { occupied := true, clearFilter := some 0 } }

theorem witness_SequencesEnd :
    (alone .leaving .onSite .seen .up 0).powered = true ∧ (alone .leaving .onSite .seen .up 0).failing = false ∧
      (alone .leaving .onSite .seen .up 0).siteFull = [] ∧ (alone .leaving .onSite .seen .up 0).lanesNaming 1 = [0] ∧
      ((alone .leaving .onSite .seen .up 0).config 0).rear = some 1 ∧
      ((alone .leaving .onSite .seen .up 0).lane 0).rearMark = .seen ∧
      ((alone .leaving .onSite .seen .up 0).barrier 1).clearFilter.isSome = true ∧
      (alone .leaving .onSite .seen .up 0).visitOf 5 = some (visit7 .onSite (some 0)) ∧
      ((alone .leaving .onSite .passed .lowering 0).barrier 1).state = .lowering ∧
      ((alone .leaving .onSite .passed .lowering 0).barrier 1).downFilter.isSome = true ∧
      (alone .leaving .onSite .passed .lowering 0).pins.downSwitch.read 1 = true ∧
      ((alone .leaving .onSite .passed .lowering 0).barrier 1).upActive = false ∧
      (alone .leaving .onSite .passed .lowering 0).bridgeEmpty 0 = true ∧
      ((alone .leaving .onSite .passed .lowering 0).grant 0).holder = some 0 ∧
      ((alone .leaving .onSite .passed .lowering 0).grant 0).waiting = [] ∧
      (alone .leaving .onSite .passed .lowering 200001).bridgeEmpty 0 = false ∧
      (alone .entering .ticketed .passed .up 9000000).bridgeLoaded 0 = true ∧
      (alone .entering .ticketed .passed .up 9000000).lanesAtLoop 0 = [0] ∧
      ((alone .entering .ticketed .passed .up 9000000).loop 0).clearFilter.isSome = true ∧
      ((alone .entering .ticketed .passed .up 9000000).lane 0).entered = false ∧
      (((alone .entering .ticketed .passed .lowering 0).onLane 0 (fun n => { n with entered := true })).lane 0).entered =
        true ∧
      ((alone .backingOut .admitted .seen .up 0).lane 0).frontMark = .seen ∧
      ((alone .backingOut .admitted .seen .up 0).config 0).rear ≠ some 0 ∧
      ((alone .backingOut .admitted .seen .up 0).lane 0).identity = some ⟨7, 4⟩ ∧
      (alone .backingOut .admitted .seen .up 0).bridgeEmpty 0 = true ∧
      (∀ i : Fin 8, (alone .backingOut .admitted .seen .up 0).adm.records.read i = none) ∧
      ((alone .passing .exiting .seen .up 0).onLoop 0 (fun _ => { occupied := false, clearFilter := none })).approachOccupied
        0 = false := by decide +kernel
theorem witness_BeamsAndMetrologySwitchAreFiltered :
    yard.powered = true ∧ (yard.beam 7).broken = false ∧ yard.pins.metrologyClosed ≠ true ∧
      ({ yard with metrology := { closed := false, hold := some 0 } } : State).metrology.hold ≠ none := by decide +kernel
/-- The yard at the end of a power failure, lane 0 alone at work in a state with held expiries, over an occupied loop. -/
def restored (st : LaneState) : State :=
  let s := (granted (withVisit yard (visit7 .onSite (some 0)))).onLane 0 (fun n =>
    { n with
      state := st, visit := some 5, identityTimer := .expired, entryTimer := .expired, frontMark := .passed,
      rearMark := .passed })
  { ((s.onLane 1 (fun n => { n with state := .manual })).onLane 2 (fun n => { n with state := .manual })).onLane 3
      (fun n => { n with state := .manual }) with
    powerFail := { asserted := true, filter := some 0 }, loops := .all 4 { occupied := true, clearFilter := none } }
/-- Lane 0 then in ADMITTING with its query ACTIVE. -/
def restoredAsking (held : Option Answer) (d : HeldTimer) : State :=
  (restored .admitting).onSlot 0 (fun q => { q with state := .active, held := held, deadline := d })
/-- Every lane in MANUAL, and visit 5's ticket pending. -/
def restoredPending : State :=
  { yardPending with
    powerFail := { asserted := true, filter := some 0 }, lanes := .all 4 { yard.lane 0 with state := .manual } }

/-- Lane 1 waiting for bridge 0 as the power returns, every other lane in MANUAL. -/
def restoredWaiting (backlog : Nat) : State :=
  let s := (asking.onBridge 0 (fun x => { x with backlog := backlog })).onLane 0 (fun n => { n with state := .manual })
  { (s.onLane 2 (fun n => { n with state := .manual })).onLane 3 (fun n => { n with state := .manual }) with
    powerFail := { asserted := true, filter := some 0 }, loops := .all 4 { occupied := true, clearFilter := none } }
theorem witness_PowerComesAndGoes_deassertion :
    (restoredWaiting 0).powered = true ∧ (restoredWaiting 0).failing = true ∧ (restoredWaiting 0).powerFail.filter ≠ none ∧
      (∀ m : LaneNo, (((restoredWaiting 0).lane m).state = .awaitBridge ∧ (restoredWaiting 0).approachOccupied m = true ∧
          ((restoredWaiting 0).slot m).state ≠ .active) ∨
        (((restoredWaiting 0).lane m).state = .manual ∧ ((restoredWaiting 0).slot m).state ≠ .active)) ∧
      (∀ (m : LaneNo) (o : BridgeNo), ((restoredWaiting 0).lane m).state = .awaitBridge →
        ((restoredWaiting 0).grant o).holder ≠ some m) ∧
      (restoredWaiting 0).ret.visits.order = [] ∧ (∀ o : BridgeNo, o ≠ 0 → ((restoredWaiting 0).grant o).waiting = []) ∧
      ((restoredWaiting 0).config 1).front = some 1 ∧ ((restoredWaiting 0).grant 0).Chooses 1 ∧
      (restoredWaiting 0).Grantable 0 ∧ ¬ (restoredWaiting 4).Grantable 0 ∧
      (permitOf ⟨7, 32, 520, 0x10, 90000, 1⟩).stopped = true ∧ (permitOf ⟨7, 32, 520, 0x10, 90000, 0⟩).stopped = false ∧
      (permitOf ⟨7, 32, 520, 0x10, 90000, 0⟩).streams.getLsbD 4 = true ∧
      ((restored .admitting).stream 4).minCharge = 1500 ∧
      ((restoredAsking none .stopped).slot 0).tag = 0 ∧ (restoredAsking none .stopped).visitOfTag 0 = none := by
  refine ⟨rfl, rfl, by decide +kernel, by decide +kernel, by decide +kernel, rfl, by decide +kernel, by decide +kernel,
    .inl (by decide +kernel),
    ⟨rfl, by decide +kernel, by decide +kernel, .inl (by decide +kernel), 200000, by decide +kernel, by decide +kernel⟩, ?_,
    by decide +kernel⟩
  exact fun h => absurd h.urgent (by decide +kernel)

theorem witness_PowerComesAndGoes :
    yard.powered = true ∧ yard.failing = false ∧ (underPowerFail yard).failing = true ∧
      (weighing.bridge 0).capture.isSome = true ∧ (weighing.lane 0).state = .weighing ∧
      ({ yard with powerFail := { asserted := true, filter := some 0 }
                   lanes := .all 4 { yard.lane 0 with state := .manual } } : State).powerFail.filter ≠ none ∧
      (∀ l : LaneNo, (({ yard with lanes := .all 4 { yard.lane 0 with state := .manual } } : State).lane l).state =
        .manual ∧ (yard.slot l).state ≠ .active) ∧
      (∀ b : BridgeNo, (yard.grant b).waiting = []) ∧ yard.ret.visits.order = [] ∧ yard.powerFail.filter = none ∧
      (∀ st : LaneState, (restored st).OnlyLane 0 ∧ ((restored st).lane 0).state = st ∧ (restored st).failing = true ∧
        (restored st).powerFail.filter ≠ none ∧ ((restored st).slot 0).state ≠ .active ∧
        ((restored st).lane 0).identityTimer = .expired ∧ ((restored st).lane 0).entryTimer = .expired ∧
        (restored st).approachOccupied 0 = true ∧ ((restored st).config 0).front = some 0 ∧
        ((restored st).grant 0).holder = some 0 ∧ (restored st).ownBridgeLoaded 0 = false ∧
        (restored st).ownBridgeEmpty 0 = false ∧ ((restored st).lane 0).entered = false ∧
        ((restored st).lane 0).rearMark = .passed ∧ (restored st).laneMoving 0 = false) ∧
      ((restored .noId).onLoop 0 (fun _ => { occupied := false, clearFilter := none })).approachOccupied 0 = false ∧
      (((restored .leaving).onBarrier 1 (fun b => { b with state := .up })).barrier 1).state = .up ∧
      ((restored .leaving).onLane 0 (fun n => { n with visit := none })).lane 0 =
        { (restored .leaving).lane 0 with visit := none } ∧
      (∀ (held : Option Answer) (d : HeldTimer), ((restoredAsking held d).slot 0).state = .active ∧
        ((restoredAsking held d).slot 0).held = held ∧ ((restoredAsking held d).slot 0).deadline = d) ∧
      ((restored .admitting).config 0).fallback = .refuse ∧
      (∀ l : LaneNo, (restoredPending.lane l).state = .manual ∧ (restoredPending.slot l).state ≠ .active) ∧
      (∀ b : BridgeNo, (restoredPending.grant b).waiting = []) ∧ restoredPending.ret.visits.order = [5] ∧
      restoredPending.visitOf 5 = some { visit7 .ticketPending none with pending := some body7 } ∧
      restoredPending.ret.journal.held = false ∧ restoredPending.ret.journal.tickets.length < 240 := by
  refine ⟨rfl, rfl, rfl, by decide +kernel, by decide +kernel, by decide +kernel, by decide +kernel, by decide +kernel,
    rfl, rfl, fun st => ⟨⟨?_, ?_, rfl, rfl⟩, ?_⟩, by decide +kernel, by decide +kernel, by decide +kernel,
    fun held d => ?_, by decide +kernel, by decide +kernel, by decide +kernel, rfl, rfl, rfl, by decide +kernel⟩
  · cases st <;> decide +kernel
  · cases st <;> decide +kernel
  · cases st <;> decide +kernel
  · simp [restoredAsking, State.slot, State.onSlot, State.onAdm]

end Sys2Proof.Tests
end

-- ==== Proofs of family 01: the calibration and its lock ====
section
/-! The metrology switch holds the calibration: every command but a reset keeps it while the switch is OPEN (O16). -/

namespace Sys2Proof.Machine

/-! ### The lock of the metrology switch (R11) -/

/-- The calibration, its counter and the deck map are those of before. -/
def CalibrationKept (s t : State) : Prop :=
  t.ret.cal = s.ret.cal ∧ t.ret.calCounter = s.ret.calCounter ∧ t.ret.site.deckMap = s.ret.site.deckMap

theorem CalibrationKept.of_eq {s t : State} (h : t.ret = s.ret) : CalibrationKept s t := by
  simp [CalibrationKept, h]

/-- While the switch is OPEN the change leaves it OPEN and keeps the calibration, its counter and the deck map. -/
def CalibrationHeld (s t : State) : Prop :=
  s.metrology.closed = false →
    t.metrology.closed = false ∧ CalibrationKept s t

theorem CalibrationHeld.of_eq {s t : State} (hm : t.metrology.closed = s.metrology.closed)
    (hr : t.ret = s.ret) : CalibrationHeld s t := by
  exact fun h => ⟨hm ▸ h, .of_eq hr⟩

theorem CalibrationHeld.refl (s : State) : CalibrationHeld s s := .of_eq rfl rfl

theorem CalibrationHeld.trans {s t u : State} (h : CalibrationHeld s t) (k : CalibrationHeld t u) :
    CalibrationHeld s u := by
  intro ho
  obtain ⟨ht, hcal, hcount, hmap⟩ := h ho
  obtain ⟨hu, hcal', hcount', hmap'⟩ := k ht
  exact ⟨hu, hcal'.trans hcal, hcount'.trans hcount, hmap'.trans hmap⟩

theorem Move.calibrationHeld {s t : State} (h : Move s t) : CalibrationHeld s t := by
  have k := (Moves.one h).kept
  intro ho
  exact ⟨by rw [k.metrology]; exact ho, k.cal, k.calCounter, by rw [k.site]⟩

theorem Change.calibrationHeld {s t : State} (h : Change s t) : CalibrationHeld s t := by
  cases h with
  | move h => exact h.calibrationHeld
  | metrology m h => exact .of_eq h rfl
  | retained f h =>
    intro ho
    rcases h.locked with hc | hk
    · exact absurd hc (by simp [ho])
    · exact ⟨ho, hk⟩
  | _ => exact .of_eq rfl rfl

theorem Changes.calibrationHeld {s t : State} (h : Changes s t) : CalibrationHeld s t := by
  induction h with
  | refl => exact .refl _
  | step _ m ih => exact ih.trans m.calibrationHeld

theorem Moves.calibrationHeld {s t : State} (h : Moves s t) : CalibrationHeld s t := h.changes.calibrationHeld

/-- What any request but the two calibrations of a bridge does is a sequence of changes. -/
theorem Changes.act (r : Request) (s : State) (hb : ∀ f, r ≠ .calBridge f) (hz : ∀ f, r ≠ .calReferenceZero f) :
    Changes s (act r s).state := by
  cases r
  case calBridge f => exact absurd rfl (hb f)
  case calReferenceZero f => exact absurd rfl (hz f)
  case identify => exact .refl s
  case statusRead => exact .lost s (fun k => { k with reportsLost := false }) (fun _ => ⟨rfl, rfl, rfl⟩)
  case reset => exact .refl s
  case configLane f => exact .actConfigLane f s
  case configBridgeTiming f => exact .actConfigBridgeTiming f s
  case configStream f => exact .actConfigStream f s
  case configTimers f => exact .actConfigTimers f s
  case calDeckMap d => exact .actCalDeckMap d s
  case calCell f => exact .actCalCell f s
  case timeSet v => exact .actTimeSet v s
  case arrival l t k => exact .actArrival l t k s
  case laneTakeover l => exact .actLaneTakeover l s
  case laneRelease l => exact .actLaneRelease l s
  case laneRetry l => exact .actLaneRetry l s
  case laneBackout l => exact .actLaneBackout l s
  case barrierCommand l b c => exact .actBarrierCommand l b c s
  case barrierReset b => exact .actBarrierReset b s
  case weightRead x => exact .actRead s _ (act_weightRead x s)
  case zeroNow b => exact .actZeroNow b s
  case zeroWaive b => exact .actZeroWaive b s
  case channelRead x => exact .actRead s _ (act_channelRead x s)
  case channelClear x => exact .actChannelClear x s
  case permitAnswer f => exact .actPermitAnswer f s
  case invalidate c a t => exact .actInvalidate c a t s
  case creditSet a c x => exact .actCreditSet a c x s
  case cacheRead => exact .refl s
  case refusalRead => exact .refl s
  case refusalClear r o => exact .actRefusalClear r o s
  case refusalMask x => exact .actRefusalMask x s
  case visitRead k o => exact .actRead s _ (act_visitRead k o s)
  case visitCancel k o => exact .actVisitCancel k o s
  case tareWrite f => exact .actTareWrite f s
  case tareDelete t => exact .actTareDelete t s
  case tareRead k o => exact .actRead s _ (act_tareRead k o s)
  case ticketRead n => exact .actRead s _ (act_ticketRead n s)
  case ticketCollect n => exact .actTicketCollect n s
  case ticketBase n => exact .actTicketBase n s

/-- The calibration gate is shut while the switch is OPEN (R11). -/
theorem State.calibrationGate_open {s : State} (h : s.metrology.closed = false) :
    s.calibrationGate = some .calLocked := by
  simp [State.calibrationGate, h]

theorem CalibrationHeld.act (r : Request) (s : State) : CalibrationHeld s (act r s).state := by
  cases r
  case calBridge f =>
    intro ho
    simp [Machine.act, actCalBridge, State.calibrationGate_open ho, ho, CalibrationKept]
  case calReferenceZero f =>
    intro ho
    simp [Machine.act, actCalReferenceZero, State.calibrationGate_open ho, ho, CalibrationKept]
  all_goals exact (Changes.act _ s (by simp) (by simp)).calibrationHeld

/-! ### The link unit under the lock -/

theorem CalibrationHeld.onLink (s : State) (f : Link → Link) : CalibrationHeld s (s.onLink f) := .of_eq rfl rfl

theorem CalibrationHeld.takeFrame (s : State) (f : LinkFrame) : CalibrationHeld s (s.takeFrame f) := by
  cases f with
  | request r => exact (CalibrationHeld.act r s).trans (.onLink _ _)
  | unknownKind k => exact .onLink s _
  | badLength k => exact .onLink s _

theorem CalibrationHeld.takeNext (s : State) : CalibrationHeld s s.takeNext := by
  unfold State.takeNext
  split
  · exact .refl s
  · split
    · exact .refl s
    · exact (CalibrationHeld.onLink s _).trans (.takeFrame _ _)

theorem CalibrationHeld.queueFrame (s : State) (f : LinkFrame) : CalibrationHeld s (s.queueFrame f) := by
  unfold State.queueFrame
  split
  · exact (CalibrationHeld.onLink s _).trans (.takeNext _)
  · split
    · exact .onLink s _
    · exact .refl s

theorem CalibrationHeld.frameArrives (s : State) (f : LinkFrame) : CalibrationHeld s (s.frameArrives f) :=
  (CalibrationHeld.onLink s _).trans (.queueFrame _ f)

theorem CalibrationHeld.judgeFrame (s : State) (bytes : List Byte) (n : Nat) :
    CalibrationHeld s (s.judgeFrame bytes n) := by
  unfold State.judgeFrame
  simp only
  split
  · split
    · exact .frameArrives s _
    · exact .onLink s _
  · exact .onLink s _

theorem CalibrationHeld.hostByte (s : State) (b : Byte) (e : Bool) : CalibrationHeld s (s.hostByte b e) := by
  unfold State.hostByte State.collectByte
  repeat' split
  all_goals first
    | exact .refl s
    | exact .onLink s _
    | exact .judgeFrame s _ _

theorem CalibrationHeld.replySent (s : State) (r : Reply) (hb : r.body ≠ .resetAccepted) :
    CalibrationHeld s (s.replySent r) := by
  unfold State.replySent
  refine (CalibrationHeld.onLink s (fun k => { k with current := none })).trans ?_
  split
  · next hr => exact absurd hr hb
  · exact .takeNext _

/-- The end of a frame that is not the reply to RESET. -/
theorem CalibrationHeld.endTransmission (s : State) (h : s.resetsAt .transmitFrameEnd = false) :
    CalibrationHeld s s.endTransmission := by
  unfold State.endTransmission
  split
  · exact .refl s
  · next f hf =>
    refine (CalibrationHeld.onLink s (fun k => { k with sending := none })).trans ?_
    cases f with
    | reply r =>
      have hb : r.body ≠ .resetAccepted := by simpa [State.resetsAt, hf] using h
      exact .replySent _ r hb
    | busy r => exact .onLink _ _
    | query q => exact .onLink _ _
    | report r => exact .refl _

/-! ### Every command under the lock -/

theorem CalibrationHeld.transmit (s : State) : CalibrationHeld s s.transmit := (Changes.transmit s).calibrationHeld

theorem CalibrationHeld.run {s t : State} {f : State → State} (hf : CalibrationHeld s (f s))
    (h : s.run f = .next t) : CalibrationHeld s t := by
  obtain rfl : _ = t := by simpa [State.run] using h
  split
  · exact hf.trans (.transmit _)
  · exact .refl s

theorem CalibrationHeld.runPins {s t : State} {p : Pins → Pins} {f : State → State}
    (hf : ∀ s, CalibrationHeld s (f s)) (h : s.runPins p f = .next t) : CalibrationHeld s t := by
  obtain rfl : _ = t := by simpa [State.runPins] using h
  have hp : CalibrationHeld s (s.onPins p) := .of_eq rfl rfl
  split
  · exact hp.trans ((hf _).trans (.transmit _))
  · exact hp

theorem CalibrationHeld.receive (s : State) {t : State} (r : Request) (h : s.receive r = .next t) :
    CalibrationHeld s t := .run (.frameArrives s _) h

theorem Changes.held_run {s t : State} {f : State → State} (hf : Changes s (f s)) (h : s.run f = .next t) :
    s.metrology.closed = false → CalibrationKept s t := fun ho => (CalibrationHeld.run hf.calibrationHeld h ho).2

/-- The same for an event that also moves the inputs. -/
theorem Changes.held_runPins {s t : State} {p : Pins → Pins} {f : State → State} (hf : ∀ s, Changes s (f s))
    (h : s.runPins p f = .next t) : s.metrology.closed = false → CalibrationKept s t :=
  fun ho => (CalibrationHeld.runPins (fun s => (hf s).calibrationHeld) h ho).2

/-- An event that leaves the retained contents alone. -/
theorem State.run_ret {s t : State} {f : State → State} (hf : (f s).ret = s.ret) (h : s.run f = .next t) :
    t.ret = s.ret := by
  obtain rfl : _ = t := by simpa [State.run] using h
  split
  · simpa using hf
  · rfl

theorem CalibrationHeld.powerFailing (s : State) : CalibrationHeld s s.powerFailing := by
  unfold State.powerFailing
  split
  · exact .of_eq rfl rfl
  · refine CalibrationHeld.trans (t := { s with powerFail := { asserted := true, filter := none } }) (.of_eq rfl rfl) ?_
    exact (((Moves.forEach (fun b s => .failCapture s b) allFour _).changes.trans (.seal _)).trans
      (.report _ _)).calibrationHeld

/-- What a command does with the switch OPEN, but a reset. -/
theorem CalibrationKept.exec {c : Instr} {s t : State} (ho : s.metrology.closed = false)
    (hr : s.resetsAt c = false) (h : Machine.exec c s = .next t) : CalibrationKept s t := by
  cases c
  case identify | statusRead | reset | configLane | configBridgeTiming | configStream | configTimers | calDeckMap |
      calCell | calBridge | calReferenceZero | timeSet | arrival | laneTakeover | laneRelease | laneRetry |
      laneBackout | barrierCommand | barrierReset | weightRead | zeroNow | zeroWaive | channelRead | channelClear |
      permitAnswer | invalidate | creditSet | cacheRead | refusalRead | refusalClear | refusalMask | visitRead |
      visitCancel | tareWrite | tareDelete | tareRead | ticketRead | ticketCollect | ticketBase =>
    exact (CalibrationHeld.receive s _ h ho).2
  all_goals
    simp only [Machine.exec, execHostFrameReceived, execHostFrameGapTimeout, execTransmitFrameEnd, execSampleArrival,
      execCellFrameGapTimeout, execStallTimerExpiry, execFreshnessExpiry, execZeroTimerExpiry,
      execCaptureDeadlineExpiry, execMotionTimerExpiry, execIdentityTimerExpiry, execEntryTimerExpiry,
      execAgingTimerExpiry, execQueryDeadlineExpiry, execClockTick, execMetrologyInputChange,
      execMetrologySwitchChange, execEndSwitchInputChange, execEndSwitchChange, execSafetyLoopOccupied,
      execSafetyLoopInputInactive, execSafetyLoopClear, execApproachLoopOccupied, execApproachLoopInputInactive,
      execApproachLoopClear, execBeamBroken, execBeamInputClear, execBeamClear, execPowerFailAssert,
      execPowerFailInputInactive, execPowerFailDeassert, execLoadCellByteReceived, execHostLinkByteReceived,
      execMainPowerLoss, execBackupSupplyFailure] at h
  case hostFrameReceived k p =>
    refine (CalibrationHeld.run ?_ h ho).2
    split
    · exact .frameArrives s _
    · exact .onLink s _
  case hostFrameGapTimeout => exact (CalibrationHeld.run (.onLink s _) h ho).2
  case transmitFrameEnd => exact (CalibrationHeld.run (.endTransmission s hr) h ho).2
  case hostLinkByteReceived b e => exact (CalibrationHeld.run (.hostByte s b e) h ho).2
  case loadCellByteReceived c b e => exact (Changes.cellByte s c b e).held_run h ho
  case sampleArrival c n st => exact (Changes.sampleArrives s c _ st).held_run h ho
  case cellFrameGapTimeout c => exact (Changes.setReceiver s c _).held_run h ho
  case stallTimerExpiry c => exact (Changes.stallExpired s c).held_run h ho
  case freshnessExpiry d => exact (Changes.freshnessExpired s d).held_run h ho
  case zeroTimerExpiry b => exact (Changes.zeroTimerExpired s b).held_run h ho
  case captureDeadlineExpiry b => exact (Changes.captureExpired s b).held_run h ho
  case motionTimerExpiry b => exact (Changes.motionExpired s b).held_run h ho
  case identityTimerExpiry l => exact (Changes.identityExpired s l).held_run h ho
  case entryTimerExpiry l => exact (Changes.entryTimerExpired s l).held_run h ho
  case agingTimerExpiry => exact (CalibrationHeld.run (.of_eq rfl rfl) h ho).2
  case queryDeadlineExpiry l => exact (Changes.deadlineExpired s l).held_run h ho
  case clockTick =>
    injection h with h
    subst h
    exact ⟨rfl, rfl, rfl⟩
  case metrologyInputChange b =>
    refine (CalibrationHeld.runPins (fun u => ?_) h ho).2
    split <;> exact .of_eq rfl rfl
  case metrologySwitchChange => exact .of_eq (State.run_ret rfl h)
  case endSwitchInputChange b w a =>
    refine Changes.held_runPins (fun u => ?_) h ho
    split
    · exact .refl u
    · exact .barrierKept u b _ (fun x => x.switchInput_kept w a)
  case endSwitchChange b w => exact (Changes.switchHeld s b w).held_run h ho
  case safetyLoopOccupied b i => exact Changes.held_runPins (fun u => .safetyActive u b) h ho
  case safetyLoopInputInactive b =>
    exact Changes.held_runPins (fun u => .barrierKept u b _ (fun x => x.inputsInactive_kept)) h ho
  case safetyLoopClear b => exact (Changes.safetyClear s b).held_run h ho
  case approachLoopOccupied a i => exact Changes.held_runPins (fun u => .approachActive u a) h ho
  case approachLoopInputInactive a => exact Changes.held_runPins (fun u => .onLoop u a _) h ho
  case approachLoopClear a => exact (Changes.approachClear s a).held_run h ho
  case beamBroken m => exact Changes.held_runPins (fun u => .onBeam u m _) h ho
  case beamInputClear m => exact Changes.held_runPins (fun u => .onBeam u m _) h ho
  case beamClear m => exact (Changes.onBeam s m _).held_run h ho
  case powerFailAssert => exact (CalibrationHeld.runPins (fun u => .powerFailing u) h ho).2
  case powerFailInputInactive =>
    refine (CalibrationHeld.runPins (fun u => ?_) h ho).2
    exact .of_eq rfl rfl
  case powerFailDeassert =>
    refine (CalibrationHeld.run ?_ h ho).2
    split
    · exact (Changes.powerRestored s).calibrationHeld
    · exact .refl s
  case resetInput x => exact absurd hr (by simp [State.resetsAt])
  case mainPowerLoss =>
    injection h with h
    subst h
    split <;> exact .of_eq rfl
  case backupSupplyFailure =>
    injection h with h
    subst h
    split <;> exact ⟨rfl, rfl, rfl⟩

end Sys2Proof.Machine

open Sys2Proof Sys2Proof.Machine

/-- Settles O16: every command but a reset goes through changes that the open switch keeps off the calibration. -/
theorem calibrationChangesOnlyWithTheSwitchClosed : Obligations.CalibrationChangesOnlyWithTheSwitchClosed := by
  unfold Obligations.CalibrationChangesOnlyWithTheSwitchClosed
  exact fun c s t ho hr h => CalibrationKept.exec ho hr h

end

-- ==== Proofs of family 01: what one update leaves alone; time, beams, the metrology input, samples ====
section
/-! One SameBut lemma for each one-unit update, and the passing of a millisecond (O3), the filters of the beams and of the
metrology input (O59), the samples off a lead channel and the stalls (O47). -/

namespace Sys2Proof.Machine

/-! ### What one update changes -/

/-- A chain of changes: what the next link changes is among what the whole may change. -/
theorem SameBut.then {ps qs : List Part} {s t u : State} (h : SameBut ps s t) (k : SameBut qs t u)
    (hs : qs ⊆ ps := by decide) : SameBut ps s u :=
  (h.trans k).mono (fun _ hp => (List.mem_append.mp hp).elim id (fun m => hs m))

theorem State.onChannel_same (s : State) (c : ChannelNo) (f : Channel → Channel) :
    SameBut [.channels] s (s.onChannel c f) := by
  intro p hp
  cases p <;> simp [Part.same, State.voiced] at hp ⊢

theorem State.onDeck_same (s : State) (d : DeckNo) (f : Deck → Deck) : SameBut [.decks] s (s.onDeck d f) := by
  intro p hp
  cases p <;> simp [Part.same, State.voiced] at hp ⊢

theorem State.onBridge_same (s : State) (b : BridgeNo) (f : Bridge → Bridge) :
    SameBut [.bridges] s (s.onBridge b f) := by
  intro p hp
  cases p <;> simp [Part.same, State.voiced] at hp ⊢

theorem State.onGrant_same (s : State) (b : BridgeNo) (f : Grant → Grant) : SameBut [.grants] s (s.onGrant b f) := by
  intro p hp
  cases p <;> simp [Part.same, State.voiced] at hp ⊢

theorem State.onBarrier_same (s : State) (b : BarrierNo) (f : Barrier → Barrier) :
    SameBut [.barriers] s (s.onBarrier b f) := by
  intro p hp
  cases p <;> simp [Part.same, State.voiced] at hp ⊢

theorem State.onBeam_same (s : State) (m : BeamNo) (f : Beam → Beam) : SameBut [.beams] s (s.onBeam m f) := by
  intro p hp
  cases p <;> simp [Part.same, State.voiced] at hp ⊢

theorem State.onLane_same (s : State) (l : LaneNo) (f : Lane → Lane) : SameBut [.lanes] s (s.onLane l f) := by
  intro p hp
  cases p <;> simp [Part.same, State.voiced] at hp ⊢

theorem State.onPins_same (s : State) (f : Pins → Pins) : SameBut [.pins] s (s.onPins f) := by
  intro p hp
  cases p <;> simp [Part.same, State.voiced] at hp ⊢

theorem State.onSite_same (s : State) (f : SiteSettings → SiteSettings) : SameBut [.site] s (s.onSite f) := by
  intro p hp
  cases p <;> simp [Part.same, State.voiced] at hp ⊢

theorem State.seal_same (s : State) : SameBut [.checkWord] s s.seal := by
  intro p hp
  cases p <;> simp [Part.same, State.voiced] at hp ⊢

theorem State.report_same (s : State) (r : Report) : SameBut [.reports] s (s.report r) := by
  intro p hp
  cases p <;> simp [Part.same] at hp ⊢

theorem State.metrology_same (s : State) (m : Metrology) : SameBut [.metrology] s { s with metrology := m } := by
  intro p hp
  cases p <;> simp [Part.same, State.voiced] at hp ⊢

theorem State.powerFail_same (s : State) (p : PowerFail) : SameBut [.powerFail] s { s with powerFail := p } := by
  intro p hp
  cases p <;> simp [Part.same, State.voiced] at hp ⊢

/-- The event of a running part. -/
theorem State.run_powered {s : State} (h : s.powered = true) (f : State → State) : s.run f = .next (f s).transmit := by
  simp [State.run, h]

theorem State.runPins_powered {s : State} (h : s.powered = true) (p : Pins → Pins) (f : State → State) :
    s.runPins p f = .next (f (s.onPins p)).transmit := by
  simp [State.runPins, h]

/-! ### A millisecond of the part's own time -/

theorem HeldTimer.tick_running {d : HeldTimer} {left : Nat} (h : d = .running left) : d.tick = .running (left - 1) := by
  rw [h]
  rfl

/-- A timer that does not run stands still. -/
theorem HeldTimer.tick_still {d : HeldTimer} (h : ∀ left : Nat, d ≠ .running left) : d.tick = d := by
  cases d with
  | running left => exact absurd rfl (h left)
  | stopped => rfl
  | expired => rfl

@[simp] theorem State.tick_channel (s : State) (c : ChannelNo) : s.tick.channel c = (s.channel c).tick := by
  simp [State.tick, State.channel]

@[simp] theorem State.tick_deck (s : State) (d : DeckNo) :
    s.tick.deck d = { s.deck d with freshness := Timer.tick (s.deck d).freshness } := by
  simp [State.tick, State.deck]

@[simp] theorem State.tick_bridge (s : State) (b : BridgeNo) : s.tick.bridge b = (s.bridge b).tick := by
  simp [State.tick, State.bridge]

@[simp] theorem State.tick_barrier (s : State) (b : BarrierNo) : s.tick.barrier b = (s.barrier b).tick := by
  simp [State.tick, State.barrier]

@[simp] theorem State.tick_loop (s : State) (a : LoopNo) :
    s.tick.loop a = { s.loop a with clearFilter := Timer.tick (s.loop a).clearFilter } := by
  simp [State.tick, State.loop]

@[simp] theorem State.tick_beam (s : State) (m : BeamNo) :
    s.tick.beam m = { s.beam m with clearFilter := Timer.tick (s.beam m).clearFilter } := by
  simp [State.tick, State.beam]

@[simp] theorem State.tick_lane (s : State) (l : LaneNo) : s.tick.lane l = (s.lane l).tick := by
  simp [State.tick, State.lane]

@[simp] theorem State.tick_slot (s : State) (l : LaneNo) :
    s.tick.slot l = { s.slot l with deadline := (s.slot l).deadline.tick } := by
  simp [State.tick, State.slot, Admission.tick]

/-- The sample age rises below 65,535 (R3). -/
theorem Channel.tick_young {c : Channel} (h : c.age < 65535) :
    c.tick = { c with age := c.age + 1, stallTimer := c.stallTimer.map (· - 1) } := by
  simp [Channel.tick, countTo, Timer.tick, h]

/-- The sample age stops at 65,535 (R3). -/
theorem Channel.tick_old {c : Channel} (h : 65535 ≤ c.age) :
    c.tick = { c with stallTimer := c.stallTimer.map (· - 1) } := by
  have hn : ¬ c.age < 65535 := by omega
  simp [Channel.tick, countTo, Timer.tick, hn]

theorem State.tick_same (s : State) :
    SameBut [.channels, .metrology, .decks, .bridges, .barriers, .loops, .beams, .lanes, .cache, .queries, .powerFail]
      s s.tick := by
  intro p hp
  cases p <;> simp [Part.same, State.voiced, State.tick, Admission.tick] at hp ⊢

theorem step_idle {s : State} (h : s.pending = []) : step s = .next (if s.powered then s.tick else s) := by
  simp [step, h]

/-! ### The two kinds of filters -/

/-- A beam whose input shows clear starts its filter only where it is broken with no filter running (R70). -/
theorem Beam.inputClear_starts {x : Beam} (hb : x.broken = true) (hf : x.clearFilter = none) :
    x.inputClear = { broken := true, clearFilter := some 200 } := by
  cases x
  simp_all [Beam.inputClear]

theorem Beam.inputClear_stands {x : Beam} (h : x.broken = false ∨ x.clearFilter ≠ none) : x.inputClear = x := by
  unfold Beam.inputClear
  rw [if_neg (by rintro ⟨hb, hf⟩; simp_all)]

theorem Beam.held_of_running {x : Beam} (h : x.clearFilter ≠ none) : x.held = { broken := false, clearFilter := none } := by
  simp [Beam.held, Option.isSome_iff_ne_none, h]

theorem Beam.held_of_none {x : Beam} (h : x.clearFilter = none) : x.held = x := by
  simp [Beam.held, h]

/-- An update of one beam leaves the others. -/
theorem State.onBeam_others (s : State) {m o : BeamNo} (h : o ≠ m) (f : Beam → Beam) :
    ((s.onBeam m f).transmit).beam o = s.beam o := by
  simp [State.onBeam_beam_ne, Ne.symm h]

theorem Metrology.held_of_running {m : Metrology} {level : Bool} (h : m.hold ≠ none) :
    m.held level = { closed := level, hold := none } := by
  simp [Metrology.held, Option.isSome_iff_ne_none, h]

theorem Metrology.held_of_none {m : Metrology} {level : Bool} (h : m.hold = none) : m.held level = m := by
  simp [Metrology.held, h]

theorem exec_beamBroken {s : State} (h : s.powered = true) (m : BeamNo) :
    exec (.beamBroken m) s = .next
      ((s.onPins (fun p => p.setBeam m false)).onBeam m (fun _ => { broken := true, clearFilter := none })).transmit := by
  simp [exec, execBeamBroken, State.runPins_powered h]

theorem exec_beamInputClear {s : State} (h : s.powered = true) (m : BeamNo) :
    exec (.beamInputClear m) s = .next
      ((s.onPins (fun p => p.setBeam m true)).onBeam m Beam.inputClear).transmit := by
  simp [exec, execBeamInputClear, State.runPins_powered h]

theorem exec_beamClear {s : State} (h : s.powered = true) (m : BeamNo) :
    exec (.beamClear m) s = .next (s.onBeam m Beam.held).transmit := by
  simp [exec, execBeamClear, State.run_powered h]

/-- The metrology input takes a new level (R10). -/
theorem exec_metrologyInputChange_new {s : State} (h : s.powered = true) {level : Bool}
    (hl : s.pins.metrologyClosed ≠ level) :
    exec (.metrologyInputChange level) s = .next
      (State.transmit { s.onPins (fun p => { p with metrologyClosed := level }) with
        metrology := s.metrology.inputChanged level }) := by
  simp only [exec, execMetrologyInputChange, State.runPins_powered h, if_neg hl]
  rfl

theorem exec_metrologyInputChange_same {s : State} (h : s.powered = true) :
    exec (.metrologyInputChange s.pins.metrologyClosed) s = .next s.transmit := by
  simp only [exec, execMetrologyInputChange, State.runPins_powered h, if_true]
  rfl

theorem exec_metrologySwitchChange {s : State} (h : s.powered = true) :
    exec .metrologySwitchChange s = .next
      (State.transmit { s with metrology := s.metrology.held s.pins.metrologyClosed }) := by
  simp [exec, execMetrologySwitchChange, State.run_powered h]

/-- The pins and one beam change. -/
theorem State.pinsBeam_same (s : State) (p : Pins → Pins) (m : BeamNo) (f : Beam → Beam) :
    SameBut [.pins, .beams] s ((s.onPins p).onBeam m f).transmit :=
  (((SameBut.refl s _).then (s.onPins_same p)).then ((s.onPins p).onBeam_same m f)).transmit

end Sys2Proof.Machine

open Sys2Proof Sys2Proof.Machine

/-- Settles O3: the step of an empty queue is the tick of every unit. -/
theorem emptyQueueLetsTimePass : Obligations.EmptyQueueLetsTimePass := by
  unfold Obligations.EmptyQueueLetsTimePass
  intro s hq
  refine ⟨_, step_idle hq, fun hoff => by simp [hoff], fun hon => ?_⟩
  simp only [hon, if_true]
  refine ⟨fun c => ⟨fun h => ?_, fun h => ?_⟩, rfl, fun d => ?_, fun b => ?_, fun b => ?_, fun a => ?_, fun m => ?_,
    fun l => ?_, fun l => ?_, rfl, rfl, rfl, rfl, s.tick_same⟩
  · rw [State.tick_channel, Channel.tick_young h]
  · rw [State.tick_channel, Channel.tick_old h]
  · exact s.tick_deck d
  · exact s.tick_bridge b
  · exact s.tick_barrier b
  · exact s.tick_loop a
  · exact s.tick_beam m
  · rw [State.tick_lane]
    exact ⟨rfl, fun _ => HeldTimer.tick_running, HeldTimer.tick_still, fun _ => HeldTimer.tick_running,
      HeldTimer.tick_still⟩
  · rw [State.tick_slot]
    exact ⟨rfl, fun _ => HeldTimer.tick_running, HeldTimer.tick_still⟩

/-- Settles O59: each of the five events is one update of one filter. -/
theorem beamsAndMetrologySwitchAreFiltered : Obligations.BeamsAndMetrologySwitchAreFiltered := by
  unfold Obligations.BeamsAndMetrologySwitchAreFiltered
  refine ⟨fun m s hp => ⟨?broken, ?inputClear, ?clear⟩, fun s hp => ⟨fun level hl => ?changed, ?still, ?switched⟩⟩
  case broken =>
    exact ⟨_, exec_beamBroken hp m, by simp, by simp [Pins.setBeam], fun o ho => State.onBeam_others _ ho _,
      s.pinsBeam_same _ m _⟩
  case inputClear =>
    refine ⟨_, exec_beamInputClear hp m, fun hb hf => ?_, fun h => ?_, fun o ho => State.onBeam_others _ ho _,
      s.pinsBeam_same _ m _⟩
    · simpa using Beam.inputClear_starts hb hf
    · simpa using Beam.inputClear_stands h
  case clear =>
    refine ⟨_, exec_beamClear hp m, fun h => ?_, fun h => ?_, fun o ho => State.onBeam_others _ ho _,
      (s.onBeam_same m _).transmit⟩
    · simpa using Beam.held_of_running h
    · simpa using Beam.held_of_none h
  case changed =>
    refine ⟨_, exec_metrologyInputChange_new hp hl, by simp, by simp [Metrology.inputChanged], ?_⟩
    exact (((SameBut.refl s _).then (s.onPins_same _)).then (State.metrology_same _ _)).transmit
  case still => exact ⟨_, exec_metrologyInputChange_same hp, (SameBut.refl s []).transmit⟩
  case switched =>
    refine ⟨_, exec_metrologySwitchChange hp, fun h => ?_, fun h => ?_, (s.metrology_same _).transmit⟩
    · simpa using Metrology.held_of_running h
    · simpa using Metrology.held_of_none h

end

-- ==== Proofs of family 01: samples off the lead channel, gap timeouts and stalls ====
section
/-! The events of a load-cell line that do not weigh (O47). -/

namespace Sys2Proof.Machine

/-! ### The events -/

theorem exec_sampleArrival {s : State} (h : s.powered = true) (c : ChannelNo) (counts : BitVec 24) (st : SampleStatus) :
    exec (.sampleArrival c counts st) s = .next (s.sampleArrives c counts.toInt st).transmit := by
  simp [exec, execSampleArrival, State.run_powered h]

theorem exec_cellFrameGapTimeout {s : State} (h : s.powered = true) (c : ChannelNo) :
    exec (.cellFrameGapTimeout c) s = .next (s.onChannel c (fun x => { x with receiver := .hunting })).transmit := by
  simp [exec, execCellFrameGapTimeout, State.run_powered h, State.setReceiver]

theorem exec_stallTimerExpiry {s : State} (h : s.powered = true) (c : ChannelNo) :
    exec (.stallTimerExpiry c) s = .next (s.stallExpired c).transmit := by
  simp [exec, execStallTimerExpiry, State.run_powered h]

/-- An unused channel takes no sample (R5). -/
theorem State.sampleArrives_unused {s : State} {c : ChannelNo} (h : s.deckOf c = none) (n : Int) (st : SampleStatus) :
    s.sampleArrives c n st = s.onChannel c (fun x => { x with receiver := .hunting }) := by
  simp [State.sampleArrives, h]

/-- The channel's part of a sample's arrival: the recording, and CHANNEL_FAULT where the fault flag is newly set (R3). -/
def State.sampleTaken (s : State) (c : ChannelNo) (d : DeckNo) (n : Int) (st : SampleStatus) : State :=
  if st = .cellFault ∧ (s.channel c).fault = false then
    (s.onChannel c (fun x => x.arrived n st s.stallTime)).report (.channelFault c (some d) n s.ret.clock)
  else s.onChannel c (fun x => x.arrived n st s.stallTime)

theorem State.sampleTaken_loud {s : State} {c : ChannelNo} {d : DeckNo} {n : Int} {st : SampleStatus}
    (hs : st = .cellFault) (hf : (s.channel c).fault = false) :
    s.sampleTaken c d n st =
      (s.onChannel c (fun x => x.arrived n st s.stallTime)).report (.channelFault c (some d) n s.ret.clock) :=
  if_pos ⟨hs, hf⟩

theorem State.sampleTaken_quiet {s : State} {c : ChannelNo} {d : DeckNo} {n : Int} {st : SampleStatus}
    (h : st ≠ .cellFault ∨ (s.channel c).fault = true) :
    s.sampleTaken c d n st = s.onChannel c (fun x => x.arrived n st s.stallTime) :=
  if_neg (by rintro ⟨hs, hf⟩; simp_all)

theorem State.sampleTaken_cases (s : State) (c : ChannelNo) (d : DeckNo) (n : Int) (st : SampleStatus) :
    s.sampleTaken c d n st = s.onChannel c (fun x => x.arrived n st s.stallTime) ∨
      s.sampleTaken c d n st =
        (s.onChannel c (fun x => x.arrived n st s.stallTime)).report (.channelFault c (some d) n s.ret.clock) := by
  unfold State.sampleTaken
  split
  · exact .inr rfl
  · exact .inl rfl

theorem State.sampleTaken_channels (s : State) (c : ChannelNo) (d : DeckNo) (n : Int) (st : SampleStatus) :
    (s.sampleTaken c d n st).channels = (s.onChannel c (fun x => x.arrived n st s.stallTime)).channels := by
  rcases s.sampleTaken_cases c d n st with h | h
  all_goals rw [h]
  rfl

@[simp] theorem State.sampleTaken_channel (s : State) (c : ChannelNo) (d : DeckNo) (n : Int) (st : SampleStatus)
    (o : ChannelNo) :
    (s.sampleTaken c d n st).channel o = (s.onChannel c (fun x => x.arrived n st s.stallTime)).channel o := by
  simp [State.channel, State.sampleTaken_channels]

theorem State.sampleTaken_same (s : State) (c : ChannelNo) (d : DeckNo) (n : Int) (st : SampleStatus) :
    SameBut [.channels, .reports] s (s.sampleTaken c d n st) := by
  have hc := (SameBut.refl s [.channels, .reports]).then (s.onChannel_same c (fun x => x.arrived n st s.stallTime))
  rcases s.sampleTaken_cases c d n st with h | h <;> rw [h]
  · exact hc
  · exact hc.then (State.report_same _ _)

/-- The arrival on an assigned channel: the channel's part, then for a lead channel the deck's and the bridge's. -/
theorem State.sampleArrives_assigned {s : State} {c : ChannelNo} {d : DeckNo} (h : s.deckOf c = some d) (n : Int)
    (st : SampleStatus) :
    s.sampleArrives c n st =
      if s.leadOf d = some c then (((s.sampleTaken c d n st).deckArrival d).evaluateDeck d).seal
      else s.sampleTaken c d n st := by
  have hl : (s.sampleTaken c d n st).leadOf d = s.leadOf d := by
    rcases s.sampleTaken_cases c d n st with h | h <;> rw [h] <;> rfl
  simp only [← hl]
  simp only [State.sampleArrives, h]
  rfl

theorem State.stallExpired_of_none {s : State} {c : ChannelNo} (h : (s.channel c).stallTimer = none) :
    s.stallExpired c = s := by
  simp [State.stallExpired, h]

/-- A stall that was flagged before is not reported again (R4). -/
theorem State.stallExpired_again {s : State} {c : ChannelNo} (h : (s.channel c).stallTimer.isSome = true)
    (hf : (s.channel c).stall = true) :
    s.stallExpired c = s.onChannel c (fun x => { x with stallTimer := some s.stallTime, stall := true }) := by
  simp [State.stallExpired, h, hf]

theorem State.stallExpired_first {s : State} {c : ChannelNo} (h : (s.channel c).stallTimer.isSome = true)
    (hf : (s.channel c).stall = false) :
    s.stallExpired c = (s.onChannel c (fun x => { x with stallTimer := some s.stallTime, stall := true })).report
      (.channelStall c (s.deckOf c) (s.channel c).age s.ret.clock) := by
  simp [State.stallExpired, h, hf]

/-- One channel takes an update and one report is queued: the report comes after those that wait. -/
theorem State.channelReported_voiced (s : State) (c : ChannelNo) (f : Channel → Channel) (r : Report)
    (h : s.link.reports.length < 32) :
    ((s.onChannel c f).report r).transmit.voiced = s.voiced ++ [r] ∧
      ((s.onChannel c f).report r).transmit.link.reportsLost = s.link.reportsLost := by
  have hr : (s.onChannel c f).link.reports.length < 32 := h
  rw [State.transmit_voiced, State.report_voiced _ _ hr, State.transmit_link_reportsLost, State.report_lost _ _ hr]
  exact ⟨rfl, rfl⟩

end Sys2Proof.Machine

open Sys2Proof Sys2Proof.Machine

/-- Settles O47: each event is one update of its channel, with one report where a flag is newly set. -/
theorem channelsTakeSamplesAndStalls : Obligations.ChannelsTakeSamplesAndStalls := by
  unfold Obligations.ChannelsTakeSamplesAndStalls
  refine fun c s hp => ⟨fun counts st hd => ?unused, fun counts st d hd hl => ?offLead, ?gap, fun ht => ?noStall,
    fun ht => ?stall⟩
  case unused =>
    refine ⟨_, exec_sampleArrival hp c counts st, ?_⟩
    rw [State.sampleArrives_unused hd]
    exact ⟨by simp, fun o ho => by simp [State.onChannel_channel_ne, Ne.symm ho], (s.onChannel_same c _).transmit⟩
  case offLead =>
    refine ⟨_, exec_sampleArrival hp c counts st, ?_⟩
    rw [State.sampleArrives_assigned hd, if_neg hl]
    refine ⟨?_, fun o ho => ?_, (s.sampleTaken_same c d _ st).transmit, fun hq => ?_, fun hs hf hroom => ?_⟩
    · simp [Channel.arrived, State.stallTime]
    · simp [State.onChannel_channel_ne, Ne.symm ho]
    · rw [State.sampleTaken_quiet hq]
      exact (s.onChannel_same c _).transmit
    · rw [State.sampleTaken_loud hs hf]
      exact s.channelReported_voiced c _ _ hroom
  case gap =>
    exact ⟨_, exec_cellFrameGapTimeout hp c, by simp, fun o ho => by simp [State.onChannel_channel_ne, Ne.symm ho],
      (s.onChannel_same c _).transmit⟩
  case noStall =>
    refine ⟨_, exec_stallTimerExpiry hp c, ?_⟩
    rw [State.stallExpired_of_none ht]
    exact (SameBut.refl s []).transmit
  case stall =>
    refine ⟨_, exec_stallTimerExpiry hp c, ?_⟩
    cases hf : (s.channel c).stall with
    | true =>
      rw [State.stallExpired_again ht hf]
      refine ⟨by simp [State.stallTime], fun o ho => by simp [State.onChannel_channel_ne, Ne.symm ho], ?_,
        fun _ => (s.onChannel_same c _).transmit, by simp⟩
      exact (s.onChannel_same c _).transmit.mono (by simp)
    | false =>
      rw [State.stallExpired_first ht hf]
      refine ⟨by simp [State.stallTime], fun o ho => by simp [State.onChannel_channel_ne, Ne.symm ho], ?_, by simp,
        fun _ hroom => s.channelReported_voiced c _ _ hroom⟩
      exact (((SameBut.refl s _).then (s.onChannel_same c _)).then (State.report_same _ _)).transmit

end

-- ==== Proofs of family 01: refused requests ====
section
/-! What a request that is not accepted leaves (O22), and the refusals under power fail and at the open metrology switch
(O28). -/

namespace Sys2Proof.Machine

/-! ### A refused request changes nothing (R189) -/

/-- The taking of a request is harmless: it leaves the state as it is, or its status tells of a change. -/
def Taken.Harmless (s : State) (t : Taken) : Prop := t.state = s ∨ t.status = .ok ∨ t.status = .late

theorem Taken.Harmless.refused (s : State) (st : Status) : Taken.Harmless s (s.refused st) := .inl rfl

theorem Taken.Harmless.accepted (s u : State) (body : ReplyBody) : Taken.Harmless s (u.accepted body) := .inr (.inl rfl)

theorem Taken.Harmless.visitReply (s : State) (v : Option Visit) : Taken.Harmless s (s.visitReply v) := by
  cases v with
  | none => exact .refused s _
  | some v => exact .accepted s s _

theorem Taken.Harmless.cancelFound (s : State) (v : Option Visit) : Taken.Harmless s (s.cancelFound v) := by
  unfold State.cancelFound
  repeat' split
  all_goals first
    | exact .refused s _
    | exact .accepted s _ _

theorem Taken.Harmless.lateAnswer (s : State) (l : LaneNo) (a : Answer) : Taken.Harmless s (s.lateAnswer l a) := by
  refine .inr (.inr ?_)
  unfold State.lateAnswer
  simp only
  split <;> rfl

theorem Taken.Harmless.takeAnswer (s : State) (l : LaneNo) (a : Answer) : Taken.Harmless s (s.takeAnswer l a) := by
  unfold State.takeAnswer State.timelyAnswer
  simp only
  split
  · split <;> exact .accepted s _ _
  · split
    · exact .refused s _
    · exact .lateAnswer s l a

/-- Every block refuses without a change. -/
theorem Taken.Harmless.act (r : Request) (s : State) : Taken.Harmless s (act r s) := by
  cases r
  all_goals
    simp only [Machine.act, actIdentify, actStatusRead, actReset, actConfigLane, actConfigBridgeTiming, actConfigStream,
      actConfigTimers, actCalDeckMap, actCalCell, actCalBridge, actCalReferenceZero, actTimeSet, actArrival,
      actLaneTakeover, actLaneRelease, actLaneRetry, actLaneBackout, actBarrierCommand, actBarrierReset, actWeightRead,
      actZeroNow, actZeroWaive, actChannelRead, actChannelClear, actPermitAnswer, actInvalidate, State.invalidate,
      actCreditSet, actCacheRead, actRefusalRead, actRefusalClear, actRefusalMask, actVisitRead, actVisitCancel,
      actTareWrite, actTareDelete, actTareRead, actTicketRead, actTicketCollect, actTicketBase]
    repeat' split
  all_goals first
    | exact .accepted s _ _
    | exact .refused s _
    | exact .visitReply s _
    | exact .cancelFound s _
    | exact .takeAnswer s _ _

/-- A request's own row of the table is the arrival of its frame. -/
theorem exec_ofRequest (r : Request) (s : State) : exec (Instr.ofRequest r) s = s.receive r := by
  cases r <;> rfl

/-! ### The refusals under power fail -/

section
variable {s : State}

/-- The requests that look at the power-fail input first. -/
theorem actConfigTimers_failing (h : s.failing = true) (f : ConfigTimersFields) :
    actConfigTimers f s = s.refused .powerFail := by
  simp [actConfigTimers, h]

theorem actTimeSet_failing (h : s.failing = true) (v : Word) : actTimeSet v s = s.refused .powerFail := by
  simp [actTimeSet, h]

theorem actTareDelete_failing (h : s.failing = true) (tag : Word) : actTareDelete tag s = s.refused .powerFail := by
  simp [actTareDelete, h]

theorem actConfigBridgeTiming_failing (h : s.failing = true) {f : BridgeTimingFields} {b : BridgeNo}
    (hb : ofByte 4 f.bridge = some b) : actConfigBridgeTiming f s = s.refused .powerFail := by
  simp [actConfigBridgeTiming, h, hb]

theorem actLaneTakeover_failing (h : s.failing = true) {x : Byte} {l : LaneNo} (hl : ofByte 4 x = some l) :
    actLaneTakeover x s = s.refused .powerFail := by
  simp [actLaneTakeover, h, hl]

theorem actLaneRelease_failing (h : s.failing = true) {x : Byte} {l : LaneNo} (hl : ofByte 4 x = some l) :
    actLaneRelease x s = s.refused .powerFail := by
  simp [actLaneRelease, h, hl]

theorem actLaneRetry_failing (h : s.failing = true) {x : Byte} {l : LaneNo} (hl : ofByte 4 x = some l) :
    actLaneRetry x s = s.refused .powerFail := by
  simp [actLaneRetry, h, hl]

theorem actLaneBackout_failing (h : s.failing = true) {x : Byte} {l : LaneNo} (hl : ofByte 4 x = some l) :
    actLaneBackout x s = s.refused .powerFail := by
  simp [actLaneBackout, h, hl]

theorem actArrival_failing (h : s.failing = true) {x y : Byte} {l : LaneNo} {k : StreamNo} (tag : Word)
    (hl : ofByte 4 x = some l) (hk : ofByte 16 y = some k) : actArrival x tag y s = s.refused .powerFail := by
  simp [actArrival, h, hl, hk]

theorem actTicketCollect_failing (h : s.failing = true) {n : Word} (hn : n ≠ 0) :
    actTicketCollect n s = s.refused .powerFail := by
  rw [actTicketCollect, if_neg hn, if_pos h]

theorem actTicketBase_failing (h : s.failing = true) {n : Word} (hn : n ≠ 0) (he : s.ret.journal.tickets = []) :
    actTicketBase n s = s.refused .powerFail := by
  rw [actTicketBase, if_neg hn]
  simp [h, he]

theorem actConfigLane_failing (h : s.failing = true) {f : ConfigLaneFields} {l : LaneNo} {k : LaneConfig}
    (hl : ofByte 4 f.lane = some l) (hk : laneConfigOf f = some k) (hfit : s.configFits l k = true) :
    actConfigLane f s = s.refused .powerFail := by
  simp [actConfigLane, h, hl, hk, hfit]

theorem actTareWrite_failing (h : s.failing = true) {f : TareWriteFields} {x : Tare}
    (hx : tareOfFields f s.ret.clock = some x) : actTareWrite f s = s.refused .powerFail := by
  simp [actTareWrite, h, hx]

theorem State.cancelFound_failing (h : s.failing = true) (v : Visit) :
    s.cancelFound (some v) = s.refused .powerFail := by
  simp [State.cancelFound, h]

theorem actVisitCancel_failing (h : s.failing = true) {kind : Byte} {operand : Word} {v : Visit}
    (hv : (∃ n : Nat, visitSelect kind operand = some (.number n) ∧ s.visitOf n = some v) ∨
      ∃ tag : Word, visitSelect kind operand = some (.tag tag) ∧ s.visitOfTag tag = some v) :
    actVisitCancel kind operand s = s.refused .powerFail := by
  rcases hv with ⟨n, hsel, hv⟩ | ⟨tag, hsel, hv⟩ <;> simp [actVisitCancel, hsel, hv, State.cancelFound_failing h]

theorem barrierCommandOf_isSome {command : Byte} (h : command.toNat ≤ 1) :
    ∃ give, barrierCommandOf command = some give := by
  have hc : command = 0 ∨ command = 1 := by bv_omega
  rcases hc with rfl | rfl
  · exact ⟨_, rfl⟩
  · exact ⟨_, rfl⟩

theorem actBarrierCommand_failing (h : s.failing = true) {x y command : Byte} {l : LaneNo} {b : BarrierNo}
    (hl : ofByte 4 x = some l) (hb : ofByte 8 y = some b) (hc : command.toNat ≤ 1)
    (hn : (s.config l).front = some b ∨ (s.config l).rear = some b) (hm : (s.lane l).state = .manual) :
    actBarrierCommand x y command s = s.refused .powerFail := by
  obtain ⟨give, hg⟩ := barrierCommandOf_isSome hc
  have hnames : (s.config l).names b = true := by simpa [LaneConfig.names] using hn
  simp [actBarrierCommand, h, hl, hb, hg, hnames, hm]

/-- The slot's provisional visit is the one a late answer would change (R138, R141). -/
theorem State.wouldChange_of {q : QuerySlot} {p : Permit} {n : Nat} {v : Visit} (hq : q.provisional = some n)
    (hv : s.visitOf n = some v) (ht : v.tag = q.tag) (hp : v.provisional = true) (ha : v.account ≠ p.account) :
    s.wouldChange q (.entry p) = true := by
  simp [State.wouldChange, State.provisionalVisit, hq, hv, ht, hp, ha]

theorem actPermitAnswer_failing (h : s.failing = true) {f : PermitAnswerFields} {l : LaneNo} {p : Permit}
    (ha : answerOf f = .ok (.entry p)) (hl : s.adm.slotHolding f.number.toNat f.tag = some l)
    (hc : p.covers f.tag = true) (hst : (s.slot l).state = .late) (hw : s.wouldChange (s.slot l) (.entry p) = true) :
    actPermitAnswer f s = s.refused .powerFail := by
  simp [actPermitAnswer, ha, hl, Answer.covers, hc, State.takeAnswer, hst, h, hw]

/-! ### The calibration gate -/

theorem State.calibrationGate_failing (hc : s.metrology.closed = true) (h : s.failing = true) :
    s.calibrationGate = some .powerFail := by
  simp [State.calibrationGate, hc, h]

theorem State.calibrationGate_none (hc : s.metrology.closed = true) (h : s.failing = false) :
    s.calibrationGate = none := by
  simp [State.calibrationGate, hc, h]

/-- The four calibration requests are answered by the gate where it is shut (R11). -/
theorem act_gated {st : Status} (h : s.calibrationGate = some st) :
    (∀ d, act (.calDeckMap d) s = s.refused st) ∧ (∀ f, act (.calCell f) s = s.refused st) ∧
      (∀ f, act (.calBridge f) s = s.refused st) ∧ ∀ f, act (.calReferenceZero f) s = s.refused st := by
  simp [act, actCalDeckMap, actCalCell, actCalBridge, actCalReferenceZero, h]

end

theorem State.turned_gated {s : State} (hs : s.Ready) {st : Status} (h : s.calibrationGate = some st) :
    (∀ d : Table 16 Byte, ∃ t, exec (.calDeckMap d) s = .next t ∧ Turned s t 0x10 st) ∧
      (∀ f : CalCellFields, ∃ t, exec (.calCell f) s = .next t ∧ Turned s t 0x11 st) ∧
      (∀ f : CalBridgeFields, ∃ t, exec (.calBridge f) s = .next t ∧ Turned s t 0x12 st) ∧
      ∀ f : CalZeroFields, ∃ t, exec (.calReferenceZero f) s = .next t ∧ Turned s t 0x13 st := by
  obtain ⟨hmap, hcell, hbridge, hzero⟩ := act_gated (s := s.hunting) (st := st) h
  exact ⟨fun d => State.receive_turned hs (by simp) (hmap d), fun f => State.receive_turned hs (by simp) (hcell f),
    fun f => State.receive_turned hs (by simp) (hbridge f), fun f => State.receive_turned hs (by simp) (hzero f)⟩

end Sys2Proof.Machine

open Sys2Proof Sys2Proof.Machine

/-- Settles O22: the reply tells the status of the block, and the block has refused without a change. -/
theorem refusedRequestsChangeNothing : Obligations.RefusedRequestsChangeNothing := by
  unfold Obligations.RefusedRequestsChangeNothing
  intro r s t p hs ht hp hok hlate
  rw [exec_ofRequest, State.receive_ready hs] at ht
  injection ht with ht
  have hst : p.status = (act r s.hunting).status := by
    rw [← ht, State.transmit_link_current] at hp
    injection hp with hp
    rw [← hp]
    rfl
  have hsame : (act r s.hunting).state = s.hunting := by
    rcases Taken.Harmless.act r s.hunting with h | h | h
    · exact h
    · exact absurd (hst.trans h) hok
    · exact absurd (hst.trans h) hlate
  rw [← ht, hsame]
  exact State.taken_same (SameBut.refl _ []) _

/-- Settles O28: each of these requests looks at the power-fail input, or at the gate, before it changes anything. -/
theorem powerFailAndSealRefuse : Obligations.PowerFailAndSealRefuse := by
  unfold Obligations.PowerFailAndSealRefuse
  refine ⟨fun s hs hf => ?_, fun s hs => ⟨fun ho => State.turned_gated hs (State.calibrationGate_open ho),
    fun hc hf => State.turned_gated hs (State.calibrationGate_failing hc hf)⟩⟩
  have turned : ∀ {r : Request} {st : Status}, r ≠ .statusRead → act r s.hunting = s.hunting.refused st →
      ∃ t, s.receive r = .next t ∧ Turned s t (requestKind r) st :=
    fun hr ha => State.receive_turned hs hr ha
  have hh : s.hunting.failing = true := hf
  refine ⟨fun f => turned (by simp) (actConfigTimers_failing hh f), fun v => turned (by simp) (actTimeSet_failing hh v),
    fun f b hb => turned (by simp) (actConfigBridgeTiming_failing hh hb), fun l x hl => ⟨?_, ?_, ?_, ?_, ?_⟩,
    fun tag => turned (by simp) (actTareDelete_failing hh tag),
    fun n hn => turned (by simp) (actTicketCollect_failing hh hn),
    fun n hn he => turned (by simp) (actTicketBase_failing hh hn he),
    fun f l k hl hk hfit => turned (by simp) (actConfigLane_failing hh hl hk hfit),
    fun f x hx => turned (by simp) (actTareWrite_failing hh hx),
    fun kind operand v hv => turned (by simp) (actVisitCancel_failing hh hv),
    fun x y command l b hl hb hc hn hm => turned (by simp) (actBarrierCommand_failing hh hl hb hc hn hm),
    fun f l p v n ha hl hc hst hq hv ht hp hacc =>
      turned (by simp) (actPermitAnswer_failing hh ha hl hc hst (State.wouldChange_of hq hv ht hp hacc))⟩
  · exact turned (by simp) (actLaneTakeover_failing hh hl)
  · exact turned (by simp) (actLaneRelease_failing hh hl)
  · exact turned (by simp) (actLaneRetry_failing hh hl)
  · exact turned (by simp) (actLaneBackout_failing hh hl)
  · exact fun tag k y hk => turned (by simp) (actArrival_failing hh tag hl hk)

end

-- ==== Proofs of family 01: the grant decision ====
section
/-! What a change of lane state, a raise for a vehicle and a grant decision do and leave alone (R77, R78, R85, R104 to
R106). -/

namespace Sys2Proof.Machine

/-! ### Two updates of one lane -/

theorem Table.write_write {n : Nat} {α : Type} (t : Table n α) (i : Fin n) (x y : α) :
    (t.write i x).write i y = t.write i y := by
  apply Table.ext_read
  intro j
  by_cases h : i = j
  · subst h; simp
  · simp [h]

theorem State.onLane_onLane (s : State) (l : LaneNo) (f g : Lane → Lane) :
    (s.onLane l f).onLane l g = s.onLane l (fun n => g (f n)) := by
  simp [State.onLane, State.lane, Table.write_write]

theorem State.onLane_congr {s : State} {l : LaneNo} {f g : Lane → Lane} (h : f (s.lane l) = g (s.lane l)) :
    s.onLane l f = s.onLane l g := by
  simp [State.onLane, h]

/-- An update of a lane and a RAISE do not meet. -/
theorem State.onLane_commandRaise (s : State) (l : LaneNo) (f : Lane → Lane) (b : BarrierNo) :
    (s.onLane l f).commandRaise b = (s.commandRaise b).onLane l f := rfl

/-! ### Changes of lane state -/

theorem State.enterState_stays {s : State} {l : LaneNo} {st : LaneState} (h : (s.lane l).state = st) (r : Option Reason) :
    s.enterState l st r = s := if_pos h

theorem State.enterState_moves {s : State} {l : LaneNo} {st : LaneState} (h : (s.lane l).state ≠ st)
    (r : Option Reason) :
    s.enterState l st r =
      (s.onLane l (fun n => n.entering st s.identityTime)).report
        (.laneState
          { lane := l, left := (s.lane l).state, entered := st, identity := (s.lane l).identity,
            visit := (s.lane l).visit, reason := r, clock := s.ret.clock }) := if_neg h

theorem State.enterState_same (s : State) (l : LaneNo) (st : LaneState) (r : Option Reason) :
    SameBut [.lanes, .reports] s (s.enterState l st r) := by
  by_cases h : (s.lane l).state = st
  · rw [State.enterState_stays h]
    exact .refl s _
  · rw [State.enterState_moves h]
    exact ((SameBut.refl s _).then (s.onLane_same l _)).then (State.report_same _ _)

/-- A change of state shows in the lane. -/
theorem State.enterState_lane {s : State} {l : LaneNo} {st : LaneState} (h : (s.lane l).state ≠ st)
    (r : Option Reason) : (s.enterState l st r).lane l = (s.lane l).entering st s.identityTime := by
  rw [State.enterState_moves h]
  simp

theorem State.enterState_others (s : State) {l m : LaneNo} (h : m ≠ l) (st : LaneState) (r : Option Reason) :
    (s.enterState l st r).lane m = s.lane m := by
  by_cases hs : (s.lane l).state = st
  · rw [State.enterState_stays hs]
  · rw [State.enterState_moves hs]
    simp [State.onLane_lane_ne, Ne.symm h]

/-! ### A raise for a vehicle -/

theorem State.raiseFront_some {s : State} {l : LaneNo} {f : BarrierNo} (h : (s.config l).front = some f) :
    s.raiseFront l =
      (s.commandRaise f).onLane l (fun n => { n with frontMark := .atRaise (s.barrier f).occupied }) := by
  simp [State.raiseFront, h]

theorem State.raiseFront_same (s : State) (l : LaneNo) : SameBut [.barriers, .lanes] s (s.raiseFront l) := by
  unfold State.raiseFront
  split
  · exact .refl s _
  · exact ((SameBut.refl s _).then (s.onBarrier_same _ _)).then (State.onLane_same _ _ _)

theorem State.enterEntering_same (s : State) (l : LaneNo) :
    SameBut [.barriers, .lanes, .reports] s (s.enterEntering l) :=
  ((((SameBut.refl s _).then (s.onLane_same l _)).then (State.raiseFront_same _ l)).then (State.onLane_same _ l _)).then
    (State.enterState_same _ l _ _)

theorem State.enterEntering_eq {s : State} {l : LaneNo} {f : BarrierNo} (hf : (s.config l).front = some f)
    (hl : (s.lane l).state = .awaitBridge) :
    s.enterEntering l =
      (((s.commandRaise f).onLane l (fun _ =>
        { s.lane l with
          state := .entering, signal := .green, entered := false, entryTimer := .running (s.timers.entry * 1000),
          frontMark := if (s.barrier f).occupied then .seen else .none })).report
        (.laneState
          { lane := l, left := .awaitBridge, entered := .entering, identity := (s.lane l).identity,
            visit := (s.lane l).visit, reason := none, clock := s.ret.clock })) := by
  unfold State.enterEntering
  simp only []
  rw [State.enterState_moves]
  · rw [State.raiseFront_some (by exact hf), State.onLane_commandRaise]
    simp only [State.onLane_onLane]
    refine congrArg₂ State.report (State.onLane_congr ?_) ?_
    · simp [State.commandRaise, Lane.entering, signalFor, hl, State.entryTime, CrossingMark.atRaise]
      rfl
    · simp [State.commandRaise, hl]
  · simp [State.raiseFront, hf, hl, State.commandRaise]

/-! ### The grant decision (R104 to R106) -/

theorem State.giveGrant_same (s : State) (b : BridgeNo) (l : LaneNo) :
    SameBut [.grants, .barriers, .lanes, .reports] s (s.giveGrant b l) := by
  unfold State.giveGrant
  simp only
  have h : SameBut [.grants, .barriers, .lanes, .reports] s (s.onGrant b (fun g => g.given l)) :=
    (SameBut.refl s _).then (s.onGrant_same b _)
  split
  · exact h.then (State.enterEntering_same _ l)
  · exact h

theorem State.decideGrant_same (s : State) (b : BridgeNo) :
    SameBut [.grants, .barriers, .lanes, .reports] s (s.decideGrant b) := by
  unfold State.decideGrant
  split
  · split
    · exact .refl s _
    · exact s.giveGrant_same b _
  · exact .refl s _

/-- The conditions of R104, said of the state. -/
theorem State.grantable_iff {s : State} {b : BridgeNo} : s.grantable b = true ↔ s.Grantable b := by
  have he : s.bridgeEmpty b = true ↔
      ∃ g : Int, (s.bridge b).gross = some g ∧ g.natAbs ≤ (s.timing b).empty * (s.bridgeCal b).interval := by
    unfold State.bridgeEmpty State.emptyBand
    cases (s.bridge b).gross <;> simp
  have hu : s.urgent b = false ↔ (s.bridge b).backlog < (s.timing b).urgent := by simp [State.urgent]
  constructor
  · intro h
    simp only [State.grantable, Bool.and_eq_true, Bool.not_eq_true', Bool.or_eq_true, beq_iff_eq,
      Option.isNone_iff_eq_none] at h
    obtain ⟨⟨⟨⟨hc, hf⟩, hb⟩, hs⟩, hg⟩ := h
    exact ⟨hc, hf, hu.mp hb, hs, he.mp hg⟩
  · intro h
    simp [State.grantable, h.switch, h.free, hu.mpr h.urgent, h.state, he.mpr h.empty]

theorem chooseLane_of_chooses {g : Grant} {l : LaneNo} (h : g.Chooses l) : chooseLane g.waiting g.last = some l := by
  rcases h with h | ⟨m, h, hl⟩ | ⟨m, h, hl⟩
  · simp [chooseLane, h]
  · simp [chooseLane, h, hl]
  · simp [chooseLane, h, hl]

theorem State.decideGrant_withheld {s : State} {b : BridgeNo} (h : ¬ s.Grantable b ∨ (s.grant b).waiting = []) :
    s.decideGrant b = s := by
  unfold State.decideGrant
  rcases h with h | h
  · rw [if_neg (fun k => h (State.grantable_iff.mp k))]
  · simp [h, chooseLane]

theorem State.decideGrant_given {s : State} {b : BridgeNo} {l : LaneNo} (hg : s.Grantable b)
    (hc : (s.grant b).Chooses l) : s.decideGrant b = s.giveGrant b l := by
  simp [State.decideGrant, State.grantable_iff.mpr hg, chooseLane_of_chooses hc]

/-- Under power fail the grant is held in AWAIT_BRIDGE (R106). -/
theorem State.giveGrant_failing {s : State} (h : s.failing = true) (b : BridgeNo) (l : LaneNo) :
    s.giveGrant b l = s.onGrant b (fun g => g.given l) := by
  simp [State.giveGrant, h]

/-- The LANE_STATE report of a lane that enters with its grant. -/
def State.entryReport (s : State) (l : LaneNo) : Report :=
  .laneState
    { lane := l, left := .awaitBridge, entered := .entering, identity := (s.lane l).identity, visit := (s.lane l).visit,
      reason := none, clock := s.ret.clock }

section
variable {s : State} {b : BridgeNo} {l : LaneNo} {f : BarrierNo}

/-- The grant handed to a lane in AWAIT_BRIDGE: the grant, the front barrier, the lane and the report change. -/
theorem State.giveGrant_enters (hp : s.failing = false) (hl : (s.lane l).state = .awaitBridge)
    (hf : (s.config l).front = some f) :
    s.giveGrant b l =
      ((((s.onGrant b (fun g => g.given l)).commandRaise f).onLane l (fun _ =>
        { s.lane l with
          state := .entering, signal := .green, entered := false, entryTimer := .running (s.timers.entry * 1000),
          frontMark := if (s.barrier f).occupied then .seen else .none })).report (s.entryReport l)) := by
  have h : s.giveGrant b l = (s.onGrant b (fun g => g.given l)).enterEntering l := if_pos ⟨hp, hl⟩
  rw [h, State.enterEntering_eq (by exact hf) (by exact hl)]
  rfl

theorem State.giveGrant_entersByGrant (hp : s.failing = false) (hl : (s.lane l).state = .awaitBridge)
    (hf : (s.config l).front = some f) : EntersByGrant s (s.giveGrant b l) b l f := by
  rw [State.giveGrant_enters hp hl hf]
  refine ⟨?_, ?_, ?_, fun o ho => ?_, fun m hm => ?_, fun o ho => ?_⟩
  · simp [State.commandRaise, Grant.given]
  · simp
  · simp [State.commandRaise, State.motionTime]
  · simp [State.commandRaise, State.onBarrier_barrier_ne, Ne.symm ho]
  · simp [State.commandRaise, State.onLane_lane_ne, Ne.symm hm]
  · simp [State.commandRaise, State.onGrant_grant_ne, Ne.symm ho]

theorem State.giveGrant_voiced (hp : s.failing = false) (hl : (s.lane l).state = .awaitBridge)
    (hf : (s.config l).front = some f) (hr : s.link.reports.length < 32) :
    (s.giveGrant b l).voiced = s.voiced ++ [s.entryReport l] := by
  rw [State.giveGrant_enters hp hl hf]
  exact State.report_voiced _ _ hr

/-- Entry by grant looks at the lanes, barriers and grants alone, and at the settings the entry uses. -/
theorem EntersByGrant.of_same {u t t' : State} (h : EntersByGrant s t b l f) (hl : u.lanes = s.lanes)
    (hb : u.barriers = s.barriers) (hg : u.grants = s.grants) (he : u.timers = s.timers) (hl' : t'.lanes = t.lanes)
    (hb' : t'.barriers = t.barriers) (hg' : t'.grants = t.grants) : EntersByGrant u t' b l f := by
  unfold EntersByGrant State.motionTime at h ⊢
  unfold State.lane State.barrier State.grant at h ⊢
  rw [hl, hb, hg, he, hl', hb', hg']
  exact h

end

end Sys2Proof.Machine
end

-- ==== Proofs of family 01: zero and stall requests ====
section
/-! ZERO_NOW, ZERO_WAIVE and CHANNEL_CLEAR (O39). -/

namespace Sys2Proof.Machine

/-! ### What a frame tells of one unit -/

theorem SameBut.bridge {ps : List Part} {s t : State} (h : SameBut ps s t) (b : BridgeNo)
    (hp : Part.bridges ∉ ps := by decide) : t.bridge b = s.bridge b :=
  congrArg (fun x => x.read b) (show t.bridges = s.bridges from h _ hp)

theorem SameBut.lane {ps : List Part} {s t : State} (h : SameBut ps s t) (l : LaneNo)
    (hp : Part.lanes ∉ ps := by decide) : t.lane l = s.lane l :=
  congrArg (fun x => x.read l) (show t.lanes = s.lanes from h _ hp)

theorem SameBut.grant {ps : List Part} {s t : State} (h : SameBut ps s t) (b : BridgeNo)
    (hp : Part.grants ∉ ps := by decide) : t.grant b = s.grant b :=
  congrArg (fun x => x.read b) (show t.grants = s.grants from h _ hp)

@[simp] theorem State.decideGrant_bridge (s : State) (b o : BridgeNo) : (s.decideGrant b).bridge o = s.bridge o :=
  (s.decideGrant_same b).bridge o

/-! ### A bridge written, then a grant decision -/

/-- What ZERO_NOW and ZERO_WAIVE change: a bridge, and what the grant decision that follows may. -/
theorem State.bridgeThenGrant_same (s : State) (b : BridgeNo) (f : Bridge → Bridge) (r : Reply) :
    SameBut [.receiver, .reply, .bridges, .grants, .lanes, .barriers, .reports] s
      ((((s.hunting.onBridge b f).decideGrant b).setReply r).transmit) :=
  (State.taken_same (ps := [.bridges, .grants, .lanes, .barriers, .reports])
    (((SameBut.refl _ _).then (State.onBridge_same _ b f)).then (State.decideGrant_same _ b)) r)

theorem State.bridgeThenGrant_idle {s : State} {b : BridgeNo} (h : (s.grant b).waiting = []) (f : Bridge → Bridge)
    (r : Reply) :
    SameBut [.receiver, .reply, .bridges] s ((((s.hunting.onBridge b f).decideGrant b).setReply r).transmit) := by
  rw [State.decideGrant_withheld (.inr (by exact h))]
  exact State.taken_same (State.onBridge_same _ b f) r

theorem State.bridgeThenGrant_bridge (s : State) (b : BridgeNo) (f : Bridge → Bridge) (r : Reply) (o : BridgeNo) :
    ((((s.hunting.onBridge b f).decideGrant b).setReply r).transmit).bridge o = (s.onBridge b f).bridge o := by
  rw [State.transmit_bridge]
  change ((s.hunting.onBridge b f).decideGrant b).bridge o = _
  rw [State.decideGrant_bridge]
  rfl

/-! ### ZERO_NOW and ZERO_WAIVE (R31, R32) -/

section
variable {s : State} {x : Byte} {b : BridgeNo}

theorem actZeroNow_refused (hb : ofByte 4 x = some b) {st : Status} (h : s.zeroNowRefusal b = some st) :
    actZeroNow x s = s.refused st := by
  simp [actZeroNow, hb, h]

theorem State.zeroNowRefusal_held (h : (s.grant b).holder.isSome = true) : s.zeroNowRefusal b = some .bridgeHeld := by
  simp [State.zeroNowRefusal, h]

theorem State.zeroNowRefusal_unstable (h : (s.grant b).holder = none) (hs : (s.bridge b).state ≠ .stable) :
    s.zeroNowRefusal b = some .notStable := by
  simp [State.zeroNowRefusal, h, hs]

theorem State.zeroNowRefusal_range {g : Int} (h : (s.grant b).holder = none) (hs : (s.bridge b).state = .stable)
    (hg : (s.bridge b).gross = some g) (hr : (s.bridgeCal b).zeroInRange ((s.bridge b).zb + g) = false) :
    s.zeroNowRefusal b = some .zeroRange := by
  simp [State.zeroNowRefusal, h, hs, hg, hr]

theorem actZeroNow_accepted {g : Int} (hb : ofByte 4 x = some b) (h : (s.grant b).holder = none)
    (hs : (s.bridge b).state = .stable) (hg : (s.bridge b).gross = some g)
    (hr : (s.bridgeCal b).zeroInRange ((s.bridge b).zb + g) = true) :
    actZeroNow x s =
      (((s.onBridge b (fun y => y.zeroTaken ((s.bridge b).zb + g) (s.zeroTime b))).decideGrant b).accepted
        (.zeroTaken ((s.bridge b).zb + g) (s.bridgeCal b).z0 ((s.bridge b).zb + g - (s.bridgeCal b).z0))) := by
  have hn : s.zeroNowRefusal b = none := by simp [State.zeroNowRefusal, h, hs, hg, hr]
  simp [actZeroNow, hb, hn, hg]

theorem actZeroWaive_accepted (hb : ofByte 4 x = some b) :
    actZeroWaive x s =
      (((s.onBridge b (fun y =>
        { y with backlog := 0, waived := true, limitReported := false, zeroTimer := s.zeroTime b })).decideGrant
          b).accepted (.zeroWaived (s.bridge b).zb (s.bridgeCal b).z0 (s.bridge b).backlog)) := by
  simp [actZeroWaive, hb]

end

/-! ### CHANNEL_CLEAR (R15) -/

theorem State.clearStalls_cons (s : State) (c : ChannelNo) (cs : List ChannelNo) :
    s.clearStalls (c :: cs) = (s.onChannel c (fun x => { x with stall := false })).clearStalls cs := rfl

theorem State.clearStalls_same (s : State) (cs : List ChannelNo) : SameBut [.channels] s (s.clearStalls cs) := by
  induction cs generalizing s with
  | nil => exact .refl s _
  | cons c cs ih => exact (s.onChannel_same c _).then (ih _)

/-- The stall flags of the listed channels are cleared, and no other channel changes. -/
theorem State.clearStalls_channel (s : State) (cs : List ChannelNo) (o : ChannelNo) :
    (s.clearStalls cs).channel o = if o ∈ cs then { s.channel o with stall := false } else s.channel o := by
  induction cs generalizing s with
  | nil => simp [State.clearStalls, forEach]
  | cons c cs ih =>
    rw [State.clearStalls_cons, ih, State.onChannel_channel_at]
    by_cases h : c = o
    · subst h
      simp
    · simp [h, Ne.symm h]

section
variable {s : State} {x : Selector}

theorem actChannelClear_one {c : ChannelNo} (h : selectOf 16 x = some (.one c)) :
    actChannelClear x s = (s.clearStalls [c]).accepted (.stallsCleared ([c].filter (fun y => (s.channel y).stall))) := by
  simp only [actChannelClear, h]

theorem actChannelClear_all (h : selectOf 16 x = some .all) :
    actChannelClear x s =
      (s.clearStalls allSixteen).accepted (.stallsCleared (allSixteen.filter (fun y => (s.channel y).stall))) := by
  simp only [actChannelClear, h]

end

/-- A cleared list of channels, at the end of the request's event. -/
theorem State.stallsCleared_same (s : State) (cs : List ChannelNo) (r : Reply) :
    SameBut [.receiver, .reply, .channels] s ((s.hunting.clearStalls cs).setReply r).transmit :=
  State.taken_same (State.clearStalls_same _ cs) r

theorem State.stallsCleared_channel (s : State) (cs : List ChannelNo) (r : Reply) (o : ChannelNo) :
    (((s.hunting.clearStalls cs).setReply r).transmit).channel o =
      if o ∈ cs then { s.channel o with stall := false } else s.channel o := by
  rw [State.transmit_channel]
  exact State.clearStalls_channel s.hunting cs o

theorem mem_allSixteen (c : ChannelNo) : c ∈ allSixteen := by
  revert c
  decide

end Sys2Proof.Machine

open Sys2Proof Sys2Proof.Machine

/-- Settles O39: each accepted request writes one unit, and the two of the zero then make a grant decision. -/
theorem zeroAndStallRequests : Obligations.ZeroAndStallRequests := by
  unfold Obligations.ZeroAndStallRequests
  refine ⟨fun x b s hs hb => ⟨fun hh => ?held, fun hh hst => ?unstable, fun g hh hst hg hr => ?range,
    fun g hh hst hg hr => ?taken⟩, ⟨fun x b s hs hb => ?waive, fun x s hs hb => ⟨?noNow, ?noWaive⟩⟩, fun x s hs => ⟨fun c hc => ?one,
    fun ha => ?all, fun hn => ?none⟩⟩
  case held => exact State.receive_turned hs (by simp) (actZeroNow_refused hb (State.zeroNowRefusal_held hh))
  case unstable =>
    exact State.receive_turned hs (by simp) (actZeroNow_refused hb (State.zeroNowRefusal_unstable hh hst))
  case range =>
    exact State.receive_turned hs (by simp) (actZeroNow_refused hb (State.zeroNowRefusal_range hh hst hg hr))
  case taken =>
    obtain ⟨t, hx, ha, rfl⟩ := State.receive_taken hs (r := .zeroNow x) (by simp)
      (actZeroNow_accepted (s := s.hunting) hb hh hst hg hr)
    refine ⟨_, hx, ha, ?_, fun o ho => ?_, State.bridgeThenGrant_same s b _ _,
      fun hw => State.bridgeThenGrant_idle hw _ _⟩
    · rw [State.bridgeThenGrant_bridge]
      simp [Bridge.zeroTaken, State.zeroTime, State.hunting]
    · rw [State.bridgeThenGrant_bridge, State.onBridge_bridge_ne _ _ (Ne.symm ho)]
  case waive =>
    obtain ⟨t, hx, ha, rfl⟩ := State.receive_taken hs (r := .zeroWaive x) (by simp)
      (actZeroWaive_accepted (s := s.hunting) hb)
    refine ⟨_, hx, ha, ?_, fun o ho => ?_, State.bridgeThenGrant_same s b _ _,
      fun hw => State.bridgeThenGrant_idle hw _ _⟩
    · rw [State.bridgeThenGrant_bridge]
      simp [State.zeroTime, State.hunting]
    · rw [State.bridgeThenGrant_bridge, State.onBridge_bridge_ne _ _ (Ne.symm ho)]
  case noNow => exact State.receive_turned hs (by simp) (by simp [act, actZeroNow, hb])
  case noWaive => exact State.receive_turned hs (by simp) (by simp [act, actZeroWaive, hb])
  case one =>
    obtain ⟨t, hx, ha, rfl⟩ := State.receive_taken hs (r := .channelClear x) (by simp)
      (actChannelClear_one (s := s.hunting) hc)
    refine ⟨_, _, hx, ha, fun o => ?_, ?_, fun o ho => ?_, State.stallsCleared_same s _ _⟩
    · simp only [List.mem_filter, List.mem_singleton]
      exact ⟨fun h => ⟨h.1, h.1 ▸ h.2⟩, fun h => ⟨h.1, h.1 ▸ h.2⟩⟩
    · rw [State.stallsCleared_channel, if_pos (by simp)]
    · rw [State.stallsCleared_channel, if_neg (by simpa using ho)]
  case all =>
    obtain ⟨t, hx, hans, rfl⟩ := State.receive_taken hs (r := .channelClear x) (by simp)
      (actChannelClear_all (s := s.hunting) ha)
    refine ⟨_, _, hx, hans, fun o => ?_, fun o => ?_, State.stallsCleared_same s _ _⟩
    · simp only [List.mem_filter, mem_allSixteen, true_and]
      exact Iff.rfl
    · rw [State.stallsCleared_channel, if_pos (mem_allSixteen o)]
  case none => exact State.receive_turned hs (by simp) (by simp [act, actChannelClear, hn])

end

-- ==== Proofs of family 01: reads ====
section
/-! The seven reads of units and records: what each shows, and that it changes nothing (O24). -/

namespace Sys2Proof.Machine

/-- A read answers from the state and changes nothing but the link unit's receiver and reply. -/
theorem State.receive_read {s : State} (h : s.Ready) {r : Request} (hr : r ≠ .statusRead) {body : ReplyBody}
    (ha : act r s.hunting = s.hunting.accepted body) :
    ∃ t, s.receive r = .next t ∧ t.Answers (requestKind r) .ok body ∧ SameBut [.receiver, .reply] s t := by
  obtain ⟨t, hx, hans, rfl⟩ := State.receive_taken h hr ha
  exact ⟨_, hx, hans, State.taken_same (SameBut.refl _ []) _⟩

/-! ### Bridges and channels (R14, R37) -/

section
variable {s : State} {x : Selector}

theorem actWeightRead_one {b : BridgeNo} (h : selectOf 4 x = some (.one b)) :
    actWeightRead x s = s.accepted (.weights [s.bridgeEntry b]) := by
  simp only [actWeightRead, h]

theorem actWeightRead_all (h : selectOf 4 x = some .all) :
    actWeightRead x s = s.accepted (.weights (allFour.map s.bridgeEntry)) := by
  simp only [actWeightRead, h]

theorem actChannelRead_one {c : ChannelNo} (h : selectOf 16 x = some (.one c)) :
    actChannelRead x s =
      s.accepted (.channels s.metrology.closed s.ret.calCounter s.period [s.channelEntry c]) := by
  simp only [actChannelRead, h]

theorem actChannelRead_all (h : selectOf 16 x = some .all) :
    actChannelRead x s =
      s.accepted (.channels s.metrology.closed s.ret.calCounter s.period (allSixteen.map s.channelEntry)) := by
  simp only [actChannelRead, h]

end

theorem inInt32_iff {g : Int} : inInt32 g = true ↔ -2147483648 ≤ g ∧ g ≤ 2147483647 := by
  rw [inInt32, Bool.and_eq_true, decide_eq_true_iff, decide_eq_true_iff]
  rfl

theorem State.bridgeEntry_gross (s : State) (b : BridgeNo) (g : Int) :
    (s.bridgeEntry b).gross = some g ↔ (s.bridge b).gross = some g ∧ -2147483648 ≤ g ∧ g ≤ 2147483647 := by
  rw [← inInt32_iff]
  exact Option.filter_eq_some_iff

theorem State.bridgeEntry_members (s : State) (b : BridgeNo) :
    (s.bridgeEntry b).members.map (·.deck) = (s.bridgeCal b).members := by
  simp [State.bridgeEntry, State.memberEntry, Function.comp_def]

/-- R7 never judges a channel UNUSED. -/
theorem State.judge_ne_unused (s : State) (c : ChannelNo) : s.judge c ≠ .unused := by
  unfold State.judge
  repeat' split
  all_goals simp

theorem State.channelEntry_unused (s : State) (c : ChannelNo) :
    (s.channelEntry c).judgement = .unused ↔ s.deckOf c = none := by
  cases h : s.deckOf c <;> simp [State.channelEntry, h, State.judge_ne_unused]

theorem State.channelEntry_blank {s : State} {c : ChannelNo} (h : (s.channel c).sample = none) :
    (s.channelEntry c).sample = none ∧ (s.channelEntry c).weight = none := by
  simp [State.channelEntry, State.weightOf, h]

theorem State.channelEntry_sample {s : State} {c : ChannelNo} {v : Sample} (h : (s.channel c).sample = some v) :
    (s.channelEntry c).sample = some (v.counts, v.status) := by
  simp [State.channelEntry, h]

/-! ### Cache and refusal records (R125, R128) -/

theorem Admission.mem_cacheItems (a : Admission) (e : CacheItem) :
    e ∈ cacheSlots.filterMap a.cacheItem ↔ ∃ (i : Fin 48) (p : Permit), a.permit i = some p ∧
      e = { slot := i.val, pfx := p.pfx, length := p.length, account := p.account, streams := p.streams,
            credit := p.credit, stopped := p.stopped, storedTare := p.storedTare, tareRefresh := p.tareRefresh,
            bucket := p.bucket } := by
  simp [cacheSlots, Admission.cacheItem, eq_comm]

theorem Admission.cacheItem_slot {a : Admission} {i : Fin 48} {e : CacheItem} (h : a.cacheItem i = some e) :
    e.slot = i.val := by
  obtain ⟨p, _, rfl⟩ := Option.map_eq_some_iff.mp h
  rfl

/-- The cache is listed in slot order. -/
theorem Admission.cacheItems_sorted (a : Admission) :
    (cacheSlots.filterMap a.cacheItem).Pairwise (fun x y => x.slot < y.slot) := by
  rw [List.pairwise_filterMap]
  refine (List.pairwise_lt_finRange 48).imp (fun {i j} h x hx y hy => ?_)
  rw [Admission.cacheItem_slot hx, Admission.cacheItem_slot hy]
  exact h

theorem Admission.mem_refusalEntries (a : Admission) (e : RefusalEntry) :
    e ∈ allEight.filterMap a.refusalEntry ↔ ∃ (i : Fin 8) (r : RefusalRecord), a.records.read i = some r ∧
      e = { record := i.val, tag := r.tag, lane := r.lane, reason := r.reason, firstTime := r.firstTime,
            lastTime := r.lastTime, repeats := r.repeats } := by
  simp [mem_allEight, Admission.refusalEntry, eq_comm]

theorem Admission.lowestRecord_none (a : Admission) :
    a.lowestRecord.map (·.val) = none ↔ ∀ i : Fin 8, a.records.read i = none := by
  simp [Admission.lowestRecord, mem_allEight]

/-! ### Visits (R155) -/

theorem State.visitOf_number {s : State} {n : Nat} {v : Visit} (h : s.visitOf n = some v) : v.number = n := by
  simpa using List.find?_some h

theorem State.visitOfTag_tag {s : State} {tag : Word} {v : Visit} (h : s.visitOfTag tag = some v) : v.tag = tag := by
  simpa using List.find?_some h

theorem VisitStore.place_none (t : VisitStore) (n : Nat) : t.place n = none ↔ n ∉ t.order := by
  simp [VisitStore.place]

section
variable {s : State} {kind : Byte} {operand : Word}

theorem visitSelect_number (hk : kind.toNat = 0) (h1 : 1 ≤ operand.toNat) (h2 : operand.toNat ≤ 65535) :
    visitSelect kind operand = some (.number operand.toNat) := by
  have hk : kind = 0 := by bv_omega
  simp [visitSelect, hk, h1, h2]

theorem visitSelect_tag (hk : kind.toNat = 1) : visitSelect kind operand = some (.tag operand) := by
  have hk : kind = 1 := by bv_omega
  simp [visitSelect, hk]

theorem visitSelect_all (hk : kind.toNat = 2) : visitSelect kind operand = some .all := by
  have hk : kind = 2 := by bv_omega
  simp [visitSelect, hk]

theorem visitSelect_none (h : 2 < kind.toNat ∨ (kind.toNat = 0 ∧ (operand.toNat = 0 ∨ 65535 < operand.toNat))) :
    visitSelect kind operand = none := by
  rcases h with h | ⟨hk, h⟩
  · have h0 : kind ≠ 0 := by bv_omega
    have h1 : kind ≠ 1 := by bv_omega
    have h2 : kind ≠ 2 := by bv_omega
    simp only [visitSelect, if_neg h0, if_neg h1, if_neg h2]
  · have hk : kind = 0 := by bv_omega
    have hn : ¬ (1 ≤ operand.toNat ∧ operand.toNat ≤ 65535) := by omega
    simp only [visitSelect, hk, if_true, if_neg hn]

/-! ### Tares and tickets (R161, R177) -/

theorem actTareRead_tag (hk : kind = 0) :
    actTareRead kind operand s =
      s.accepted (.tareOfTag s.occupiedTares s.timers.tareDays ((s.tareRecordOf operand).bind s.tareEntry)) := by
  simp only [actTareRead, hk, if_true]

theorem actTareRead_from (hk : kind = 1) (hn : operand.toNat ≤ 127) :
    actTareRead kind operand s =
      s.accepted (.tareList s.occupiedTares s.timers.tareDays
        (((s.taresFrom operand.toNat).take 32).filterMap s.tareEntry)
        (((s.taresFrom operand.toNat).drop 32).head?.map (·.val))) := by
  have h0 : kind ≠ 0 := by bv_omega
  simp only [actTareRead, if_neg h0, if_pos (And.intro hk hn)]

theorem actTareRead_refused (h : 2 ≤ kind.toNat ∨ (kind = 1 ∧ 127 < operand.toNat)) :
    actTareRead kind operand s = s.refused .outOfRange := by
  have h0 : kind ≠ 0 := by
    rintro rfl
    simp at h
  have h1 : ¬ (kind = 1 ∧ operand.toNat ≤ 127) := by
    rintro ⟨rfl, hn⟩
    simp at h
    omega
  simp only [actTareRead, if_neg h0, if_neg h1]

theorem State.tareEntry_some {i : Fin 128} {e : TareEntry} (h : s.tareEntry i = some e) :
    e.record = i.val ∧ s.ret.tares.read i = some e.tare := by
  obtain ⟨x, hx, rfl⟩ := Option.map_eq_some_iff.mp h
  exact ⟨rfl, hx⟩

theorem State.mem_taresFrom {n : Nat} {i : Fin 128} :
    i ∈ s.taresFrom n ↔ n ≤ i.val ∧ ∃ x, s.ret.tares.read i = some x := by
  simp [State.taresFrom, tareRecords, Option.isSome_iff_exists]

theorem State.tareEntries_sound {n : Nat} {e : TareEntry}
    (h : e ∈ ((s.taresFrom n).take 32).filterMap s.tareEntry) :
    n ≤ e.record ∧ ∃ i : Fin 128, i.val = e.record ∧ s.ret.tares.read i = some e.tare := by
  obtain ⟨i, hi, he⟩ := List.mem_filterMap.mp h
  obtain ⟨hr, hx⟩ := State.tareEntry_some he
  have hn := (State.mem_taresFrom.mp (List.mem_of_mem_take hi)).1
  exact ⟨hr ▸ hn, i, hr.symm, hx⟩

/-- With no next number the list is whole. -/
theorem State.tareEntries_whole {n : Nat} (h : ((s.taresFrom n).drop 32).head?.map (·.val) = none) {i : Fin 128}
    {x : Tare} (hn : n ≤ i.val) (hx : s.ret.tares.read i = some x) :
    ∃ e ∈ ((s.taresFrom n).take 32).filterMap s.tareEntry, e.record = i.val := by
  have hd : (s.taresFrom n).drop 32 = [] := by simpa using h
  have ht : (s.taresFrom n).take 32 = s.taresFrom n := by
    have := List.take_append_drop 32 (s.taresFrom n)
    rwa [hd, List.append_nil] at this
  have he : s.tareEntry i = some { record := i.val, tare := x, valid := x.valid s.ret.clock s.timers.tareDays } := by
    simp [State.tareEntry, hx]
  exact ⟨_, List.mem_filterMap.mpr ⟨i, by rw [ht]; exact State.mem_taresFrom.mpr ⟨hn, x, hx⟩, he⟩, rfl⟩

theorem State.tareOfTag_sound {tag : Word} {e : TareEntry} (h : (s.tareRecordOf tag).bind s.tareEntry = some e) :
    e.tare.tag = tag ∧ ∃ i : Fin 128, s.ret.tares.read i = some e.tare := by
  obtain ⟨i, hi, he⟩ := Option.bind_eq_some_iff.mp h
  obtain ⟨x, hx, ht⟩ := State.tareRecordOf_some hi
  obtain ⟨_, hx'⟩ := State.tareEntry_some he
  rw [hx'] at hx
  injection hx with hx
  exact ⟨hx ▸ ht, i, hx'⟩

theorem State.tareOfTag_none {tag : Word} (h : (s.tareRecordOf tag).bind s.tareEntry = none) (i : Fin 128) (x : Tare)
    (hx : s.ret.tares.read i = some x) : x.tag ≠ tag := by
  cases hr : s.tareRecordOf tag with
  | none => exact State.tareRecordOf_none hr i x hx
  | some j =>
    obtain ⟨y, hy, _⟩ := State.tareRecordOf_some hr
    simp [hr, State.tareEntry, hy] at h

end

/-! ### The reads, taken -/

/-- WEIGHT_READ and CHANNEL_READ (R14, R37). -/
theorem unitReads (x : Selector) (s : State) (hs : s.Ready) :
    (∀ b : BridgeNo, selectOf 4 x = some (.one b) →
        ∃ t, exec (.weightRead x) s = .next t ∧ t.Answers 0x20 .ok (.weights [s.bridgeEntry b]) ∧
          SameBut [.receiver, .reply] s t) ∧
      (selectOf 4 x = some .all →
        ∃ t, exec (.weightRead x) s = .next t ∧ t.Answers 0x20 .ok (.weights (allFour.map s.bridgeEntry)) ∧
          SameBut [.receiver, .reply] s t) ∧
      (∀ c : ChannelNo, selectOf 16 x = some (.one c) →
        ∃ t, exec (.channelRead x) s = .next t ∧
          t.Answers 0x23 .ok (.channels s.metrology.closed s.ret.calCounter s.period [s.channelEntry c]) ∧
          SameBut [.receiver, .reply] s t) ∧
      (selectOf 16 x = some .all →
        ∃ t, exec (.channelRead x) s = .next t ∧
          t.Answers 0x23 .ok
            (.channels s.metrology.closed s.ret.calCounter s.period (allSixteen.map s.channelEntry)) ∧
          SameBut [.receiver, .reply] s t) :=
  ⟨fun _ h => State.receive_read hs (r := .weightRead x) (by simp) (actWeightRead_one (s := s.hunting) h),
    fun h => State.receive_read hs (r := .weightRead x) (by simp) (actWeightRead_all (s := s.hunting) h),
    fun _ h => State.receive_read hs (r := .channelRead x) (by simp) (actChannelRead_one (s := s.hunting) h),
    fun h => State.receive_read hs (r := .channelRead x) (by simp) (actChannelRead_all (s := s.hunting) h)⟩

section
variable {s : State} {kind : Byte} {operand : Word}

/-- VISIT_READ of a visit that the table holds. -/
theorem visitRead_found (hs : s.Ready) {v : Visit}
    (h : (visitSelect kind operand = some (.number operand.toNat) ∧ s.visitOf operand.toNat = some v) ∨
      (visitSelect kind operand = some (.tag operand) ∧ s.visitOfTag operand = some v)) :
    ∃ t, exec (.visitRead kind operand) s = .next t ∧ t.Answers 0x30 .ok (.visit v (s.ret.visits.place v.number)) ∧
      SameBut [.receiver, .reply] s t := by
  refine State.receive_read hs (r := .visitRead kind operand) (by simp) ?_
  rcases h with ⟨hsel, hv⟩ | ⟨hsel, hv⟩
  · have hv' : s.hunting.visitOf operand.toNat = some v := hv
    simp only [act, actVisitRead, hsel, hv']
    rfl
  · have hv' : s.hunting.visitOfTag operand = some v := hv
    simp only [act, actVisitRead, hsel, hv']
    rfl

/-- VISIT_READ of a visit that the table does not hold. -/
theorem visitRead_missing (hs : s.Ready)
    (h : (visitSelect kind operand = some (.number operand.toNat) ∧ s.visitOf operand.toNat = none) ∨
      (visitSelect kind operand = some (.tag operand) ∧ s.visitOfTag operand = none)) :
    ∃ t, exec (.visitRead kind operand) s = .next t ∧ Turned s t 0x30 .noSuchVisit := by
  refine State.receive_turned hs (r := .visitRead kind operand) (by simp) ?_
  rcases h with ⟨hsel, hv⟩ | ⟨hsel, hv⟩
  · have hv' : s.hunting.visitOf operand.toNat = none := hv
    simp only [act, actVisitRead, hsel, hv', State.visitReply]
  · have hv' : s.hunting.visitOfTag operand = none := hv
    simp only [act, actVisitRead, hsel, hv', State.visitReply]

theorem actTicketRead_found {x : Ticket} (hn : operand ≠ 0)
    (hx : s.ret.journal.tickets.find? (fun y => y.number == operand.toNat) = some x) :
    actTicketRead operand s = s.accepted (.ticket x) := by
  simp only [actTicketRead, if_neg hn, hx]

theorem actTicketRead_missing (hn : operand ≠ 0) (h : ∀ x ∈ s.ret.journal.tickets, x.number ≠ operand.toNat) :
    actTicketRead operand s = s.refused .noSuchTicket := by
  have hx : s.ret.journal.tickets.find? (fun y => y.number == operand.toNat) = none := by simpa using h
  simp only [actTicketRead, if_neg hn, hx]

end

end Sys2Proof.Machine

open Sys2Proof Sys2Proof.Machine

/-- Settles O24: each read answers with the entries of what it is asked for. -/
theorem readsOfUnitsAndRecords : Obligations.ReadsOfUnitsAndRecords := by
  unfold Obligations.ReadsOfUnitsAndRecords
  refine ⟨⟨fun x s hs => ?units, fun s hs => ⟨?cache, ?refusals⟩⟩, fun kind operand s hs =>
    ⟨fun n v hk hn h1 h2 hv => ?number, fun tag v hk ht hv => ?tag, fun n hk hn h1 h2 hv => ?noNumber, fun hk => ?list,
      fun h => ?badVisit, fun hk => ?tareTag, fun hk hn => ?tareFrom, fun x hn hx => ?ticket, fun hn hx => ?noTicket,
      fun hn => ?badTicket, fun tag hk ht hv => ?noTag, fun h => ?badTare⟩⟩
  case units =>
    obtain ⟨weight, weights, channel, channels⟩ := unitReads x s hs
    refine ⟨fun b hb => ?_, fun ha => ?_, fun hn => ?_, fun c hc => ?_, fun ha => ?_, fun hn => ?_⟩
    · obtain ⟨t, hx, hans, hsame⟩ := weight b hb
      exact ⟨t, _, hx, hans, rfl, rfl, rfl, rfl, rfl, rfl, by simp [State.bridgeEntry, State.urgent], rfl, rfl, rfl, rfl,
        rfl, s.bridgeEntry_members b, s.bridgeEntry_gross b, hsame⟩
    · obtain ⟨t, hx, hans, hsame⟩ := weights ha
      exact ⟨t, _, hx, hans, rfl, by simp [State.bridgeEntry], hsame⟩
    · exact State.receive_turned hs (by simp) (by simp [act, actWeightRead, hn])
    · obtain ⟨t, hx, hans, hsame⟩ := channel c hc
      exact ⟨t, _, hx, hans, rfl, rfl, rfl, rfl, rfl, rfl, rfl, rfl, fun _ => State.channelEntry_sample,
        State.channelEntry_blank, s.channelEntry_unused c, hsame⟩
    · obtain ⟨t, hx, hans, hsame⟩ := channels ha
      exact ⟨t, _, hx, hans, rfl, by simp [State.channelEntry], hsame⟩
    · exact State.receive_turned hs (by simp) (by simp [act, actChannelRead, hn])
  case cache =>
    obtain ⟨t, hx, hans, hsame⟩ := State.receive_read hs (r := .cacheRead) (by simp) rfl
    exact ⟨t, _, _, hx, hans, s.adm.mem_cacheItems, s.adm.cacheItems_sorted, hsame⟩
  case refusals =>
    obtain ⟨t, hx, hans, hsame⟩ := State.receive_read hs (r := .refusalRead) (by simp) rfl
    exact ⟨t, _, _, hx, hans, s.adm.mem_refusalEntries, s.adm.lowestRecord_none, hsame⟩
  case number =>
    subst hn
    obtain ⟨t, hx, hans, hsame⟩ := visitRead_found hs (.inl ⟨visitSelect_number hk h1 h2, hv⟩)
    exact ⟨t, _, hx, hans, State.visitOf_number hv, VisitStore.place_none _ _, hsame⟩
  case tag =>
    subst ht
    obtain ⟨t, hx, hans, hsame⟩ := visitRead_found hs (.inr ⟨visitSelect_tag hk, hv⟩)
    exact ⟨t, _, hx, hans, State.visitOfTag_tag hv, hsame⟩
  case noNumber =>
    subst hn
    exact visitRead_missing hs (.inl ⟨visitSelect_number hk h1 h2, hv⟩)
  case noTag =>
    subst ht
    exact visitRead_missing hs (.inr ⟨visitSelect_tag hk, hv⟩)
  case list =>
    obtain ⟨t, hx, hans, hsame⟩ := State.receive_read hs (r := .visitRead kind operand) (by simp)
      (by simp only [act, actVisitRead, visitSelect_all hk]; rfl)
    exact ⟨t, _, hx, hans, by simp [Visit.summary, Function.comp_def, State.hunting], hsame⟩
  case badVisit =>
    exact State.receive_turned hs (by simp) (by simp only [act, actVisitRead, visitSelect_none h])
  case tareTag =>
    obtain ⟨t, hx, hans, hsame⟩ := State.receive_read hs (r := .tareRead kind operand) (by simp)
      (actTareRead_tag (s := s.hunting) hk)
    exact ⟨t, _, _, hx, hans, fun e he => State.tareOfTag_sound (s := s) he, State.tareOfTag_none (s := s), hsame⟩
  case tareFrom =>
    obtain ⟨t, hx, hans, hsame⟩ := State.receive_read hs (r := .tareRead kind operand) (by simp)
      (actTareRead_from (s := s.hunting) hk hn)
    refine ⟨t, _, _, _, hx, hans, ?_, fun e he => State.tareEntries_sound (s := s) he,
      fun h i x hi hx => State.tareEntries_whole (s := s) h hi hx, hsame⟩
    exact (List.length_filterMap_le _ _).trans (List.length_take_le _ _)
  case ticket =>
    obtain ⟨t, hx', hans, hsame⟩ := State.receive_read hs (r := .ticketRead operand) (by simp)
      (actTicketRead_found (s := s.hunting) hn hx)
    exact ⟨t, hx', hans, by simpa using List.find?_some hx, hsame⟩
  case noTicket =>
    exact State.receive_turned hs (by simp) (actTicketRead_missing (s := s.hunting) hn hx)
  case badTicket => exact State.receive_turned hs (by simp) (by simp only [act, actTicketRead, hn, if_true])
  case badTare => exact State.receive_turned hs (by simp) (actTareRead_refused (s := s.hunting) h)

end

-- ==== Proofs of family 01: CAL_CELL and CAL_REFERENCE_ZERO ====
section
/-! What an accepted calibration leaves, and the calibrations of a channel and of a reference zero (O29). -/

namespace Sys2Proof.Machine

/-! ### The end of an accepted calibration (R11) -/

section
variable (s : State) (kind : Byte) (item : Option Nat)

theorem State.calibrated_same : SameBut [.calCounter, .checkWord, .reports] s (s.calibrated kind item) := by
  intro p hp
  cases p <;> simp [Part.same, State.calibrated] at hp ⊢

@[simp] theorem State.calibrated_calCounter :
    (s.calibrated kind item).ret.calCounter = succSkipZero s.ret.calCounter := by
  simp [State.calibrated]

@[simp] theorem State.calibrated_cal : (s.calibrated kind item).ret.cal = s.ret.cal := by simp [State.calibrated]

@[simp] theorem State.calibrated_channelCal (c : ChannelNo) : (s.calibrated kind item).channelCal c = s.channelCal c := by
  simp [State.channelCal]

@[simp] theorem State.calibrated_bridgeCal (b : BridgeNo) : (s.calibrated kind item).bridgeCal b = s.bridgeCal b := by
  simp [State.bridgeCal]

@[simp] theorem State.calibrated_bridge (b : BridgeNo) : (s.calibrated kind item).bridge b = s.bridge b := by
  simp [State.calibrated]

theorem State.calibrated_voiced (h : s.link.reports.length < 32) :
    (s.calibrated kind item).voiced =
      s.voiced ++ [.calChanged kind (succSkipZero s.ret.calCounter) item] := by
  unfold State.calibrated
  simp only
  rw [State.report_voiced _ _ (by simpa using h)]
  rfl

end

/-! ### A zero returned to its reference (R36) -/

theorem State.zeroToReference_same (s : State) (b : BridgeNo) : SameBut [.bridges] s (s.zeroToReference b) :=
  s.onBridge_same b _

theorem State.zeroToReference?_same (s : State) (b : Option BridgeNo) : SameBut [.bridges] s (s.zeroToReference? b) := by
  cases b with
  | none => exact .refl s _
  | some b => exact s.zeroToReference_same b

theorem State.zeroToReference_bridge (s : State) (b : BridgeNo) :
    (s.zeroToReference b).bridge b = { s.bridge b with zb := (s.bridgeCal b).z0, limitReported := false } := by
  simp [State.zeroToReference]

theorem State.zeroToReference_others (s : State) {b o : BridgeNo} (h : o ≠ b) :
    (s.zeroToReference b).bridge o = s.bridge o :=
  s.onBridge_bridge_ne _ (Ne.symm h)

theorem State.zeroToReference?_some {s : State} {m : Option BridgeNo} {b : BridgeNo} (h : m = some b) :
    (s.zeroToReference? m).bridge b = { s.bridge b with zb := (s.bridgeCal b).z0, limitReported := false } := by
  subst h
  exact s.zeroToReference_bridge b

theorem State.zeroToReference?_others {s : State} {m : Option BridgeNo} {b : BridgeNo} (h : m ≠ some b) :
    (s.zeroToReference? m).bridge b = s.bridge b := by
  cases m with
  | none => rfl
  | some a => exact s.zeroToReference_others (fun e => h (by rw [e]))

/-! ### CAL_CELL (R12) -/

section
variable {s : State}

/-- The calibration of one channel is written. -/
def State.writeChannelCal (s : State) (c : ChannelNo) (k : ChannelCal) : State :=
  s.onRet (fun r => { r with cal := { r.cal with channels := r.cal.channels.write c k } })

theorem State.writeChannelCal_same (s : State) (c : ChannelNo) (k : ChannelCal) :
    SameBut [.cal] s (s.writeChannelCal c k) := by
  intro p hp
  cases p <;> simp [Part.same, State.voiced, State.writeChannelCal] at hp ⊢

theorem State.takeCell_eq (s : State) (c : ChannelNo) (zero : Int) (span : Nat) :
    s.takeCell c zero span =
      (((s.writeChannelCal c { zero := zero, span := span, calibrated := true }).zeroToReference?
        (s.bridgeOfChannel c)).calibrated 0x11 (some c.val)) := rfl

theorem State.takeCell_same (s : State) (c : ChannelNo) (zero : Int) (span : Nat) :
    SameBut [.cal, .calCounter, .checkWord, .bridges, .reports] s (s.takeCell c zero span) :=
  (((SameBut.refl s _).then (s.writeChannelCal_same c _)).then (State.zeroToReference?_same _ _)).then
    (State.calibrated_same _ _ _)

theorem State.zeroToReference?_ret (s : State) (m : Option BridgeNo) : (s.zeroToReference? m).ret = s.ret := by
  cases m <;> rfl

theorem State.takeCell_ret (s : State) (c : ChannelNo) (zero : Int) (span : Nat) :
    (s.takeCell c zero span).ret.cal =
        { s.ret.cal with
          channels := s.ret.cal.channels.write c { zero := zero, span := span, calibrated := true } } ∧
      (s.takeCell c zero span).ret.calCounter = succSkipZero s.ret.calCounter := by
  rw [State.takeCell_eq, State.calibrated_cal, State.calibrated_calCounter, State.zeroToReference?_ret]
  exact ⟨rfl, rfl⟩

/-- The zero of the channel's bridge, and of no other, returns to its reference. -/
theorem State.takeCell_bridge (s : State) (c : ChannelNo) (zero : Int) (span : Nat) (b : BridgeNo) :
    (s.takeCell c zero span).bridge b =
      ((s.writeChannelCal c { zero := zero, span := span, calibrated := true }).zeroToReference?
        (s.bridgeOfChannel c)).bridge b := by
  rw [State.takeCell_eq, State.calibrated_bridge]

theorem State.takeCell_voiced (c : ChannelNo) (zero : Int) (span : Nat) (h : s.link.reports.length < 32) :
    (s.takeCell c zero span).voiced = s.voiced ++ [.calChanged 0x11 (succSkipZero s.ret.calCounter) (some c.val)] := by
  have hv := State.zeroToReference?_same (s.writeChannelCal c { zero := zero, span := span, calibrated := true })
    (s.bridgeOfChannel c)
  rw [State.takeCell_eq, State.calibrated_voiced _ _ _ (by cases s.bridgeOfChannel c <;> exact h),
    State.zeroToReference?_ret, (hv .reports (by decide)).1]
  rfl

theorem State.usableZero_some {c : ChannelNo} {z : Int} (hx : (s.channel c).sample = some { counts := z, status := .ok })
    (hf : (s.channel c).fault = false) (ha : (s.channel c).age ≤ 2 * s.period) : s.usableZero c = some z := by
  have hn : ¬ s.freshTime < (s.channel c).age := by
    unfold State.freshTime
    omega
  simp [State.usableZero, hx, hf, hn]

theorem State.usableZero_none {c : ChannelNo}
    (h : (s.channel c).sample = none ∨ 2 * s.period < (s.channel c).age ∨ (s.channel c).fault = true ∨
      ∃ x : Sample, (s.channel c).sample = some x ∧ x.status ≠ .ok) : s.usableZero c = none := by
  unfold State.usableZero State.freshTime
  cases hx : (s.channel c).sample with
  | none => rfl
  | some x =>
    simp only [hx, reduceCtorEq, Option.some.injEq, exists_eq_left', false_or] at h
    simp only
    rw [if_pos h]

theorem State.cellZero_ok {c : ChannelNo} {f : CalCellFields} {z : Int}
    (h : (f.source = 0 ∧ f.zero.toInt = z ∧ -8388608 ≤ z ∧ z ≤ 8388607) ∨
      (f.source = 1 ∧ (s.channel c).sample = some { counts := z, status := .ok } ∧ (s.channel c).fault = false ∧
        (s.channel c).age ≤ 2 * s.period)) : s.cellZero c f = .ok z := by
  rcases h with ⟨hs, rfl, hlo, hhi⟩ | ⟨hs, hx, hf, ha⟩
  · simp [State.cellZero, hs, countMin, countMax, hlo, hhi]
  · simp [State.cellZero, hs, State.usableZero_some hx hf ha]

theorem actCalCell_accepted {c : ChannelNo} {f : CalCellFields} {z : Int} (hg : s.calibrationGate = none)
    (hc : ofByte 16 f.channel = some c) (hsrc : f.source.toNat ≤ 1) (hlo : 1 ≤ f.span.toNat)
    (hhi : f.span.toNat ≤ 16777215) (hz : s.cellZero c f = .ok z) :
    actCalCell f s =
      (s.takeCell c z f.span.toNat).accepted
        (.cell c z f.span.toNat (s.takeCell c z f.span.toNat).ret.calCounter) := by
  have hn : ¬ (1 < f.source.toNat ∨ f.span.toNat < 1 ∨ 16777215 < f.span.toNat) := by omega
  simp only [actCalCell, hg, hc, if_neg hn, hz]

theorem ofByte_none {n : Nat} {b : Byte} (h : n ≤ b.toNat) : ofByte n b = none := by
  simp [ofByte, h]

theorem ofByte_some {n : Nat} {b : Byte} {i : Fin n} (h : b.toNat = i.val) : ofByte n b = some i := by
  have hlt : b.toNat < n := h ▸ i.isLt
  simp only [ofByte, dif_pos hlt, Option.some.injEq]
  exact Fin.ext h

theorem actCalCell_outOfRange {f : CalCellFields} (hg : s.calibrationGate = none)
    (h : 16 ≤ f.channel.toNat ∨ 1 < f.source.toNat ∨ f.span.toNat < 1 ∨ 16777215 < f.span.toNat ∨
      (f.source = 0 ∧ (f.zero.toInt < -8388608 ∨ 8388607 < f.zero.toInt))) :
    actCalCell f s = s.refused .outOfRange := by
  simp only [actCalCell, hg]
  cases hc : ofByte 16 f.channel with
  | none => rfl
  | some c =>
    have hlt : f.channel.toNat < 16 := by
      by_contra hn
      simp [ofByte_none (Nat.le_of_not_lt hn)] at hc
    simp only
    split
    · rfl
    · next hr =>
      obtain ⟨hsrc, hz⟩ : f.source = 0 ∧ (f.zero.toInt < -8388608 ∨ 8388607 < f.zero.toInt) := by
        rcases h with h | h | h | h | h
        · omega
        · exact absurd (.inl h) hr
        · exact absurd (.inr (.inl h)) hr
        · exact absurd (.inr (.inr h)) hr
        · exact h
      have hn : ¬ (countMin ≤ f.zero.toInt ∧ f.zero.toInt ≤ countMax) := by
        unfold countMin countMax
        omega
      simp [State.cellZero, hsrc, hn]

theorem actCalCell_notStable {c : ChannelNo} {f : CalCellFields} (hg : s.calibrationGate = none)
    (hc : f.channel.toNat = c.val) (hsrc : f.source = 1) (hlo : 1 ≤ f.span.toNat) (hhi : f.span.toNat ≤ 16777215)
    (h : s.usableZero c = none) : actCalCell f s = s.refused .notStable := by
  have hn : ¬ (1 < f.source.toNat ∨ f.span.toNat < 1 ∨ 16777215 < f.span.toNat) := by
    rw [hsrc]
    simp
    omega
  have hz : s.cellZero c f = .error .notStable := by simp [State.cellZero, hsrc, h]
  simp only [actCalCell, hg, ofByte_some hc, if_neg hn, hz]

/-! ### CAL_REFERENCE_ZERO (R35) -/

@[simp] theorem State.onBridgeCal_bridgeCal_self (s : State) (b : BridgeNo) (f : BridgeCal → BridgeCal) :
    (s.onBridgeCal b f).bridgeCal b = f (s.bridgeCal b) := by
  simp [State.onBridgeCal, State.bridgeCal]

theorem State.onBridgeCal_same (s : State) (b : BridgeNo) (f : BridgeCal → BridgeCal) :
    SameBut [.cal] s (s.onBridgeCal b f) := by
  intro p hp
  cases p <;> simp [Part.same, State.voiced, State.onBridgeCal] at hp ⊢

theorem State.takeReferenceZero_same (s : State) (b : BridgeNo) (z : Int) :
    SameBut [.cal, .calCounter, .checkWord, .bridges, .reports] s (s.takeReferenceZero b z) :=
  (((SameBut.refl s _).then (s.onBridgeCal_same b _)).then (State.zeroToReference_same _ b)).then
    (State.calibrated_same _ _ _)

theorem State.takeReferenceZero_ret (s : State) (b : BridgeNo) (z : Int) :
    (s.takeReferenceZero b z).ret.cal =
        { s.ret.cal with bridges := s.ret.cal.bridges.write b { s.bridgeCal b with z0 := z } } ∧
      (s.takeReferenceZero b z).ret.calCounter = succSkipZero s.ret.calCounter := by
  unfold State.takeReferenceZero
  rw [State.calibrated_cal, State.calibrated_calCounter]
  exact ⟨rfl, rfl⟩

theorem State.takeReferenceZero_bridge (s : State) (b : BridgeNo) (z : Int) :
    (s.takeReferenceZero b z).bridge b = { s.bridge b with zb := z, limitReported := false } := by
  unfold State.takeReferenceZero
  rw [State.calibrated_bridge, State.zeroToReference_bridge]
  simp

theorem State.takeReferenceZero_others (s : State) {b o : BridgeNo} (h : o ≠ b) (z : Int) :
    (s.takeReferenceZero b z).bridge o = s.bridge o := by
  unfold State.takeReferenceZero
  rw [State.calibrated_bridge, State.zeroToReference_others _ h]
  rfl

theorem State.referenceZero_ok {b : BridgeNo} {f : CalZeroFields} {z : Int}
    (h : (f.source = 0 ∧ z = f.zero.toInt) ∨
      (f.source = 1 ∧ (s.bridge b).underlying = true ∧ (s.bridge b).sum = some z)) : s.referenceZero b f = .ok z := by
  rcases h with ⟨hs, rfl⟩ | ⟨hs, hu, hx⟩
  · simp [State.referenceZero, hs]
  · simp [State.referenceZero, hs, hu, hx]

theorem actCalReferenceZero_accepted {b : BridgeNo} {f : CalZeroFields} {z : Int} (hg : s.calibrationGate = none)
    (hb : ofByte 4 f.bridge = some b) (hsrc : f.source.toNat ≤ 1) (hz : s.referenceZero b f = .ok z) :
    actCalReferenceZero f s =
      (s.takeReferenceZero b z).accepted (.referenceZero z (s.takeReferenceZero b z).ret.calCounter) := by
  have hn : ¬ 1 < f.source.toNat := by omega
  simp only [actCalReferenceZero, hg, hb, if_neg hn, hz]

theorem actCalReferenceZero_notStable {b : BridgeNo} {f : CalZeroFields} (hg : s.calibrationGate = none)
    (hb : ofByte 4 f.bridge = some b) (hsrc : f.source = 1) (hu : (s.bridge b).underlying = false) :
    actCalReferenceZero f s = s.refused .notStable := by
  have hz : s.referenceZero b f = .error .notStable := by simp [State.referenceZero, hsrc, hu]
  have hn : ¬ 1 < f.source.toNat := by simp [hsrc]
  simp only [actCalReferenceZero, hg, hb, if_neg hn, hz]

theorem actCalReferenceZero_badBridge {f : CalZeroFields} (hg : s.calibrationGate = none) (hb : 4 ≤ f.bridge.toNat) :
    actCalReferenceZero f s = s.refused .outOfRange := by
  simp only [actCalReferenceZero, hg, ofByte_none hb]

theorem actCalReferenceZero_badSource {b : BridgeNo} {f : CalZeroFields} (hg : s.calibrationGate = none)
    (hb : ofByte 4 f.bridge = some b) (hsrc : 1 < f.source.toNat) :
    actCalReferenceZero f s = s.refused .outOfRange := by
  simp only [actCalReferenceZero, hg, hb, if_pos hsrc]

end

end Sys2Proof.Machine
open Sys2Proof Sys2Proof.Machine

/-- Settles O29: each accepted request writes one calibration, sets the zero it moves, and counts. -/
theorem channelAndZeroCalibration : Obligations.ChannelAndZeroCalibration := by
  unfold Obligations.ChannelAndZeroCalibration
  refine ⟨fun f c z s hs hc hp hch hlo hhi hsrc => ?cell, fun f s hs hc hp => ⟨fun h => ?cellRange,
    fun c hch hsrc hlo hhi h => ?cellUnstable⟩, fun f s hs hc hp hb => ?zeroBridge, fun f b s hs hc hp hb =>
    ⟨fun z hz => ?zero, fun hsrc hu => ?zeroUnstable, fun hsrc => ?zeroSource⟩⟩
  all_goals have hg : s.hunting.calibrationGate = none := State.calibrationGate_none hc hp
  case cell =>
    have hle : f.source.toNat ≤ 1 := by
      rcases hsrc with ⟨h, _⟩ | ⟨h, _⟩ <;> simp [h]
    obtain ⟨t, hx, hans, rfl⟩ := State.receive_taken hs (r := .calCell f) (by simp)
      (actCalCell_accepted (s := s.hunting) hg hch hle hlo hhi (State.cellZero_ok hsrc))
    obtain ⟨hcal, hcount⟩ := State.takeCell_ret s.hunting c z f.span.toNat
    have hret : ∀ r, (((s.hunting.takeCell c z f.span.toNat).setReply r).transmit).ret =
        (s.hunting.takeCell c z f.span.toNat).ret := fun r => by rw [State.transmit_ret]; rfl
    have hbridge : ∀ r o, (((s.hunting.takeCell c z f.span.toNat).setReply r).transmit).bridge o =
        ((s.hunting.writeChannelCal c { zero := z, span := f.span.toNat, calibrated := true }).zeroToReference?
          (s.hunting.bridgeOfChannel c)).bridge o := fun r o => by
      rw [State.transmit_bridge, ← State.takeCell_bridge]
      rfl
    refine ⟨_, hx, ?_, ?_, ?_, fun o ho => ?_, ?_, fun b hb => ?_, fun b hb => ?_, fun hr => ?_,
      State.taken_same (s.hunting.takeCell_same c z _) _⟩
    · rw [hret]
      exact hans
    · rw [hret, hcount]
      rfl
    · unfold State.channelCal
      rw [hret, hcal]
      simp
    · unfold State.channelCal
      rw [hret, hcal]
      simp [Table.read_write_other _ _ (Ne.symm ho), State.hunting]
    · rw [hret, hcal]
      rfl
    · rw [hbridge, State.zeroToReference?_some (by exact hb)]
      rfl
    · rw [hbridge, State.zeroToReference?_others (by exact hb)]
      rfl
    · rw [State.transmit_voiced, State.setReply_voiced, State.takeCell_voiced (s := s.hunting) c z _ hr, hret, hcount]
      rfl
  case cellRange => exact State.receive_turned hs (by simp) (actCalCell_outOfRange hg h)
  case cellUnstable =>
    exact State.receive_turned hs (by simp)
      (actCalCell_notStable hg hch hsrc hlo hhi (State.usableZero_none (s := s.hunting) h))
  case zeroBridge => exact State.receive_turned hs (by simp) (actCalReferenceZero_badBridge hg hb)
  case zero =>
    have hle : f.source.toNat ≤ 1 := by
      rcases hz with ⟨h, _⟩ | ⟨h, _⟩ <;> simp [h]
    obtain ⟨t, hx, hans, rfl⟩ := State.receive_taken hs (r := .calReferenceZero f) (by simp)
      (actCalReferenceZero_accepted (s := s.hunting) hg hb hle (State.referenceZero_ok hz))
    obtain ⟨hcal, hcount⟩ := State.takeReferenceZero_ret s.hunting b z
    have hret : ∀ r, (((s.hunting.takeReferenceZero b z).setReply r).transmit).ret =
        (s.hunting.takeReferenceZero b z).ret := fun r => by rw [State.transmit_ret]; rfl
    have hbridge : ∀ r o, (((s.hunting.takeReferenceZero b z).setReply r).transmit).bridge o =
        (s.hunting.takeReferenceZero b z).bridge o := fun r o => by rw [State.transmit_bridge]; rfl
    refine ⟨_, hx, ?_, ?_, ?_, ?_, fun o ho => ⟨?_, ?_⟩, ?_,
      State.taken_same (s.hunting.takeReferenceZero_same b z) _⟩
    · rw [hret]
      exact hans
    · rw [hret, hcount]
      rfl
    · unfold State.bridgeCal
      rw [hret, hcal]
      simp [State.hunting, State.bridgeCal]
    · rw [hbridge, State.takeReferenceZero_bridge]
      rfl
    · unfold State.bridgeCal
      rw [hret, hcal]
      simp [Table.read_write_other _ _ (Ne.symm ho), State.hunting]
    · rw [hbridge, State.takeReferenceZero_others _ ho]
      rfl
    · rw [hret, hcal]
      rfl
  case zeroUnstable => exact State.receive_turned hs (by simp) (actCalReferenceZero_notStable hg hb hsrc hu)
  case zeroSource => exact State.receive_turned hs (by simp) (actCalReferenceZero_badSource hg hb hsrc)

end

-- ==== Proofs of family 01: CONFIG_BRIDGE_TIMING ====
section
/-! The period and the five settings of a bridge, their timers, the entry to urgency and the grant decision (O26). -/

namespace Sys2Proof.Machine

/-- A clamped setting is the nearest value of its range (R193). -/
theorem clampSetting_nearest {lo hi : Nat} (h : lo ≤ hi) (v : Nat) : NearestIn lo hi v (clampSetting lo hi v) := by
  unfold NearestIn clampSetting
  repeat' split
  all_goals omega

/-! ### The period (R13, R20) -/

theorem State.takePeriod_cases (s : State) (p : Nat) :
    s.takePeriod p =
      if s.period = p then
        { s.onSite (fun t => { t with period := p }) with
          channels := s.channels.each (fun c => { c with stallTimer := c.stallTimer.restarted (4 * p) }) }
      else
        { s.onSite (fun t => { t with period := p }) with
          channels := s.channels.each (fun c => { c with stallTimer := c.stallTimer.restarted (4 * p) })
          decks := s.decks.each (fun d => { d with freshness := d.freshness.restarted (2 * p) }) } := by
  by_cases h : s.period = p
  · simp only [State.takePeriod, h, bne_self_eq_false, if_true]
    rfl
  · have hn : (s.period != p) = true := by simpa using h
    simp only [State.takePeriod, hn, if_true, if_neg h]
    rfl

theorem State.takePeriod_same (s : State) (p : Nat) : SameBut [.site, .channels, .decks] s (s.takePeriod p) := by
  rw [State.takePeriod_cases]
  intro q hq
  split <;> cases q <;> simp [Part.same, State.voiced] at hq ⊢

theorem State.takePeriod_site (s : State) (p : Nat) : (s.takePeriod p).ret.site = { s.ret.site with period := p } := by
  rw [State.takePeriod_cases]
  split <;> rfl

theorem State.takePeriod_channel (s : State) (p : Nat) (c : ChannelNo) :
    (s.takePeriod p).channel c =
      { s.channel c with stallTimer := (s.channel c).stallTimer.map (fun _ => 4 * p) } := by
  rw [State.takePeriod_cases]
  split <;> simp [State.channel, Timer.restarted]

theorem State.takePeriod_deck (s : State) (p : Nat) (d : DeckNo) :
    (s.takePeriod p).deck d =
      if s.period = p then s.deck d
      else { s.deck d with freshness := (s.deck d).freshness.map (fun _ => 2 * p) } := by
  rw [State.takePeriod_cases]
  split <;> simp [State.deck, Timer.restarted]

/-! ### The settings taken (R27, R33) -/

/-- The period and the settings of the bridge are written and the zero timer restarts. -/
def State.retimed (s : State) (b : BridgeNo) (f : BridgeTimingFields) : State :=
  (((s.takePeriod (periodOf f)).onSite (fun t =>
      { t with timing := t.timing.write b (bridgeTimingOf f) })).seal).onBridge b
    (fun x => { x with zeroTimer := (bridgeTimingOf f).zeroInterval * 1000 })

section
variable (s : State) (b : BridgeNo) (f : BridgeTimingFields)

theorem State.retimed_same : SameBut [.site, .checkWord, .channels, .decks, .bridges] s (s.retimed b f) :=
  ((((SameBut.refl s _).then (s.takePeriod_same _)).then (State.onSite_same _ _)).then (State.seal_same _)).then
    (State.onBridge_same _ b _)

theorem State.retimed_site :
    (s.retimed b f).ret.site =
      { s.ret.site with period := periodOf f, timing := s.ret.site.timing.write b (bridgeTimingOf f) } := by
  simp [State.retimed, State.takePeriod_site]

theorem State.retimed_timing : (s.retimed b f).timing b = bridgeTimingOf f := by
  simp [State.timing, State.retimed_site]

theorem State.retimed_bridge :
    (s.retimed b f).bridge b = { s.bridge b with zeroTimer := (bridgeTimingOf f).zeroInterval * 1000 } := by
  simp [State.retimed, (s.takePeriod_same (periodOf f)).bridge b]

theorem State.retimed_bridge_other {o : BridgeNo} (h : o ≠ b) : (s.retimed b f).bridge o = s.bridge o := by
  simp [State.retimed, State.onBridge_bridge_ne, Ne.symm h, (s.takePeriod_same (periodOf f)).bridge o]

theorem State.retimed_channel (c : ChannelNo) :
    (s.retimed b f).channel c =
      { s.channel c with stallTimer := (s.channel c).stallTimer.map (fun _ => 4 * periodOf f) } := by
  simp [State.retimed, State.takePeriod_channel]

theorem State.retimed_deck (d : DeckNo) :
    (s.retimed b f).deck d =
      if s.period = periodOf f then s.deck d
      else { s.deck d with freshness := (s.deck d).freshness.map (fun _ => 2 * periodOf f) } := by
  simp [State.retimed, State.takePeriod_deck]

/-- The settings taken, with the report of an entry to urgency (R28). -/
def State.retimedReported : State :=
  if s.urgent b = false ∧ (s.retimed b f).urgent b = true then
    (s.retimed b f).report ((s.retimed b f).zeroReport b .urgent none none)
  else s.retimed b f

theorem actConfigBridgeTiming_accepted {s : State} {b : BridgeNo} {f : BridgeTimingFields}
    (hb : ofByte 4 f.bridge = some b) (hp : s.failing = false) :
    actConfigBridgeTiming f s =
      (((s.retimedReported b f).decideGrant b).accepted (.bridgeTiming (periodOf f) (bridgeTimingOf f))) := by
  have hz : ∀ t : State, (((t.onSite (fun t =>
      { t with timing := t.timing.write b (bridgeTimingOf f) })).seal).zeroTime b) =
      (bridgeTimingOf f).zeroInterval * 1000 := by
    intro t
    simp [State.zeroTime, State.timing]
  simp only [actConfigBridgeTiming, hb, hp, hz]
  rfl

end

/-- What the settings leave as the grant decision finds it. -/
theorem State.retimedReported_same (s : State) (b : BridgeNo) (f : BridgeTimingFields) :
    SameBut [.site, .checkWord, .channels, .decks, .bridges, .reports] s (s.retimedReported b f) := by
  have h : SameBut [.site, .checkWord, .channels, .decks, .bridges, .reports] s (s.retimed b f) :=
    (s.retimed_same b f).mono (by decide)
  unfold State.retimedReported
  split
  · exact h.then (State.report_same _ _)
  · exact h

/-- The report touches no setting and no unit. -/
theorem State.retimedReported_units (s : State) (b : BridgeNo) (f : BridgeTimingFields) :
    SameBut [.reports] (s.retimed b f) (s.retimedReported b f) := by
  unfold State.retimedReported
  split
  · exact State.report_same _ _
  · exact .refl _ _

theorem SameBut.channel {ps : List Part} {s t : State} (h : SameBut ps s t) (c : ChannelNo)
    (hp : Part.channels ∉ ps := by decide) : t.channel c = s.channel c :=
  congrArg (fun x => x.read c) (show t.channels = s.channels from h _ hp)

theorem SameBut.deck {ps : List Part} {s t : State} (h : SameBut ps s t) (d : DeckNo)
    (hp : Part.decks ∉ ps := by decide) : t.deck d = s.deck d :=
  congrArg (fun x => x.read d) (show t.decks = s.decks from h _ hp)

theorem SameBut.timing {ps : List Part} {s t : State} (h : SameBut ps s t) (b : BridgeNo)
    (hp : Part.site ∉ ps := by decide) : t.timing b = s.timing b :=
  congrArg (fun x => x.timing.read b) (show t.ret.site = s.ret.site from h _ hp)

theorem SameBut.bridgeCal {ps : List Part} {s t : State} (h : SameBut ps s t) (b : BridgeNo)
    (hp : Part.cal ∉ ps := by decide) : t.bridgeCal b = s.bridgeCal b :=
  congrArg (fun x => x.bridges.read b) (show t.ret.cal = s.ret.cal from h _ hp)

section
variable {s : State} {b : BridgeNo} {f : BridgeTimingFields}

/-- The conditions of the grant decision that follows the new settings. -/
theorem State.retimedReported_grantable :
    (s.retimedReported b f).Grantable b ↔
      s.metrology.closed = false ∧ (s.grant b).holder = none ∧ (s.bridge b).backlog < (bridgeTimingOf f).urgent ∧
        ((s.bridge b).state = .stable ∨ (s.bridge b).state = .motion) ∧
        ∃ g : Int, (s.bridge b).gross = some g ∧ g.natAbs ≤ (bridgeTimingOf f).empty * (s.bridgeCal b).interval := by
  have h := s.retimedReported_same b f
  have k := s.retimedReported_units b f
  have hm : (s.retimedReported b f).metrology = s.metrology := h .metrology (by decide)
  have hbr := (k.bridge b).trans (s.retimed_bridge b f)
  have ht := (k.timing b).trans (s.retimed_timing b f)
  constructor
  · rintro ⟨h1, h2, h3, h4, h5⟩
    rw [hm] at h1
    rw [h.grant b] at h2
    rw [hbr, ht] at h3
    rw [hbr] at h4
    rw [hbr, ht, h.bridgeCal b] at h5
    exact ⟨h1, h2, h3, h4, h5⟩
  · rintro ⟨h1, h2, h3, h4, h5⟩
    refine ⟨by rw [hm]; exact h1, by rw [h.grant b]; exact h2, by rw [hbr, ht]; exact h3, by rw [hbr]; exact h4, ?_⟩
    rw [hbr, ht, h.bridgeCal b]
    exact h5

/-- What withholds the grant at the new settings. -/
theorem State.retimedReported_withheld
    (h : s.metrology.closed = true ∨ (s.grant b).waiting = [] ∨ (s.grant b).holder.isSome = true ∨
      (bridgeTimingOf f).urgent ≤ (s.bridge b).backlog ∨
      ((s.bridge b).state ≠ .stable ∧ (s.bridge b).state ≠ .motion) ∨ (s.bridge b).gross = none ∨
      ∃ g : Int, (s.bridge b).gross = some g ∧ (bridgeTimingOf f).empty * (s.bridgeCal b).interval < g.natAbs) :
    ¬ (s.retimedReported b f).Grantable b ∨ ((s.retimedReported b f).grant b).waiting = [] := by
  rw [(s.retimedReported_same b f).grant b, State.retimedReported_grantable]
  by_cases hw : (s.grant b).waiting = []
  · exact .inr hw
  · refine .inl (fun ⟨hc, hh, hu, hst, g, hg, he⟩ => ?_)
    rcases h with h | h | h | h | h | h | ⟨g', hg', h⟩
    · simp [hc] at h
    · exact hw h
    · simp [hh] at h
    · omega
    · exact hst.elim h.1 h.2
    · simp [h] at hg
    · rw [hg] at hg'
      injection hg' with hgg
      subst hgg
      omega

theorem State.retimed_urgent (s : State) (b : BridgeNo) (f : BridgeTimingFields) :
    (s.retimed b f).urgent b = decide ((bridgeTimingOf f).urgent ≤ (s.bridge b).backlog) := by
  simp [State.urgent, State.retimed_timing, State.retimed_bridge]

/-- No entry to urgency: nothing is reported. -/
theorem State.retimedReported_quiet
    (h : (s.timing b).urgent ≤ (s.bridge b).backlog ∨ (s.bridge b).backlog < (bridgeTimingOf f).urgent) :
    s.retimedReported b f = s.retimed b f := by
  refine if_neg ?_
  rintro ⟨h1, h2⟩
  rw [State.retimed_urgent] at h2
  simp [State.urgent] at h1 h2
  omega

/-- An entry to urgency is reported with the bridge as it stands (R28, R41). -/
theorem State.retimedReported_urgent (h1 : (s.bridge b).backlog < (s.timing b).urgent)
    (h2 : (bridgeTimingOf f).urgent ≤ (s.bridge b).backlog) :
    s.retimedReported b f = (s.retimed b f).report
      (.zeroEvent
        { bridge := b, event := .urgent, z0 := (s.bridgeCal b).z0, zb := (s.bridge b).zb,
          backlog := (s.bridge b).backlog, waived := (s.bridge b).waived, clock := s.ret.clock, candidate := none,
          before := none }) := by
  have hr : (s.retimed b f).zeroReport b .urgent none none = .zeroEvent
      { bridge := b, event := .urgent, z0 := (s.bridgeCal b).z0, zb := (s.bridge b).zb,
        backlog := (s.bridge b).backlog, waived := (s.bridge b).waived, clock := s.ret.clock, candidate := none,
        before := none } := by
    have hc : (s.retimed b f).ret.clock = s.ret.clock := ((s.retimed_same b f) .clock (by decide)).1
    simp only [State.zeroReport, State.retimed_bridge, hc, (s.retimed_same b f).bridgeCal b]
  rw [← hr]
  refine if_pos ⟨by simpa [State.urgent] using h1, ?_⟩
  rw [State.retimed_urgent]
  simpa using h2

theorem State.retimed_link (s : State) (b : BridgeNo) (f : BridgeTimingFields) : (s.retimed b f).link = s.link := by
  unfold State.retimed
  rw [State.takePeriod_cases]
  split <;> rfl

theorem State.retimed_voiced (s : State) (b : BridgeNo) (f : BridgeTimingFields) : (s.retimed b f).voiced = s.voiced := by
  simp [State.voiced, State.retimed_link]

end

/-- The settings of the site but for the period and the bridge's own are as before. -/
theorem State.retimedReported_site (s : State) (b : BridgeNo) (f : BridgeTimingFields) :
    (s.retimedReported b f).ret.site =
      { s.ret.site with period := periodOf f, timing := s.ret.site.timing.write b (bridgeTimingOf f) } :=
  ((s.retimedReported_units b f) .site (by decide)).trans (s.retimed_site b f)

end Sys2Proof.Machine

open Sys2Proof Sys2Proof.Machine

/-- Settles O26: the settings are written, the timers restarted, the entry to urgency reported, and then the grant is
decided. -/
theorem configBridgeTimingTakesTheSettings : Obligations.ConfigBridgeTimingTakesTheSettings := by
  unfold Obligations.ConfigBridgeTimingTakesTheSettings
  intro f b s hs hb hp
  obtain ⟨t, hx, hans, ht⟩ := State.receive_taken hs (r := .configBridgeTiming f) (by simp)
    (actConfigBridgeTiming_accepted (s := s.hunting) hb hp)
  have units : SameBut [.receiver, .reply, .grants, .barriers, .lanes, .reports] (s.hunting.retimed b f) t := by
    rw [ht]
    exact ((((s.hunting.retimedReported_units b f).mono (by decide)).then (State.decideGrant_same _ b)).then
      (State.setReply_same _ _)).transmit
  have hsite : t.ret.site =
      { s.ret.site with period := periodOf f, timing := s.ret.site.timing.write b (bridgeTimingOf f) } :=
    (units .site (by decide)).trans (s.hunting.retimed_site b f)
  have htiming : t.timing b = bridgeTimingOf f := (units.timing b).trans (s.hunting.retimed_timing b f)
  have hperiod : t.period = periodOf f := by rw [State.period, hsite]
  refine ⟨t, hx, ?_⟩
  rw [htiming, hperiod]
  refine ⟨hans, clampSetting_nearest (by decide) _, clampSetting_nearest (by decide) _,
    clampSetting_nearest (by decide) _, clampSetting_nearest (by decide) _, clampSetting_nearest (by decide) _,
    clampSetting_nearest (by decide) _, hsite, ?bridge, fun o ho => ?others, fun c => ?channel, fun d => ?deck, ?same,
    fun l h g hc hh hch hu hst hg he hl hf => ?granted, fun hw => ⟨?heldSame, fun h1 h2 hr => ?urgent, fun h => ?quiet⟩⟩
  case bridge => exact (units.bridge b).trans (s.hunting.retimed_bridge b f)
  case others => exact (units.bridge o).trans (s.hunting.retimed_bridge_other b f ho)
  case channel => exact (units.channel c).trans (s.hunting.retimed_channel b f c)
  case deck => exact (units.deck d).trans (s.hunting.retimed_deck b f d)
  case same =>
    rw [ht]
    refine (State.taken_same (ps := [.site, .checkWord, .channels, .decks, .bridges, .grants, .barriers, .lanes,
      .reports]) ?_ _).mono (by decide)
    exact ((s.hunting.retimedReported_same b f).mono (by decide)).then (State.decideGrant_same _ b)
  case granted =>
    have hgr : (s.hunting.retimedReported b f).Grantable b :=
      State.retimedReported_grantable.mpr ⟨hc, hh, hu, hst, g, hg, he⟩
    have hsame := s.hunting.retimedReported_same b f
    have hch' : ((s.hunting.retimedReported b f).grant b).Chooses l := by
      rw [hsame.grant b]
      exact hch
    have hl' : ((s.hunting.retimedReported b f).lane l).state = .awaitBridge := by
      rw [hsame.lane l]
      exact hl
    have hf' : ((s.hunting.retimedReported b f).config l).front = some h := by
      rw [State.config, State.retimedReported_site]
      exact hf
    have hp' : (s.hunting.retimedReported b f).failing = false := by
      rw [State.failing, show _ = s.powerFail from hsame .powerFail (by decide)]
      exact hp
    rw [ht, State.decideGrant_given hgr hch']
    refine ⟨?_, fun hr => ?_⟩
    · refine (State.giveGrant_entersByGrant hp' hl' hf').of_same (hsame .lanes (by decide)).symm
        (hsame .barriers (by decide)).symm (hsame .grants (by decide)).symm ?_ (by simp [State.setReply])
        (by simp [State.setReply]) (by simp [State.setReply])
      rw [State.timers, State.timers, State.retimedReported_site]
      rfl
    · have hq : s.hunting.retimedReported b f = s.hunting.retimed b f := State.retimedReported_quiet (.inr hu)
      have hroom : (s.hunting.retimedReported b f).link.reports.length < 32 := by
        rw [hq, State.retimed_link]
        exact hr
      have hv : (s.hunting.retimedReported b f).voiced = s.voiced := by
        rw [hq, State.retimed_voiced, State.hunting_voiced]
      have hclock : (s.hunting.retimedReported b f).ret.clock = s.ret.clock := (hsame .clock (by decide)).1
      have hlane : (s.hunting.retimedReported b f).lane l = s.lane l := hsame.lane l
      rw [State.transmit_voiced, State.setReply_voiced, State.giveGrant_voiced hp' hl' hf' hroom, hv,
        State.entryReport, hclock, hlane]
  all_goals
    rw [ht, State.decideGrant_withheld (b := b) (State.retimedReported_withheld (s := s.hunting) hw)]
  case heldSame =>
    exact State.taken_same (ps := [.site, .checkWord, .channels, .decks, .bridges, .reports])
      (s.hunting.retimedReported_same b f) _
  case urgent =>
    rw [State.transmit_voiced, State.setReply_voiced, State.retimedReported_urgent (s := s.hunting) h1 h2,
      State.report_voiced _ _ (by rw [State.retimed_link]; exact hr), State.retimed_voiced]
    rfl
  case quiet =>
    rw [State.transmit_voiced, State.setReply_voiced, State.transmit_link_reportsLost,
      State.retimedReported_quiet (s := s.hunting) h, State.retimed_voiced]
    refine ⟨rfl, ?_⟩
    rw [State.setReply, State.onLink_link, State.retimed_link]
    rfl

end

-- ==== Proofs of family 01: what the rules of the yard leave alone ====
section
/-! The frame of the rules of lanes, arbiter, admission, visits and tickets: a rule that is not one of a capture or of the
zero changes no bridge, no deck, no channel, no setting and no input. -/

namespace Sys2Proof.Machine

/-- The parts that the rules of lanes, arbiter, admission, visits and tickets may change. -/
def yardParts : List Part :=
  [.grants, .barriers, .lanes, .cache, .queries, .refusals, .siteFull, .marks, .visits, .journal, .tares, .checkWord,
    .queryFrames, .reports]

/-- A change that stays within those parts. -/
def InYard (s t : State) : Prop := SameBut yardParts s t

theorem InYard.refl (s : State) : InYard s s := SameBut.refl s _

theorem InYard.of {ps : List Part} {s t : State} (h : SameBut ps s t) (hs : ps ⊆ yardParts := by decide) :
    InYard s t := h.mono hs

theorem InYard.trans {s t u : State} (h : InYard s t) (k : InYard t u) : InYard s u := SameBut.then h k

theorem InYard.ite {c : Prop} [Decidable c] {s t u : State} (h : InYard s t) (k : InYard s u) :
    InYard s (if c then t else u) := by
  split
  · exact h
  · exact k

theorem InYard.forEach {α : Type} {f : α → State → State} (h : ∀ x s, InYard s (f x s)) (xs : List α) (s : State) :
    InYard s (forEach xs f s) := by
  induction xs generalizing s with
  | nil => exact .refl s
  | cons x xs ih => exact (h x s).trans (ih (f x s))

/-! ### One update -/

theorem State.onAdm_same (s : State) (f : Admission → Admission) :
    SameBut [.cache, .queries, .refusals] s (s.onAdm f) := by
  intro p hp
  cases p <;> simp [Part.same, State.voiced] at hp ⊢

theorem State.onVisits_same (s : State) (f : VisitStore → VisitStore) : SameBut [.visits] s (s.onVisits f) := by
  intro p hp
  cases p <;> simp [Part.same, State.voiced] at hp ⊢

theorem State.onJournal_same (s : State) (f : JournalStore → JournalStore) : SameBut [.journal] s (s.onJournal f) := by
  intro p hp
  cases p <;> simp [Part.same, State.voiced] at hp ⊢

theorem State.siteFull_same (s : State) (xs : List LaneNo) : SameBut [.siteFull] s { s with siteFull := xs } := by
  intro p hp
  cases p <;> simp [Part.same, State.voiced] at hp ⊢

theorem State.marks_same (s : State) (m : JournalMarks) : SameBut [.marks] s { s with marks := m } := by
  intro p hp
  cases p <;> simp [Part.same, State.voiced] at hp ⊢

theorem State.queryFrames_same (s : State) (f : Link → Table 4 (Option QueryFrame)) :
    SameBut [.queryFrames] s (s.onLink (fun k => { k with queries := f k })) := by
  intro p hp
  cases p <;> simp [Part.same, State.voiced] at hp ⊢

theorem State.placeTare_same (s : State) (t : Tare) : SameBut [.tares] s (s.placeTare t) := by
  intro p hp
  cases p <;> simp [Part.same, State.voiced, State.placeTare] at hp ⊢

section
variable (s : State)

theorem InYard.onLane (l : LaneNo) (f : Lane → Lane) : InYard s (s.onLane l f) := .of (s.onLane_same l f)
theorem InYard.onGrant (b : BridgeNo) (f : Grant → Grant) : InYard s (s.onGrant b f) := .of (s.onGrant_same b f)
theorem InYard.onAdm (f : Admission → Admission) : InYard s (s.onAdm f) := .of (s.onAdm_same f)
theorem InYard.onSlot (l : LaneNo) (f : QuerySlot → QuerySlot) : InYard s (s.onSlot l f) := .onAdm s _
theorem InYard.onVisits (f : VisitStore → VisitStore) : InYard s (s.onVisits f) := .of (s.onVisits_same f)
theorem InYard.onVisit (n : Nat) (f : Visit → Visit) : InYard s (s.onVisit n f) := .onVisits s _
theorem InYard.onJournal (f : JournalStore → JournalStore) : InYard s (s.onJournal f) := .of (s.onJournal_same f)
theorem InYard.queryFrames (f : Link → Table 4 (Option QueryFrame)) :
    InYard s (s.onLink (fun k => { k with queries := f k })) := .of (s.queryFrames_same f)
theorem InYard.report (r : Report) : InYard s (s.report r) := .of (s.report_same r)
theorem InYard.seal : InYard s s.seal := .of s.seal_same
theorem InYard.placeTare (t : Tare) : InYard s (s.placeTare t) := .of (s.placeTare_same t)
theorem InYard.commandRaise (b : BarrierNo) : InYard s (s.commandRaise b) := .of (s.onBarrier_same b _)
theorem InYard.commandLower (b : BarrierNo) : InYard s (s.commandLower b) := .of (s.onBarrier_same b _)

/-! ### Barriers and lanes -/

theorem InYard.commandLower? (b : Option BarrierNo) : InYard s (s.commandLower? b) := by
  cases b with
  | none => exact .refl s
  | some b => exact .commandLower s b

theorem InYard.lowerFront (l : LaneNo) : InYard s (s.lowerFront l) := .commandLower? s _
theorem InYard.lowerRear (l : LaneNo) : InYard s (s.lowerRear l) := .commandLower? s _

theorem InYard.raiseRear (l : LaneNo) : InYard s (s.raiseRear l) := by
  unfold State.raiseRear
  split
  · exact .refl s
  · exact (InYard.commandRaise s _).trans (.onLane _ l _)

theorem InYard.enterState (l : LaneNo) (st : LaneState) (r : Option Reason) : InYard s (s.enterState l st r) :=
  .of (s.enterState_same l st r)

theorem InYard.comeToIdle (l : LaneNo) : InYard s (s.comeToIdle l) := .ite (.enterState s l _ _) (.enterState s l _ _)

theorem InYard.clearVehicle (l : LaneNo) : InYard s (s.clearVehicle l) := .onLane s l _

/-! ### The arbiter -/

theorem InYard.enterEntering (l : LaneNo) : InYard s (s.enterEntering l) := .of (s.enterEntering_same l)
theorem InYard.decideGrant (b : BridgeNo) : InYard s (s.decideGrant b) := .of (s.decideGrant_same b)

theorem InYard.requestGrant (l : LaneNo) : InYard s (s.requestGrant l) := by
  unfold State.requestGrant
  split
  · exact .refl s
  · exact (InYard.onGrant s _ _).trans (.decideGrant _ _)

theorem InYard.withdrawRequest (l : LaneNo) : InYard s (s.withdrawRequest l) := by
  unfold State.withdrawRequest
  split
  · exact .refl s
  · exact .onGrant s _ _

theorem InYard.releaseGrant (l : LaneNo) : InYard s (s.releaseGrant l) := by
  unfold State.releaseGrant
  split
  · exact .refl s
  · exact .ite ((InYard.onGrant s _ _).trans (.decideGrant _ _)) (.refl s)

theorem InYard.enterAwaitBridge (l : LaneNo) (n : Nat) : InYard s (s.enterAwaitBridge l n) :=
  ((InYard.onLane s l _).trans (.enterState _ l _ _)).trans (.requestGrant _ l)

/-! ### Admission -/

theorem InYard.recordRefusal (tag : Word) (l : LaneNo) (r : RefusalReason) : InYard s (s.recordRefusal tag l r) := by
  unfold State.recordRefusal
  split
  · exact .onAdm s _
  · split
    · exact .onAdm s _
    · exact .ite ((InYard.onAdm s _).trans (.onAdm _ _)) ((InYard.onAdm s _).trans (.report _ _))

theorem InYard.refuseVehicle (l : LaneNo) (tag : Word) (r : RefusalReason) : InYard s (s.refuseVehicle l tag r) :=
  ((InYard.recordRefusal s tag l r).trans (.onLane _ l _)).trans (.enterState _ l _ _)

theorem InYard.forgetLate (l : LaneNo) (n : Nat) : InYard s (s.forgetLate l n) := by
  refine .forEach (fun m s => .ite ?_ (.refl s)) _ s
  exact (InYard.onSlot s m _).trans (.queryFrames _ _)

theorem InYard.sendQuery (l : LaneNo) (tag : Word) (k : StreamNo) : InYard s (s.sendQuery l tag k) :=
  (((((InYard.onAdm s _).trans (.forgetLate _ l _)).trans (.onSlot _ l _)).trans (.queryFrames _ _)).trans
    (.onLane _ l _)).trans (.enterState _ l _ _)

theorem InYard.abandonQuery (l : LaneNo) : InYard s (s.abandonQuery l) :=
  (InYard.ite (.onSlot s l _) (.refl s)).trans (.onLane _ l _)

theorem InYard.leaveSiteFull (l : LaneNo) : InYard s (s.leaveSiteFull l) := .of (s.siteFull_same _)

theorem InYard.joinSiteFull (l : LaneNo) : InYard s (s.joinSiteFull l) :=
  (InYard.ite (.refl s) (.of (s.siteFull_same _))).trans (.enterState _ l _ _)

theorem InYard.createVisit (l : LaneNo) (a : Admitted) : InYard s (s.createVisit l a).1 := by
  unfold State.createVisit
  repeat' split
  · exact .refuseVehicle s l _ _
  · exact .joinSiteFull s l
  · exact (InYard.onVisits s _).trans (.enterAwaitBridge _ l _)

theorem InYard.decideByPermit (l : LaneNo) (tag : Word) (k : StreamNo) (p : Permit) :
    InYard s (s.decideByPermit l tag k p).1 := by
  unfold State.decideByPermit
  split
  · exact .refuseVehicle s l tag _
  · exact .createVisit s l _

theorem InYard.cacheStep (l : LaneNo) (tag : Word) (k : StreamNo) : InYard s (s.cacheStep l tag k).1 := by
  unfold State.cacheStep
  split
  · exact .sendQuery s l tag k
  · split
    · exact .refl s
    · exact (InYard.onAdm s _).trans (.decideByPermit _ l tag k _)

theorem InYard.streamStep (l : LaneNo) (tag : Word) (k : StreamNo) : InYard s (s.streamStep l tag k).1 := by
  unfold State.streamStep
  split
  · exact .cacheStep s l tag k
  · exact .refuseVehicle s l tag _

theorem InYard.resume (l : LaneNo) : InYard s (s.resume l).1 := by
  unfold State.resume
  split
  · exact .refl s
  · exact .streamStep s l _ _

end

/-! ### Visits -/

theorem InYard.serveSiteFull (xs : List LaneNo) (s : State) : InYard s (s.serveSiteFull xs) := by
  induction xs generalizing s with
  | nil => exact .refl s
  | cons l rest ih =>
    have h : InYard s ((s.leaveSiteFull l).resume l).1 := (InYard.leaveSiteFull s l).trans (.resume _ l)
    exact .ite h (h.trans (ih _))

section
variable (s : State)

theorem InYard.serveFreed : InYard s s.serveFreed := .ite (.refl s) (.serveSiteFull _ s)

theorem InYard.removeVisit (n : Nat) : InYard s (s.removeVisit n) :=
  .ite ((InYard.onVisits s _).trans (.serveFreed _)) (.refl s)

theorem InYard.clearCurrentLane (n : Nat) : InYard s (s.clearCurrentLane n) := .onVisit s n _

theorem InYard.giveUpVisit (l : LaneNo) : InYard s (s.giveUpVisit l) := by
  unfold State.giveUpVisit
  split
  · exact .refl s
  · exact .ite (.removeVisit s _) (.clearCurrentLane s _)

/-! ### Tickets -/

theorem InYard.testHigh : InYard s s.testHigh := by
  have h : InYard s { s with marks := { s.marks with high := s.journalIsHigh } } := .of (s.marks_same _)
  exact .ite (h.trans (.report _ _)) h

theorem InYard.reportFull : InYard s s.reportFull := by
  have h : InYard s { s with marks := { s.marks with fullReported := true } } := .of (s.marks_same _)
  exact .ite (.refl s) (h.trans (.report _ _))

theorem InYard.refreshTare (v : Visit) (body : TicketBody) (r : WeighingRecord) : InYard s (s.refreshTare v body r) :=
  .ite (.placeTare s _) (.refl s)

theorem InYard.enterLeaving (l : LaneNo) : InYard s (s.enterLeaving l) := by
  unfold State.enterLeaving
  refine InYard.trans ?_ (.enterState _ l _ _)
  refine (InYard.raiseRear s l).trans ?_
  split
  · exact .refl _
  · exact .ite (.onVisit _ _ _) (.refl _)

theorem InYard.freeWaiting (n : Nat) : InYard s (s.freeWaiting n) := by
  unfold State.freeWaiting
  split
  · exact .refl s
  · exact .enterLeaving s _

theorem InYard.deductFor (body : TicketBody) : InYard s (s.deductFor body) := .ite (.refl s) (.onAdm s _)

theorem InYard.issue (v : Visit) (body : TicketBody) : InYard s (s.issue v body) :=
  ((((((InYard.onJournal s _).trans (.deductFor _ body)).trans (.onVisits _ _)).trans (.onVisit _ _ _)).trans
    (.report _ _)).trans (.freeWaiting _ _)).trans (.testHigh _)

end

theorem InYard.drainAtMost (k : Nat) (s : State) : InYard s (s.drainAtMost k) := by
  induction k generalizing s with
  | zero => exact .refl s
  | succ k ih =>
    unfold State.drainAtMost
    repeat' split
    all_goals first
      | exact .refl s
      | exact (InYard.onVisits s _).trans (ih _)
      | exact (InYard.issue s _ _).trans (ih _)
      | exact .reportFull s

section
variable (s : State)

theorem InYard.drain : InYard s s.drain := .drainAtMost _ s

theorem InYard.joinAndDrain (n : Nat) (body : TicketBody) : InYard s (s.joinAndDrain n body) := by
  have h : InYard s ((s.onVisit n (fun v => { v with pending := some body })).onVisits
      (fun t => { t with order := t.order ++ [n] })).drain :=
    ((InYard.onVisit s n _).trans (.onVisits _ _)).trans (.drain _)
  exact .ite (h.trans (.onVisit _ n _)) h

/-! ### The ends of a lane's movements -/

theorem InYard.endLeaving (l : LaneNo) : InYard s (s.endLeaving l) := (InYard.releaseGrant s l).trans (.comeToIdle _ l)

theorem InYard.passRear (l : LaneNo) : InYard s (s.passRear l) := by
  unfold State.passRear
  simp only
  refine ((InYard.lowerRear s l).trans (.clearVehicle _ l)).trans ?_
  split
  · exact .refl _
  · exact .ite (.removeVisit _ _) (.clearCurrentLane _ _)

theorem InYard.endBackout (l : LaneNo) : InYard s (s.endBackout l) := by
  unfold State.endBackout
  simp only
  refine InYard.trans ?_ ((InYard.clearVehicle _ l).trans (.comeToIdle _ l))
  refine (((InYard.lowerFront s l).trans (.releaseGrant _ l)).trans (.giveUpVisit _ l)).trans ?_
  split
  · exact .ite (.recordRefusal _ _ l _) (.refl _)
  · exact .refl _

theorem InYard.endPassing (l : LaneNo) : InYard s (s.endPassing l) := by
  unfold State.endPassing
  simp only
  refine InYard.trans ?_ (.enterState _ l _ _)
  refine ((InYard.lowerFront s l).trans (.clearVehicle _ l)).trans ?_
  split
  · exact .refl _
  · exact .removeVisit _ _

theorem InYard.leaveOrWait (l : LaneNo) (n : Nat) : InYard s (s.leaveOrWait l n) :=
  .ite (.ite (.enterState s l _ _) (.enterLeaving s l)) (.refl s)

theorem InYard.settleWeighing (l : LaneNo) (v : Visit) (r : WeighingRecord) : InYard s (s.settleWeighing l v r) := by
  unfold State.settleWeighing
  split
  · split
    · exact .ite ((InYard.onVisit s _ _).trans (.enterLeaving _ l)) (.onVisit s _ _)
    · exact ((InYard.onVisit s _ _).trans (.joinAndDrain _ _ _)).trans (.leaveOrWait _ l _)
  · exact ((InYard.refreshTare s v _ r).trans (.joinAndDrain _ _ _)).trans (.leaveOrWait _ l _)
  · exact .refl s

end

end Sys2Proof.Machine
end

-- ==== Proofs of family 01: an evaluation keeps its results ====
section
/-! The rules that act at an evaluation may move the zero, the capture, the lanes and the visits, but never the results of
the evaluation itself (R21 to R25). -/

namespace Sys2Proof.Machine

/-- The results a bridge holds of its latest evaluation. -/
def Bridge.results (x : Bridge) : Evaluation :=
  { sum := x.sum, gross := x.gross, weight := x.weight, window := x.window, state := x.state,
    underlying := x.underlying, run := x.run }

@[simp] theorem Bridge.evaluated_results (x : Bridge) (e : Evaluation) : (x.evaluated e).results = e := rfl

/-- A change that keeps the results of every bridge, and beyond the bridges stays within the yard. -/
structure Weighs (s t : State) : Prop where
  frame   : SameBut (.bridges :: .evaluations :: yardParts) s t
  results : ∀ b : BridgeNo, (t.bridge b).results = (s.bridge b).results

theorem Weighs.refl (s : State) : Weighs s s := ⟨.refl s _, fun _ => rfl⟩

theorem Weighs.trans {s t u : State} (h : Weighs s t) (k : Weighs t u) : Weighs s u :=
  ⟨h.frame.then k.frame, fun b => (k.results b).trans (h.results b)⟩

theorem InYard.weighs {s t : State} (h : InYard s t) : Weighs s t :=
  ⟨h.mono (by decide), fun b => by rw [SameBut.bridge h b]⟩

theorem Weighs.ite {c : Prop} [Decidable c] {s t u : State} (h : Weighs s t) (k : Weighs s u) :
    Weighs s (if c then t else u) := by
  split
  · exact h
  · exact k

theorem Weighs.forEach {α : Type} {f : α → State → State} (h : ∀ x s, Weighs s (f x s)) (xs : List α) (s : State) :
    Weighs s (forEach xs f s) := by
  induction xs generalizing s with
  | nil => exact .refl s
  | cons x xs ih => exact (h x s).trans (ih (f x s))

theorem Weighs.onBridge (s : State) (b : BridgeNo) (f : Bridge → Bridge) (h : ∀ x, (f x).results = x.results) :
    Weighs s (s.onBridge b f) := by
  refine ⟨(s.onBridge_same b f).mono (by decide), fun o => ?_⟩
  rw [State.onBridge_bridge_at]
  split
  · exact h _
  · rfl

section
variable (s : State)

/-! ### Captures -/

theorem Weighs.dropCapture (b : BridgeNo) : Weighs s (s.dropCapture b) := .onBridge s b _ (fun _ => rfl)

theorem Weighs.startCapture (l : LaneNo) (b : BridgeNo) (n : Nat) : Weighs s (s.startCapture l b n) := by
  unfold State.startCapture
  refine .ite (Weighs.trans ?_ (InYard.onVisit _ n _).weighs) (.refl s)
  exact .onBridge s b _ (fun _ => rfl)

theorem Weighs.startOwnCapture (l : LaneNo) : Weighs s (s.startOwnCapture l) := by
  unfold State.startOwnCapture
  split
  · exact .startCapture s l _ _
  · exact .refl s

theorem Weighs.completeEntry (l : LaneNo) : Weighs s (s.completeEntry l) := by
  unfold State.completeEntry
  simp only
  refine Weighs.trans ((InYard.onLane s l (fun n => { n with entryTimer := .stopped })).trans (.lowerFront _ l)).weighs ?_
  split
  · exact .refl _
  · exact .ite (InYard.onLane _ l _).weighs ((Weighs.startOwnCapture _ l).trans (InYard.enterState _ l _ _).weighs)

theorem Weighs.completeCapture (b : BridgeNo) (c : Capture) : Weighs s (s.completeCapture b c) := by
  unfold State.completeCapture
  simp only
  split
  · exact (Weighs.dropCapture s b).trans (InYard.report _ _).weighs
  · exact ((Weighs.dropCapture s b).trans (InYard.report _ _).weighs).trans (InYard.settleWeighing _ _ _ _).weighs

theorem Weighs.testCapture (b : BridgeNo) : Weighs s (s.testCapture b) := by
  unfold State.testCapture
  split
  · exact .refl s
  · split
    · exact .onBridge s b _ (fun _ => rfl)
    · exact .completeCapture s b _

/-! ### Zero, grant and lanes -/

theorem Weighs.attemptZero (b : BridgeNo) : Weighs s (s.attemptZero b) := by
  unfold State.attemptZero
  simp only
  refine .ite (.ite ?_ (.ite (.refl s) ?_)) (.refl s)
  all_goals
    refine Weighs.trans ?_ (InYard.report _ _).weighs
    exact .onBridge s b _ (fun _ => rfl)

theorem State.evaluations_same (n : Nat) : SameBut [.evaluations] s { s with evaluations := n } := by
  intro p hp
  cases p <;> simp [Part.same, State.voiced] at hp ⊢

theorem Weighs.zeroAndGrant (b : BridgeNo) : Weighs s (s.zeroAndGrant b) := by
  have h : Weighs s { s with evaluations := s.evaluations + 1 } :=
    ⟨(s.evaluations_same _).mono (by decide), fun _ => rfl⟩
  refine h.trans (.ite ?_ ?_)
  · exact (InYard.decideGrant _ b).weighs.trans (.attemptZero _ b)
  · exact (Weighs.attemptZero _ b).trans (InYard.decideGrant _ b).weighs

theorem Weighs.testLane (l : LaneNo) : Weighs s (s.testLane l) := by
  unfold State.testLane
  split
  · exact .refl s
  · split
    · exact .ite (.ite (InYard.enterLeaving s l).weighs (.refl s)) (.ite (.completeEntry s l) (.refl s))
    · exact .ite (InYard.endLeaving s l).weighs (.refl s)
    · exact .ite (InYard.endBackout s l).weighs (.refl s)
    · exact .ite (InYard.endPassing s l).weighs (.refl s)
    · exact .refl s

/-- What follows the taking of an evaluation's results. -/
theorem Weighs.afterEvaluation (b : BridgeNo) (e : Evaluation) :
    Weighs (s.onBridge b (fun x => x.evaluated e)) (s.applyEvaluation b e) :=
  ((Weighs.zeroAndGrant _ b).trans (.testCapture _ b)).trans (.forEach (fun l s => .testLane s l) _ _)

end

/-- The bridge holds the results of its evaluation when the event ends. -/
theorem State.applyEvaluation_results (s : State) (b : BridgeNo) (e : Evaluation) :
    ((s.applyEvaluation b e).bridge b).results = e := by
  rw [(Weighs.afterEvaluation s b e).results b, State.onBridge_bridge, Bridge.evaluated_results]

theorem State.applyEvaluation_same (s : State) (b : BridgeNo) (e : Evaluation) :
    SameBut (.bridges :: .evaluations :: yardParts) s (s.applyEvaluation b e) :=
  ((s.onBridge_same b _).mono (by decide)).then (Weighs.afterEvaluation s b e).frame

end Sys2Proof.Machine
end

-- ==== Proofs of family 01: the deck value and the evaluation of a lead arrival ====
section
/-! The conditions of R17 as a lead arrival finds them, and the lines of R21 to R25 (O48). -/

namespace Sys2Proof.Machine

/-! ### The channels of a deck -/

theorem State.mem_deckChannels (s : State) (d : DeckNo) (c : ChannelNo) : c ∈ s.deckChannels d ↔ s.deckOf c = some d := by
  simp [State.deckChannels, mem_allSixteen]

theorem State.deckChannels_sorted (s : State) (d : DeckNo) : (s.deckChannels d).Pairwise (· < ·) :=
  List.Pairwise.filter _ (by decide)

/-! ### The judgement of one channel (R7, R9) -/

section
variable {s : State} {c : ChannelNo}

theorem State.judge_uncalibrated : s.judge c = .uncalibrated ↔ (s.channelCal c).calibrated = false := by
  unfold State.judge
  by_cases h : (s.channelCal c).calibrated = false
  · simp [h]
  · rw [if_neg h]
    refine ⟨fun hj => ?_, fun hc => absurd hc h⟩
    split at hj
    · simp at hj
    · repeat' split at hj
      all_goals simp at hj

/-- A calibrated channel without a usable sample is judged STALE or FAULTED, or is awaited. -/
theorem State.judge_stale (hc : (s.channelCal c).calibrated = true) :
    (s.judge c = .stale ∨ s.judge c = .faulted ∨ (s.channel c).awaited = true) ↔ s.StaleAt c := by
  unfold State.judge State.StaleAt State.freshTime
  rw [if_neg (by simp [hc])]
  cases hx : (s.channel c).sample with
  | none => simp
  | some x =>
    simp only [reduceCtorEq, false_or]
    by_cases ha : 2 * s.period < (s.channel c).age
    · simp [ha]
    · by_cases hf : (s.channel c).fault = true
      · simp [ha, hf]
      · by_cases ho : x.status = .overrange ∨ inInt32 (cellWeight (s.channelCal c) x.counts) = false
        · simp [ha, hf, ho]
        · simp [ha, hf, ho]

theorem inInt32_false {g : Int} : inInt32 g = false ↔ g < -2147483648 ∨ 2147483647 < g := by
  rw [← Bool.not_eq_true, inInt32_iff]
  omega

/-- The cell weight that R6 forms of a sample. -/
theorem State.cellWeightNow_some {x : Sample} (hx : (s.channel c).sample = some x) :
    s.cellWeightNow c = cellWeight (s.channelCal c) x.counts := by
  simp [State.cellWeightNow, hx, cellWeight]

theorem State.judge_over (hc : (s.channelCal c).calibrated = true) (hs : ¬ s.StaleAt c) :
    s.judge c = .over ↔ s.OverAt c := by
  unfold State.StaleAt at hs
  push Not at hs
  obtain ⟨hx, ha, hf, _⟩ := hs
  obtain ⟨x, hx⟩ := Option.ne_none_iff_exists'.mp hx
  have hn : ¬ s.freshTime < (s.channel c).age := by
    unfold State.freshTime
    omega
  have hst : (∃ n : Int, some x = some { counts := n, status := SampleStatus.overrange }) ↔ x.status = .overrange := by
    constructor
    · rintro ⟨n, h⟩
      injection h with h
      rw [h]
    · intro h
      exact ⟨x.counts, by rw [← h]⟩
  unfold State.OverAt
  rw [State.cellWeightNow_some hx, hx, hst, ← inInt32_false]
  simp only [State.judge, hc, hx, if_neg hn, hf]
  by_cases ho : x.status = .overrange ∨ inInt32 (cellWeight (s.channelCal c) x.counts) = false
  · simp [ho]
  · simp [ho]

/-- Where no channel is OVER its weight is the one of R6. -/
theorem State.weightOf_now (hc : (s.channelCal c).calibrated = true) (ho : ¬ s.OverAt c) :
    (s.weightOf c).getD 0 = s.cellWeightNow c := by
  unfold State.weightOf
  cases hx : (s.channel c).sample with
  | none => simp [State.cellWeightNow, hx]
  | some x =>
    have hw : inInt32 (cellWeight (s.channelCal c) x.counts) = true := by
      rw [inInt32_iff, ← State.cellWeightNow_some hx]
      unfold State.OverAt at ho
      omega
    simp [hc, hw, State.cellWeightNow_some hx]

end

/-! ### The condition of a deck (R17, R18) -/

section
variable {s : State} {d : DeckNo}

theorem State.deckCondition_uncalibrated (h : ∃ x ∈ s.deckChannels d, (s.channelCal x).calibrated = false) :
    s.deckCondition d = .uncalibrated := by
  have hj : ((s.deckChannels d).map s.judge).contains .uncalibrated = true := by
    obtain ⟨x, hx, hc⟩ := h
    simpa using ⟨x, hx, State.judge_uncalibrated.mpr hc⟩
  simp only [State.deckCondition, hj, if_true]

variable (hcal : ∀ x ∈ s.deckChannels d, (s.channelCal x).calibrated = true)
include hcal

theorem State.judges_calibrated : ((s.deckChannels d).map s.judge).contains .uncalibrated = false := by
  rw [← Bool.not_eq_true]
  intro h
  obtain ⟨x, hx, hj⟩ : ∃ x ∈ s.deckChannels d, s.judge x = .uncalibrated := by simpa using h
  have hc := State.judge_uncalibrated.mp hj
  simp [hcal x hx] at hc

/-- The line of STALE applies where a channel is without a usable sample or is awaited (R17, R9). -/
theorem State.judges_stale :
    (((s.deckChannels d).map s.judge).contains .stale || ((s.deckChannels d).map s.judge).contains .faulted ||
      s.awaitsMember d) = true ↔ ∃ x ∈ s.deckChannels d, s.StaleAt x := by
  have h : (((s.deckChannels d).map s.judge).contains .stale || ((s.deckChannels d).map s.judge).contains .faulted ||
      s.awaitsMember d) = true ↔
      ∃ x ∈ s.deckChannels d, s.judge x = .stale ∨ s.judge x = .faulted ∨ (s.channel x).awaited = true := by
    simp only [State.awaitsMember, Bool.or_eq_true, List.contains_eq_mem, List.mem_map, decide_eq_true_eq,
      List.any_eq_true]
    constructor
    · rintro ((⟨x, hx, h⟩ | ⟨x, hx, h⟩) | ⟨x, hx, h⟩)
      · exact ⟨x, hx, .inl h⟩
      · exact ⟨x, hx, .inr (.inl h)⟩
      · exact ⟨x, hx, .inr (.inr h)⟩
    · rintro ⟨x, hx, h | h | h⟩
      · exact .inl (.inl ⟨x, hx, h⟩)
      · exact .inl (.inr ⟨x, hx, h⟩)
      · exact .inr ⟨x, hx, h⟩
  rw [h]
  exact exists_congr (fun x => and_congr_right (fun hx => State.judge_stale (hcal x hx)))

theorem State.deckCondition_stale (h : ∃ x ∈ s.deckChannels d, s.StaleAt x) : s.deckCondition d = .stale := by
  simp only [State.deckCondition, State.judges_calibrated hcal, (State.judges_stale hcal).mpr h]
  rfl

variable (hst : ∀ x ∈ s.deckChannels d, ¬ s.StaleAt x)
include hst

/-- Past the lines of UNCALIBRATED and STALE the condition is OVER or VALID. -/
theorem State.deckCondition_usable :
    s.deckCondition d =
      if ((s.deckChannels d).map s.judge).contains .over || !inInt32 (s.deckValue d) then .over else .valid := by
  have hn : ¬ (((s.deckChannels d).map s.judge).contains .stale || ((s.deckChannels d).map s.judge).contains .faulted ||
      s.awaitsMember d) = true := by
    rw [State.judges_stale hcal]
    rintro ⟨x, hx, h⟩
    exact hst x hx h
  simp only [State.deckCondition, State.judges_calibrated hcal, if_neg hn]
  rfl

theorem State.judges_over :
    ((s.deckChannels d).map s.judge).contains .over = true ↔ ∃ x ∈ s.deckChannels d, s.OverAt x := by
  simp only [List.contains_eq_mem, List.mem_map, decide_eq_true_eq]
  exact exists_congr (fun x => and_congr_right (fun hx => State.judge_over (hcal x hx) (hst x hx)))

omit hst in
/-- The deck value is the sum of the weights of R6 where no channel is OVER (R18). -/
theorem State.deckValue_now (ho : ∀ x ∈ s.deckChannels d, ¬ s.OverAt x) :
    s.deckValue d = sumInt ((s.deckChannels d).map s.cellWeightNow) := by
  unfold State.deckValue
  congr 1
  exact List.map_congr_left (fun x hx => State.weightOf_now (hcal x hx) (ho x hx))

theorem State.deckCondition_over
    (h : (∃ x ∈ s.deckChannels d, s.OverAt x) ∨ sumInt ((s.deckChannels d).map s.cellWeightNow) < -2147483648 ∨
      2147483647 < sumInt ((s.deckChannels d).map s.cellWeightNow)) : s.deckCondition d = .over := by
  rw [State.deckCondition_usable hcal hst, if_pos]
  by_cases ho : ∃ x ∈ s.deckChannels d, s.OverAt x
  · rw [(State.judges_over hcal hst).mpr ho]
    rfl
  · have hv := State.deckValue_now hcal (fun x hx k => ho ⟨x, hx, k⟩)
    have hr : inInt32 (s.deckValue d) = false := by
      rw [hv, inInt32_false]
      exact h.resolve_left ho
    simp [hr]

theorem State.deckCondition_valid (ho : ∀ x ∈ s.deckChannels d, ¬ s.OverAt x)
    (hlo : -2147483648 ≤ sumInt ((s.deckChannels d).map s.cellWeightNow))
    (hhi : sumInt ((s.deckChannels d).map s.cellWeightNow) ≤ 2147483647) : s.deckCondition d = .valid := by
  have hno : ((s.deckChannels d).map s.judge).contains .over = false := by
    rw [← Bool.not_eq_true, State.judges_over hcal hst]
    rintro ⟨x, hx, h⟩
    exact ho x hx h
  have hr : inInt32 (s.deckValue d) = true := by
    rw [State.deckValue_now hcal ho, inInt32_iff]
    exact ⟨hlo, hhi⟩
  rw [State.deckCondition_usable hcal hst, hno, hr]
  rfl

end

/-- A deck that is not VALID holds no history and no F; its freshness timer runs (R17, R20). -/
theorem State.deckArrival_invalid {s : State} {d : DeckNo} {c : DeckCondition} (h : s.deckCondition d = c)
    (hc : c ≠ .valid) :
    (s.deckArrival d).deck d = { condition := c, history := [], filtered := none, freshness := some (2 * s.period) } := by
  simp [State.deckArrival, h, hc, Deck.cleared, State.freshTime]

theorem State.deckArrival_valid {s : State} {d : DeckNo} (h : s.deckCondition d = .valid) :
    (s.deckArrival d).deck d =
      { condition := .valid, history := lastOf (s.filterLength d) ((s.deck d).history ++ [s.deckValue d]),
        filtered := some (roundDiv (sumInt (lastOf (s.filterLength d) ((s.deck d).history ++ [s.deckValue d])))
          (lastOf (s.filterLength d) ((s.deck d).history ++ [s.deckValue d])).length),
        freshness := some (2 * s.period) } := by
  simp [State.deckArrival, h, Deck.take, State.freshTime]

theorem State.deckArrival_others (s : State) {d e : DeckNo} (h : e ≠ d) : (s.deckArrival d).deck e = s.deck e := by
  simp [State.deckArrival, State.onDeck_deck_ne, Ne.symm h]

/-! ### The results of an evaluation (R21 to R25) -/

theorem sumFiltered_some {fs : List (Option Int)} {values : List Int} (h : fs = values.map some) :
    sumFiltered fs = some (sumInt values) := by
  subst h
  induction values with
  | nil => rfl
  | cons v values ih => simp [sumFiltered, ih, sumInt]

section
variable {s : State} {b : BridgeNo}

theorem State.bridgeSum_none (h : ∃ e ∈ (s.bridgeCal b).members, (s.deck e).condition ≠ .valid) : s.bridgeSum b = none := by
  obtain ⟨e, he, hc⟩ := h
  have hn : ¬ ((s.bridgeCal b).members.map s.deck).all (fun k => k.condition == .valid) = true := by
    simp only [List.all_map, List.all_eq_true, Function.comp_apply, beq_iff_eq]
    exact fun k => hc (k e he)
  simp only [State.bridgeSum, if_neg hn]

theorem State.bridgeSum_some {values : List Int} (h : ∀ e ∈ (s.bridgeCal b).members, (s.deck e).condition = .valid)
    (hv : (s.bridgeCal b).members.map (fun e => (s.deck e).filtered) = values.map some) :
    s.bridgeSum b = some (sumInt values) := by
  have hy : ((s.bridgeCal b).members.map s.deck).all (fun k => k.condition == .valid) = true := by
    simpa using h
  simp only [State.bridgeSum, if_pos hy, List.map_map]
  exact sumFiltered_some hv

end

section
variable {k : BridgeCal} {cs : List DeckCondition} {window : List Int} {closed : Bool}

/-- The line of NOT_READY (R23). -/
theorem BridgeCal.stateOf_notReady {g : Option Int}
    (h : k.calibrated = false ∨ ∃ c ∈ cs, c = .noChannels ∨ c = .uncalibrated ∨ c = .stale) :
    k.stateOf cs g window closed = .notReady := by
  refine if_pos ?_
  rcases h with h | ⟨c, hc, rfl | rfl | rfl⟩
  · simp [h]
  · simp [hc]
  · simp [hc]
  · simp [hc]

/-- With every member OVER or VALID the line of NOT_READY applies only where nothing was formed and no member is OVER. -/
theorem BridgeCal.notReady_false (hk : k.calibrated = true) (h : ∀ c ∈ cs, c = .over ∨ c = .valid) (g : Option Int)
    (hg : cs.contains .over = true ∨ g.isSome = true) :
    (!k.calibrated || cs.contains .noChannels || cs.contains .uncalibrated || cs.contains .stale ||
      (g.isNone && !cs.contains .over)) = false := by
  have hno : ∀ c : DeckCondition, c ≠ .over → c ≠ .valid → cs.contains c = false := by
    intro c h1 h2
    rw [← Bool.not_eq_true]
    intro hc
    rcases h c (by simpa using hc) with e | e
    · exact h1 e
    · exact h2 e
  rw [hk, hno .noChannels (by decide) (by decide), hno .uncalibrated (by decide) (by decide),
    hno .stale (by decide) (by decide)]
  rcases hg with hg | hg
  · rw [hg]
    simp
  · cases g with
    | none => simp at hg
    | some g => simp

theorem BridgeCal.stateOf_over {g : Option Int} (hk : k.calibrated = true) (h : ∀ c ∈ cs, c = .over ∨ c = .valid)
    (ho : ∃ c ∈ cs, c = .over) : k.stateOf cs g window closed = if closed then .calibrating else .over := by
  have hc : cs.contains .over = true := by
    obtain ⟨c, hc, rfl⟩ := ho
    simpa using hc
  unfold BridgeCal.stateOf
  rw [BridgeCal.notReady_false hk h g (.inl hc), hc]
  cases closed <;> rfl

/-- The lines that follow where G was formed (R23). -/
theorem BridgeCal.stateOf_formed {g : Int} (hk : k.calibrated = true) (h : ∀ c ∈ cs, c = .valid) :
    k.stateOf cs (some g) window closed =
      (if closed then .calibrating
       else if (k.maximum : Int) + 9 * k.interval < g then .over
       else if g < -(20 * (k.interval : Int)) then .under
       else if window.length < k.window ∨ (k.band : Int) < spread window then .motion
       else .stable) := by
  have hc : cs.contains .over = false := by
    rw [← Bool.not_eq_true]
    intro hc
    exact absurd (h _ (by simpa using hc)) (by decide)
  unfold BridgeCal.stateOf
  rw [BridgeCal.notReady_false hk (fun c hc => .inr (h c hc)) (some g) (.inr rfl), hc]
  simp

end

/-! ### The evaluation of a bridge by the conditions of its members -/

section
variable {s : State} {b : BridgeNo}

theorem State.evaluation_notReady
    (h : (s.bridgeCal b).calibrated = false ∨ ∃ e ∈ (s.bridgeCal b).members, (s.deck e).condition = .noChannels ∨
      (s.deck e).condition = .uncalibrated ∨ (s.deck e).condition = .stale) :
    (s.evaluation b).state = .notReady ∧ (s.evaluation b).run = 0 := by
  have hst : (s.evaluation b).state = .notReady := by
    refine BridgeCal.stateOf_notReady (h.imp id ?_)
    rintro ⟨e, he, hc⟩
    exact ⟨_, List.mem_map.mpr ⟨e, he, rfl⟩, hc⟩
  exact ⟨hst, if_neg (by rw [show BridgeCal.stateOf _ _ _ _ _ = _ from hst]; decide)⟩

theorem State.evaluation_unformed (h : ∃ e ∈ (s.bridgeCal b).members, (s.deck e).condition ≠ .valid) :
    (s.evaluation b).sum = none ∧ (s.evaluation b).gross = none ∧ (s.evaluation b).weight = none ∧
      (s.evaluation b).window = [] := by
  simp [State.evaluation, State.bridgeSum_none h, BridgeCal.nextWindow]

theorem State.evaluation_over (hk : (s.bridgeCal b).calibrated = true)
    (h : ∀ e ∈ (s.bridgeCal b).members, (s.deck e).condition = .over ∨ (s.deck e).condition = .valid)
    (ho : ∃ e ∈ (s.bridgeCal b).members, (s.deck e).condition = .over) :
    (s.evaluation b).state = (if s.metrology.closed then .calibrating else .over) ∧ (s.evaluation b).run = 0 := by
  have hst : (s.evaluation b).state = (if s.metrology.closed then .calibrating else .over) := by
    refine BridgeCal.stateOf_over hk ?_ ?_
    · simpa using h
    · obtain ⟨e, he, hc⟩ := ho
      exact ⟨_, List.mem_map.mpr ⟨e, he, rfl⟩, hc⟩
  refine ⟨hst, if_neg ?_⟩
  rw [show BridgeCal.stateOf _ _ _ _ _ = _ from hst]
  split <;> decide

/-- With every member VALID and every F there, S, G, W and the window are formed and R23 judges them. -/
theorem State.evaluation_formed {values win : List Int} {sum g : Int} (hk : (s.bridgeCal b).calibrated = true)
    (h : ∀ e ∈ (s.bridgeCal b).members, (s.deck e).condition = .valid)
    (hv : (s.bridgeCal b).members.map (fun e => (s.deck e).filtered) = values.map some) (hs : sum = sumInt values)
    (hg : g = sum - (s.bridge b).zb)
    (hw : win = if -(20 * ((s.bridgeCal b).interval : Int)) ≤ g ∧
        g ≤ ((s.bridgeCal b).maximum : Int) + 9 * (s.bridgeCal b).interval
      then lastOf (s.bridgeCal b).window ((s.bridge b).window ++ [sum]) else []) :
    (s.evaluation b).sum = some sum ∧ (s.evaluation b).gross = some g ∧ (s.evaluation b).window = win ∧
      (s.evaluation b).weight = (s.bridgeCal b).quantised g ∧
      (s.evaluation b).state =
        (if s.metrology.closed then .calibrating
         else if ((s.bridgeCal b).maximum : Int) + 9 * (s.bridgeCal b).interval < g then .over
         else if g < -(20 * ((s.bridgeCal b).interval : Int)) then .under
         else if win.length < (s.bridgeCal b).window ∨ ((s.bridgeCal b).band : Int) < spread win then .motion
         else .stable) ∧
      (s.evaluation b).run = nextRun (s.bridge b).run (s.evaluation b).state := by
  have hsum : (s.evaluation b).sum = some sum := (State.bridgeSum_some h hv).trans (by rw [hs])
  have hgross : (s.evaluation b).gross = some g := by
    have : (s.evaluation b).gross = (s.evaluation b).sum.map (fun v => v - (s.bridge b).zb) := rfl
    rw [this, hsum, hg]
    rfl
  have hwin : (s.evaluation b).window = win := by
    have : (s.evaluation b).window =
        (s.bridgeCal b).nextWindow (s.bridge b).window (s.evaluation b).sum (s.evaluation b).gross := rfl
    rw [this, hsum, hgross, hw]
    simp [BridgeCal.nextWindow, BridgeCal.inBand]
  refine ⟨hsum, hgross, hwin, ?_, ?_, rfl⟩
  · have : (s.evaluation b).weight = (s.evaluation b).gross.bind (s.bridgeCal b).quantised := rfl
    rw [this, hgross]
    rfl
  · have : (s.evaluation b).state = (s.bridgeCal b).stateOf ((s.bridgeCal b).members.map (fun e => (s.deck e).condition))
        (s.evaluation b).gross (s.evaluation b).window s.metrology.closed := rfl
    rw [this, hgross, hwin]
    exact BridgeCal.stateOf_formed hk (by simpa using h)

end

theorem nextRun_stable {run : Nat} (h : run ≤ 255) : nextRun run .stable = min 255 (run + 1) := by
  simp only [nextRun, countTo, if_true]
  split <;> omega

theorem nextRun_other {run : Nat} {st : BridgeState} (h : st ≠ .stable) : nextRun run st = 0 := if_neg h

theorem BridgeCal.quantised_eq (k : BridgeCal) {g x : Int} (hx : x = roundDiv g k.interval * k.interval) :
    k.quantised g =
      if -2147483648 ≤ g ∧ g ≤ 2147483647 ∧ -2147483648 ≤ x ∧ x ≤ 2147483647 then some x else none := by
  subst hx
  unfold BridgeCal.quantised
  refine if_congr ?_ rfl rfl
  rw [Bool.and_eq_true, inInt32_iff, inInt32_iff, and_assoc]

/-! ### A lead arrival -/

section
variable {s : State} {c : ChannelNo} {d : DeckNo}

/-- The state with the sample recorded and the deck's new value, before the bridge is evaluated. -/
def State.valued (s : State) (c : ChannelNo) (d : DeckNo) (n : Int) (st : SampleStatus) : State :=
  (s.onChannel c (fun x => x.arrived n st s.stallTime)).deckArrival d

/-- The deck looks at no report: a CHANNEL_FAULT queued before it makes no difference to its value. -/
theorem State.sampleTaken_deckArrival (n : Int) (st : SampleStatus) :
    SameBut [.reports] (s.valued c d n st) ((s.sampleTaken c d n st).deckArrival d) := by
  rcases s.sampleTaken_cases c d n st with h | h
  · rw [h]
    exact .refl _ _
  · rw [h]
    exact State.report_same (s.valued c d n st) _

/-- Nor does the evaluation look at a report. -/
theorem State.sampleTaken_evaluation (n : Int) (st : SampleStatus) (b : BridgeNo) :
    ((s.sampleTaken c d n st).deckArrival d).evaluation b = (s.valued c d n st).evaluation b := by
  rcases s.sampleTaken_cases c d n st with h | h
  · rw [h]
    rfl
  · rw [h]
    rfl

theorem State.valued_same (n : Int) (st : SampleStatus) : SameBut [.channels, .decks] s (s.valued c d n st) :=
  ((SameBut.refl s _).then (s.onChannel_same c _)).then (State.onDeck_same _ d _)

theorem State.bridgeOfDeck_member {b : BridgeNo} (h : s.bridgeOfDeck d = some b) : d ∈ (s.bridgeCal b).members := by
  simpa using List.find?_some h

/-- A bridge with a member deck is evaluated (R21). -/
theorem State.evaluateDeck_some {b : BridgeNo} (h : s.bridgeOfDeck d = some b) :
    s.evaluateDeck d = s.applyEvaluation b (s.evaluation b) := by
  have hm : (s.bridgeCal b).members.isEmpty = false := by
    rw [List.isEmpty_eq_false_iff]
    exact List.ne_nil_of_mem (State.bridgeOfDeck_member h)
  simp only [State.evaluateDeck, h, State.evaluate, hm]
  rfl

theorem State.evaluateDeck_none (h : s.bridgeOfDeck d = none) : s.evaluateDeck d = s := by
  simp only [State.evaluateDeck, h]

theorem State.evaluateDeck_same (s : State) (d : DeckNo) :
    SameBut (.bridges :: .evaluations :: yardParts) s (s.evaluateDeck d) := by
  cases h : s.bridgeOfDeck d with
  | none =>
    rw [State.evaluateDeck_none h]
    exact .refl s _
  | some b =>
    rw [State.evaluateDeck_some h]
    exact s.applyEvaluation_same b _

/-- A sample on a lead channel, up to the end of its event. -/
theorem exec_leadArrival (hp : s.powered = true) (hd : s.deckOf c = some d) (hl : s.leadOf d = some c)
    (counts : BitVec 24) (st : SampleStatus) :
    exec (.sampleArrival c counts st) s = .next
      (((((s.sampleTaken c d counts.toInt st).deckArrival d).evaluateDeck d).seal).transmit) := by
  rw [exec_sampleArrival hp, State.sampleArrives_assigned hd, if_pos hl]

/-- What the event leaves of the channels and the decks, and what of a deck without a bridge. -/
theorem State.leadArrival_same (n : Int) (st : SampleStatus) :
    SameBut (.bridges :: .evaluations :: yardParts) (s.valued c d n st)
      (((((s.sampleTaken c d n st).deckArrival d).evaluateDeck d).seal).transmit) :=
  ((((State.sampleTaken_deckArrival n st).mono (by decide)).then (State.evaluateDeck_same _ d)).then
    (State.seal_same _)).transmit

theorem State.leadArrival_alone (n : Int) (st : SampleStatus) (hb : s.bridgeOfDeck d = none) :
    SameBut [.channels, .decks, .reports, .checkWord] s
      (((((s.sampleTaken c d n st).deckArrival d).evaluateDeck d).seal).transmit) := by
  have hb' : ((s.sampleTaken c d n st).deckArrival d).bridgeOfDeck d = none := by
    rcases s.sampleTaken_cases c d n st with h | h
    · rw [h]
      exact hb
    · rw [h]
      exact hb
  rw [State.evaluateDeck_none hb']
  exact ((((State.valued_same n st).mono (by decide)).then (State.sampleTaken_deckArrival n st)).then
    (State.seal_same _)).transmit

/-- The bridge holds the results of the evaluation when the event ends. -/
theorem State.leadArrival_results (n : Int) (st : SampleStatus) {b : BridgeNo} (hb : s.bridgeOfDeck d = some b) :
    ((((((s.sampleTaken c d n st).deckArrival d).evaluateDeck d).seal).transmit).bridge b).results =
      (s.valued c d n st).evaluation b := by
  have hb' : ((s.sampleTaken c d n st).deckArrival d).bridgeOfDeck d = some b := by
    rcases s.sampleTaken_cases c d n st with h | h
    · rw [h]
      exact hb
    · rw [h]
      exact hb
  rw [State.transmit_bridge, State.evaluateDeck_some hb', State.sampleTaken_evaluation]
  exact State.applyEvaluation_results _ b _

end

end Sys2Proof.Machine

open Sys2Proof Sys2Proof.Machine

/-- Settles O48: the deck takes the first line of R17 that applies, and the bridge the results of R21 to R25. -/
theorem leadArrivalWeighsTheBridge : Obligations.LeadArrivalWeighsTheBridge := by
  unfold Obligations.LeadArrivalWeighsTheBridge
  rintro c counts st d cs fs f s u hp hd hl rfl hu rfl rfl
  have hu : u = s.onChannel c (fun x => x.arrived counts.toInt st s.stallTime) := hu
  have hv : s.valued c d counts.toInt st = u.deckArrival d := by rw [hu]; rfl
  have hcs : u.deckChannels d = s.deckChannels d := by rw [hu]; rfl
  have hcal : ∀ x, u.channelCal x = s.channelCal x := by rw [hu]; exact fun _ => rfl
  have hper : u.period = s.period := by rw [hu]; rfl
  have hflt : u.filterLength d = s.filterLength d := by rw [hu]; rfl
  have hold : ∀ e, u.deck e = s.deck e := by rw [hu]; exact fun _ => rfl
  have same := State.leadArrival_same (s := s) (c := c) (d := d) counts.toInt st
  rw [hv] at same
  refine ⟨s.mem_deckChannels d, s.deckChannels_sorted d, _, exec_leadArrival hp hd hl counts st, same .channels (by decide),
    fun e he => ?others, fun h => ?uncalibrated, fun hc => ⟨fun h => ?stale, fun hst => ⟨fun h => ?overweight,
      fun ho hlo hhi => ?valid⟩⟩, State.leadArrival_alone _ st, ?bridge⟩
  case others => rw [same.deck e, State.deckArrival_others _ he, hold]
  case uncalibrated =>
    have hd' : u.deckCondition d = .uncalibrated := State.deckCondition_uncalibrated (by simpa only [hcs, hcal] using h)
    rw [same.deck d, State.deckArrival_invalid hd' (by decide), hper]
  all_goals try have hc' : ∀ x ∈ u.deckChannels d, (u.channelCal x).calibrated = true := by simpa only [hcs, hcal] using hc
  case stale =>
    have hd' : u.deckCondition d = .stale := State.deckCondition_stale hc' (by rw [hcs]; exact h)
    rw [same.deck d, State.deckArrival_invalid hd' (by decide), hper]
  all_goals try have hst' : ∀ x ∈ u.deckChannels d, ¬ u.StaleAt x := by rw [hcs]; exact hst
  case overweight =>
    have hd' : u.deckCondition d = .over := State.deckCondition_over hc' hst' (by rw [hcs]; exact h)
    rw [same.deck d, State.deckArrival_invalid hd' (by decide), hper]
  case valid =>
    have ho' : ∀ x ∈ u.deckChannels d, ¬ u.OverAt x := by rw [hcs]; exact ho
    have hd' : u.deckCondition d = .valid :=
      State.deckCondition_valid hc' hst' ho' (by rw [hcs]; exact hlo) (by rw [hcs]; exact hhi)
    rw [same.deck d, State.deckArrival_valid hd', State.deckValue_now hc' ho', hper, hflt, hold, hcs]
  case bridge =>
    rintro b k sum g win values hb rfl
    have hres := State.leadArrival_results (s := s) (c := c) (d := d) counts.toInt st hb
    rw [hv] at hres
    have hk : (u.deckArrival d).bridgeCal b = s.bridgeCal b := by rw [hu]; rfl
    have hx : (u.deckArrival d).bridge b = s.bridge b := by rw [hu]; rfl
    have hm : (u.deckArrival d).metrology = s.metrology := by rw [hu]; rfl
    generalize (((((s.sampleTaken c d counts.toInt st).deckArrival d).evaluateDeck d).seal).transmit) = t at same hres ⊢
    have hsum : (t.bridge b).sum = ((u.deckArrival d).evaluation b).sum := congrArg Evaluation.sum hres
    have hgross : (t.bridge b).gross = ((u.deckArrival d).evaluation b).gross := congrArg Evaluation.gross hres
    have hweight : (t.bridge b).weight = ((u.deckArrival d).evaluation b).weight := congrArg Evaluation.weight hres
    have hwindow : (t.bridge b).window = ((u.deckArrival d).evaluation b).window := congrArg Evaluation.window hres
    have hstate : (t.bridge b).state = ((u.deckArrival d).evaluation b).state := congrArg Evaluation.state hres
    have hrun : (t.bridge b).run = ((u.deckArrival d).evaluation b).run := congrArg Evaluation.run hres
    rw [hsum, hgross, hweight, hwindow, hstate, hrun]
    simp only [fun e => same.deck e]
    rw [← hk, ← hx, ← hm]
    refine ⟨State.evaluation_notReady, State.evaluation_unformed, State.evaluation_over, fun hcal hall hf hs hg hw => ?_⟩
    obtain ⟨h1, h2, h3, h4, h5, h6⟩ := State.evaluation_formed hcal hall hf hs hg hw
    refine ⟨h1, h2, h3, h5, fun hst hle => ?_, fun hst => ?_, fun x hx => ?_⟩
    · rw [h6, hst, nextRun_stable hle]
    · rw [h6, nextRun_other hst]
    · rw [h4, BridgeCal.quantised_eq _ hx]

end

-- ==== Proofs of family 01: CAL_DECK_MAP ====
section
/-! What an accepted CAL_DECK_MAP writes: the map, the channels and the decks it moves, and the bridges it clears (O31). -/

namespace Sys2Proof.Machine

/-! ### A change carried out unit by unit -/

/-- Each unit of a list is changed once, by a step that reads and changes no other unit and keeps a setting. -/
theorem forEach_reads {α β : Type} [DecidableEq α] {f : α → State → State} {read : State → α → β} {F : α → β → β}
    {P : State → Prop} {xs : List α} (keep : ∀ x ∈ xs, ∀ s, P s → P (f x s))
    (here : ∀ x ∈ xs, ∀ s, P s → read (f x s) x = F x (read s x))
    (there : ∀ x ∈ xs, ∀ y s, P s → y ≠ x → read (f x s) y = read s y) (hxs : xs.Nodup) {s : State} (hs : P s) (y : α) :
    read (forEach xs f s) y = if y ∈ xs then F y (read s y) else read s y := by
  induction xs generalizing s with
  | nil => simp [forEach]
  | cons x xs ih =>
    obtain ⟨hx, hxs⟩ := List.nodup_cons.mp hxs
    have hrec : read (forEach (x :: xs) f s) y = if y ∈ xs then F y (read (f x s) y) else read (f x s) y :=
      ih (fun z hz => keep z (List.mem_cons_of_mem _ hz)) (fun z hz => here z (List.mem_cons_of_mem _ hz))
        (fun z hz => there z (List.mem_cons_of_mem _ hz)) hxs (keep x List.mem_cons_self s hs)
    rw [hrec]
    by_cases h : y = x
    · subst h
      simp [hx, here y List.mem_cons_self s hs]
    · simp [h, there x List.mem_cons_self y s hs h]

theorem SameBut.forEach_mem {α : Type} {ps : List Part} {f : α → State → State} {xs : List α} {v : State}
    (h : ∀ x ∈ xs, ∀ s, SameBut ps v s → SameBut ps v (f x s)) {s : State} (hs : SameBut ps v s) :
    SameBut ps v (Machine.forEach xs f s) := by
  induction xs generalizing s with
  | nil => exact hs
  | cons x xs ih =>
    exact ih (fun y hy => h y (List.mem_cons_of_mem _ hy)) (h x List.mem_cons_self s hs)

theorem SameBut.forEach {α : Type} {ps : List Part} {f : α → State → State} (h : ∀ x s, SameBut ps s (f x s))
    (xs : List α) (s : State) : SameBut ps s (Machine.forEach xs f s) :=
  SameBut.forEach_mem (fun x _ u hu => hu.then (h x u) (fun _ hp => hp)) (.refl s _)

theorem forEach_keeps {α γ : Type} (g : State → γ) {f : α → State → State} (h : ∀ x s, g (f x s) = g s) (xs : List α)
    (s : State) : g (forEach xs f s) = g s := by
  induction xs generalizing s with
  | nil => rfl
  | cons x xs ih => exact (ih (f x s)).trans (h x s)

/-- A step that does nothing at each unit of a list does nothing. -/
theorem forEach_eq_self {α : Type} {f : α → State → State} {s : State} {xs : List α} (h : ∀ x ∈ xs, f x s = s) :
    forEach xs f s = s := by
  induction xs with
  | nil => rfl
  | cons x xs ih =>
    have hrec : forEach (x :: xs) f s = forEach xs f (f x s) := rfl
    rw [hrec, h x List.mem_cons_self]
    exact ih (fun y hy => h y (List.mem_cons_of_mem _ hy))

theorem mem_allFour (i : Fin 4) : i ∈ allFour := by
  revert i
  decide

theorem allFour_nodup : allFour.Nodup := by decide

theorem allSixteen_nodup : allSixteen.Nodup := by decide

/-! ### The map of the request (R9) -/

theorem optByte_named {n : Nat} {x : Byte} (h : x ≠ 0xFF) : optByte n x = (ofByte n x).map some := if_neg h

theorem optByte_isSome (x : Byte) : (optByte 4 x).isSome = true ↔ x = 0xFF ∨ x.toNat < 4 := by
  by_cases h : x = 0xFF
  · subst h
    simp [optByte]
  · rw [optByte_named h, Option.isSome_map, or_iff_right h]
    by_cases hlt : x.toNat < 4
    · simp [ofByte, hlt]
    · simp [ofByte, hlt]

theorem optByte_of (x : Byte) (m : Option DeckNo)
    (h : (x = 0xFF ∧ m = none) ∨ ∃ d : DeckNo, x.toNat = d.val ∧ m = some d) : optByte 4 x = some m := by
  rcases h with ⟨rfl, rfl⟩ | ⟨d, hd, rfl⟩
  · rfl
  · have hne : x ≠ 0xFF := by
      rintro rfl
      have := d.isLt
      simp at hd
      omega
    rw [optByte_named hne, ofByte_some hd, Option.map_some]

theorem optByte_deck (x : Byte) (d : DeckNo) : ((optByte 4 x).getD none == some d) = (x.toNat == d.val) := by
  have hd := d.isLt
  by_cases h : x = 0xFF
  · subst h
    have : ¬ 255 = d.val := by omega
    simp [optByte, this]
  · rw [optByte_named h]
    by_cases hlt : x.toNat < 4
    · simp [ofByte, hlt, Fin.ext_iff]
    · have : ¬ x.toNat = d.val := by omega
      simp [ofByte, hlt, this]

theorem deckMapOf_some {decks : Table 16 Byte} {map : Table 16 (Option DeckNo)}
    (h : ∀ c : ChannelNo, (decks.read c = 0xFF ∧ map.read c = none) ∨
      ∃ d : DeckNo, (decks.read c).toNat = d.val ∧ map.read c = some d) : deckMapOf decks = some map := by
  have ho : ∀ c, optByte 4 (decks.read c) = some (map.read c) := fun c => optByte_of _ _ (h c)
  have hall : allSixteen.all (fun c => (optByte 4 (decks.read c)).isSome) = true :=
    List.all_eq_true.mpr (fun c _ => by rw [ho c]; rfl)
  rw [deckMapOf, if_pos hall]
  exact congrArg some (Table.ext_read (fun c => by simp [ho c]))

theorem deckMapOf_none {decks : Table 16 Byte}
    (h : ∃ c : ChannelNo, 4 ≤ (decks.read c).toNat ∧ decks.read c ≠ 0xFF) : deckMapOf decks = none := by
  obtain ⟨c, hlo, hne⟩ := h
  refine if_neg (fun hall => ?_)
  rcases (optByte_isSome _).mp (List.all_eq_true.mp hall c (mem_allSixteen c)) with h | h
  · exact hne h
  · omega

/-- The channels a map gives to a deck are those whose byte names the deck. -/
theorem deckMapOf_count {decks : Table 16 Byte} {map : Table 16 (Option DeckNo)} (h : deckMapOf decks = some map)
    (d : DeckNo) :
    allSixteen.filter (fun c => map.read c == some d) = allSixteen.filter (fun c => (decks.read c).toNat == d.val) := by
  unfold deckMapOf at h
  split at h
  · obtain rfl := Option.some.inj h
    exact List.filter_congr (fun c _ => by rw [Table.read_each, optByte_deck])
  · cases h

theorem mapFits_iff {decks : Table 16 Byte} {map : Table 16 (Option DeckNo)} (h : deckMapOf decks = some map) :
    mapFits map = true ↔
      ∀ d : DeckNo, (allSixteen.filter (fun c => (decks.read c).toNat == d.val)).length ≤ 4 := by
  simp only [mapFits, List.all_eq_true, decide_eq_true_eq, deckMapOf_count h]
  exact ⟨fun k d => k d (mem_allFour d), fun k d _ => k d⟩

theorem mem_changedDecks (old new : Table 16 (Option DeckNo)) (d : DeckNo) :
    d ∈ changedDecks old new ↔ ∃ c : ChannelNo, ¬ (new.read c = some d ↔ old.read c = some d) := by
  simp only [changedDecks, List.mem_filter, mem_allFour, true_and, List.any_eq_true, mem_allSixteen, bne_iff_ne, ne_eq]
  refine exists_congr (fun c => not_congr ?_)
  rw [Bool.eq_iff_iff, beq_iff_eq, beq_iff_eq]
  exact Iff.comm

theorem changedDecks_nodup (old new : Table 16 (Option DeckNo)) : (changedDecks old new).Nodup :=
  allFour_nodup.filter _

/-! ### Channels and decks (R5, R9, R36) -/

section
variable (s : State)

theorem State.reassignChannels_same (old new : Table 16 (Option DeckNo)) :
    SameBut [.channels] s (s.reassignChannels old new) := by
  refine SameBut.forEach (fun c u => ?_) _ s
  split
  · exact .refl u _
  · exact u.onChannel_same c _

theorem State.reassignChannels_channel (old new : Table 16 (Option DeckNo)) (c : ChannelNo) :
    (s.reassignChannels old new).channel c =
      if old.read c = new.read c then s.channel c else (s.channel c).reassigned (new.read c) s.stallTime := by
  unfold State.reassignChannels
  rw [forEach_reads (read := State.channel)
    (F := fun x k => if old.read x = new.read x then k else k.reassigned (new.read x) s.stallTime)
    (P := fun u => u.stallTime = s.stallTime) ?_ ?_ ?_ allSixteen_nodup rfl c, if_pos (mem_allSixteen c)]
  · intro x _ u hu
    split
    · exact hu
    · exact hu
  · intro x _ u hu
    split
    · rfl
    · rw [State.onChannel_channel, hu]
  · intro x _ y u hu hne
    split
    · rfl
    · exact u.onChannel_channel_ne _ (Ne.symm hne)

theorem State.awaitMembers_same (ds : List DeckNo) : SameBut [.channels] s (s.awaitMembers ds) := by
  refine SameBut.forEach (fun c u => ?_) _ s
  split
  · exact u.onChannel_same c _
  · exact .refl u _

theorem State.awaitMembers_channel (ds : List DeckNo) (c : ChannelNo) :
    (s.awaitMembers ds).channel c =
      if ds.any (fun d => s.deckOf c == some d) then { s.channel c with awaited := true } else s.channel c := by
  unfold State.awaitMembers
  rw [forEach_reads (read := State.channel)
    (F := fun x k => if ds.any (fun d => s.deckOf x == some d) then { k with awaited := true } else k)
    (P := fun u => u.ret = s.ret) ?_ ?_ ?_ allSixteen_nodup rfl c, if_pos (mem_allSixteen c)]
  · intro x _ u hu
    split
    · exact hu
    · exact hu
  · intro x _ u hu
    have hd : u.deckOf x = s.deckOf x := by simp [State.deckOf, hu]
    rw [hd]
    split
    · rw [State.onChannel_channel]
    · rfl
  · intro x _ y u hu hne
    split
    · exact u.onChannel_channel_ne _ (Ne.symm hne)
    · rfl

/-- The condition of a deck whose channels changed. -/
def State.resetCondition (s : State) (d : DeckNo) : DeckCondition :=
  if (s.deckChannels d).isEmpty then .noChannels else .stale

theorem State.resetCondition_iff (d : DeckNo) :
    (s.resetCondition d = .stale ∨ s.resetCondition d = .noChannels) ∧
      (s.resetCondition d = .noChannels ↔ ∀ c : ChannelNo, s.deckOf c ≠ some d) := by
  have he : (s.deckChannels d).isEmpty = true ↔ ∀ c : ChannelNo, s.deckOf c ≠ some d := by
    simp [State.deckChannels, mem_allSixteen]
  unfold State.resetCondition
  rw [← he]
  split <;> simp_all

theorem State.resetCondition_congr {s t : State} (h : t.ret.site = s.ret.site) {d : DeckNo} :
    t.resetCondition d = s.resetCondition d := by
  simp [State.resetCondition, State.deckChannels, State.deckOf, h]

theorem State.resetDecks_same (ds : List DeckNo) : SameBut [.decks] s (s.resetDecks ds) :=
  SameBut.forEach (fun d u => u.onDeck_same d _) _ s

theorem State.resetDecks_deck {ds : List DeckNo} (h : ds.Nodup) (d : DeckNo) :
    (s.resetDecks ds).deck d =
      if d ∈ ds then { (s.deck d).cleared (s.resetCondition d) with freshness := none } else s.deck d := by
  unfold State.resetDecks
  rw [forEach_reads (read := State.deck) (F := fun x k => { k.cleared (s.resetCondition x) with freshness := none })
    (P := fun u => u.ret = s.ret) ?_ ?_ ?_ h rfl d]
  · intro x _ u hu
    exact hu
  · intro x _ u hu
    have hc : u.deckChannels x = s.deckChannels x := by simp [State.deckChannels, State.deckOf, hu]
    rw [State.onDeck_deck, hc]
    rfl
  · intro x _ y u hu hne
    exact u.onDeck_deck_ne _ (Ne.symm hne)

end

/-! ### A bridge cleared where nothing moves (R36) -/

section
variable {s : State} {b : BridgeNo}

/-- A lane that is not crossing meets no condition of its state. -/
theorem State.testLane_resting {l : LaneNo} (h : (s.lane l).state ≠ .entering ∧ (s.lane l).state ≠ .leaving ∧
    (s.lane l).state ≠ .backingOut ∧ (s.lane l).state ≠ .passing) : s.testLane l = s := by
  obtain ⟨he, hl, hb, hp⟩ := h
  unfold State.testLane
  split
  · rfl
  · split <;> simp_all

theorem State.NoCrossing.of_same {ps : List Part} {s t : State} {b : BridgeNo} (h : SameBut ps s t) (k : s.NoCrossing b)
    (hl : Part.lanes ∉ ps := by decide) (hs : Part.site ∉ ps := by decide) : t.NoCrossing b := by
  intro l hm
  rw [h.lane l hl]
  refine k l ?_
  have hcfg : ∀ l, t.config l = s.config l := fun l => congrArg (fun x => x.lanes.read l) (h .site hs)
  simpa [State.listing, hcfg] using hm

theorem State.testLanes_resting (h : s.NoCrossing b) : forEach (s.listing b) (fun l s => s.testLane l) s = s :=
  forEach_eq_self (fun l hl => State.testLane_resting (h l hl))

theorem State.attemptZero_unstable (h : (s.bridge b).state ≠ .stable) : s.attemptZero b = s := by
  have ha : s.zeroAttempted b = false := by simp [State.zeroAttempted, h]
  simp [State.attemptZero, ha]

/-- One more evaluation. -/
def State.evaluationCounted (s : State) : State := { s with evaluations := s.evaluations + 1 }

theorem State.zeroAndGrant_closed (hc : s.metrology.closed = true) (h : (s.bridge b).state ≠ .stable) :
    s.zeroAndGrant b = s.evaluationCounted := by
  have hg : s.evaluationCounted.decideGrant b = s.evaluationCounted := State.decideGrant_of_closed _ b hc
  have hz : s.evaluationCounted.attemptZero b = s.evaluationCounted := State.attemptZero_unstable h
  have hx : s.zeroAndGrant b =
      if Config.grantFirst s.evaluations then (s.evaluationCounted.decideGrant b).attemptZero b
      else (s.evaluationCounted.attemptZero b).decideGrant b := rfl
  rw [hx, hg, hz, hg, ite_self]

theorem State.testCapture_none (h : (s.bridge b).capture = none) : s.testCapture b = s := by
  simp only [State.testCapture, h]

theorem State.testCapture_notReady (h : (s.bridge b).state = .notReady) :
    SameBut [.bridges] s (s.testCapture b) ∧
      (s.testCapture b).bridge b =
        { s.bridge b with capture := (s.bridge b).capture.map (fun k => { k with blocking := .notReady }) } ∧
      ∀ o : BridgeNo, o ≠ b → (s.testCapture b).bridge o = s.bridge o := by
  cases hk : (s.bridge b).capture with
  | none =>
    rw [State.testCapture_none hk]
    refine ⟨.refl s _, ?_, fun _ _ => rfl⟩
    rw [Option.map_none, ← hk]
  | some k =>
    have hx : s.testCapture b =
        s.onBridge b (fun x => { x with capture := some { k with blocking := .notReady } }) := by
      simp only [State.testCapture, hk, State.blocking, h]
    rw [hx]
    exact ⟨s.onBridge_same b _, by simp, fun o ho => s.onBridge_bridge_ne _ (Ne.symm ho)⟩

/-- What a bridge is after a calibration that clears its window. -/
def Bridge.afterClearing (x : Bridge) (z0 : Int) : Bridge :=
  { x with
    zb := z0, limitReported := false, window := [], sum := none, gross := none, weight := none,
    state := .notReady, underlying := false, run := 0,
    capture := x.capture.map (fun k => { k with blocking := .notReady }) }

/-- The bridge as a calibration finds it evaluated: cleared, with the next number of an evaluation. -/
def State.clearedAlone (s : State) (b : BridgeNo) : State :=
  ((s.zeroToReference b).onBridge b (fun x => x.evaluated .afterCalibration)).evaluationCounted

theorem State.clearedAlone_same (s : State) (b : BridgeNo) : SameBut [.bridges, .evaluations] s (s.clearedAlone b) :=
  (((SameBut.refl s _).then (s.zeroToReference_same b)).then (State.onBridge_same _ b _)).then
    (State.evaluations_same _ _)

theorem State.clearBridge_resting (hm : (s.bridgeCal b).members ≠ []) (hc : s.metrology.closed = true)
    (hn : s.NoCrossing b) : s.clearBridge b = (s.clearedAlone b).testCapture b := by
  have hne : ((s.zeroToReference b).bridgeCal b).members.isEmpty = false := by
    rw [List.isEmpty_eq_false_iff]
    exact hm
  have hz : ((s.zeroToReference b).onBridge b (fun x => x.evaluated .afterCalibration)).zeroAndGrant b =
      s.clearedAlone b :=
    State.zeroAndGrant_closed (by exact hc) (by simp [Bridge.evaluated, Evaluation.afterCalibration])
  have hcap := (State.testCapture_notReady (s := s.clearedAlone b) (b := b)
    (by simp [State.clearedAlone, State.evaluationCounted, State.bridge, State.onBridge, Bridge.evaluated,
      Evaluation.afterCalibration])).1
  have hrest : ((s.clearedAlone b).testCapture b).NoCrossing b :=
    State.NoCrossing.of_same ((s.clearedAlone_same b).then hcap) hn
  unfold State.clearBridge
  simp only
  rw [if_neg (by simp [hne]), State.applyEvaluation, hz]
  exact State.testLanes_resting hrest

theorem State.clearBridge_alone (hm : (s.bridgeCal b).members ≠ []) (hc : s.metrology.closed = true)
    (hn : s.NoCrossing b) :
    SameBut [.bridges, .evaluations] s (s.clearBridge b) ∧
      (s.clearBridge b).bridge b = (s.bridge b).afterClearing (s.bridgeCal b).z0 ∧
      ∀ o : BridgeNo, o ≠ b → (s.clearBridge b).bridge o = s.bridge o := by
  have hb : (s.clearedAlone b).bridge b =
      { s.bridge b with zb := (s.bridgeCal b).z0, limitReported := false }.evaluated .afterCalibration := by
    have hx : (s.clearedAlone b).bridge b = ((s.zeroToReference b).bridge b).evaluated .afterCalibration :=
      State.onBridge_bridge (s.zeroToReference b) b (fun x => x.evaluated .afterCalibration)
    rw [hx, State.zeroToReference_bridge]
  obtain ⟨hsame, hself, hothers⟩ := State.testCapture_notReady (s := s.clearedAlone b) (b := b) (by rw [hb]; rfl)
  rw [State.clearBridge_resting hm hc hn]
  refine ⟨(s.clearedAlone_same b).then hsame, ?_, fun o ho => ?_⟩
  · rw [hself, hb]
    rfl
  · rw [hothers o ho]
    exact (State.onBridge_bridge_ne (s.zeroToReference b) (fun x => x.evaluated .afterCalibration) (Ne.symm ho)).trans
      (s.zeroToReference_others ho)

end

/-! ### The request carried out -/

theorem State.clearBridge_same (s : State) (b : BridgeNo) :
    SameBut (.bridges :: .evaluations :: yardParts) s (s.clearBridge b) := by
  have h : SameBut (.bridges :: .evaluations :: yardParts) s (s.zeroToReference b) :=
    (s.zeroToReference_same b).mono (by decide)
  unfold State.clearBridge
  simp only
  split
  · exact h.then ((State.onBridge_same _ b _).mono (by decide)) (qs := [.bridges])
  · exact h.then (State.applyEvaluation_same _ b _)

/-- The map is written, with the channels and decks it moves. -/
def State.mapped (s : State) (map : Table 16 (Option DeckNo)) : State :=
  ((((s.onSite (fun t => { t with deckMap := map })).reassignChannels s.ret.site.deckMap map).awaitMembers
    (changedDecks s.ret.site.deckMap map)).resetDecks (changedDecks s.ret.site.deckMap map))

section
variable (s : State) (map : Table 16 (Option DeckNo))

theorem State.takeDeckMap_eq :
    s.takeDeckMap map =
      (forEach (((s.mapped map).calibrated 0x10 none).bridgesWith (changedDecks s.ret.site.deckMap map))
        (fun b s => s.clearBridge b) ((s.mapped map).calibrated 0x10 none)).seal := rfl

theorem State.mapWritten_moved_same :
    SameBut [.channels, .decks] (s.onSite (fun t => { t with deckMap := map })) (s.mapped map) :=
  (((SameBut.refl _ _).then (State.reassignChannels_same _ _ _)).then (State.awaitMembers_same _ _)).then
    (State.resetDecks_same _ _)

theorem State.mapped_same : SameBut [.site, .channels, .decks] s (s.mapped map) :=
  (((SameBut.refl s _).then (s.onSite_same _))).then (s.mapWritten_moved_same map)

theorem State.mapped_link : (s.mapped map).link = s.link := by
  unfold State.mapped State.resetDecks State.awaitMembers State.reassignChannels
  rw [forEach_keeps State.link, forEach_keeps State.link, forEach_keeps State.link]
  · rfl
  · intro c u
    split
    · rfl
    · rfl
  · intro c u
    split
    · rfl
    · rfl
  · exact fun _ _ => rfl

theorem State.mapped_site : (s.mapped map).ret.site = { s.ret.site with deckMap := map } :=
  s.mapWritten_moved_same map .site (by decide)

theorem State.mapped_channel (c : ChannelNo) :
    (s.mapped map).channel c =
      if (changedDecks s.ret.site.deckMap map).any (fun d => map.read c == some d) then
        { (if s.deckOf c = map.read c then s.channel c else (s.channel c).reassigned (map.read c) s.stallTime) with
          awaited := true }
      else if s.deckOf c = map.read c then s.channel c else (s.channel c).reassigned (map.read c) s.stallTime := by
  have hsite := (s.onSite (fun t => { t with deckMap := map })).reassignChannels_same s.ret.site.deckMap map .site
    (by decide)
  have hmap : ((s.onSite (fun t => { t with deckMap := map })).reassignChannels s.ret.site.deckMap map).deckOf c =
      map.read c := congrArg (fun x => x.deckMap.read c) hsite
  unfold State.mapped
  rw [(State.resetDecks_same _ _).channel c, State.awaitMembers_channel, hmap, State.reassignChannels_channel]
  rfl

theorem State.mapped_deckOf (c : ChannelNo) : (s.mapped map).deckOf c = map.read c := by
  simp [State.deckOf, s.mapped_site map]

theorem State.mapped_deck (d : DeckNo) :
    (s.mapped map).deck d =
      if d ∈ changedDecks s.ret.site.deckMap map then
        { (s.deck d).cleared ((s.mapped map).resetCondition d) with freshness := none }
      else s.deck d := by
  have hsame := ((s.onSite (fun t => { t with deckMap := map })).reassignChannels_same s.ret.site.deckMap map).then
    (State.awaitMembers_same _ (changedDecks s.ret.site.deckMap map))
  have hreset := fun u : State => u.resetDecks_same (changedDecks s.ret.site.deckMap map)
  unfold State.mapped
  have hdeck := (hsame.deck d).trans (show _ = s.deck d from rfl)
  rw [State.resetCondition_congr (hreset _ .site (by decide)), ← hdeck]
  exact State.resetDecks_deck _ (changedDecks_nodup _ _) d

/-- Each bridge with a changed deck is cleared, and no other bridge moves, where no lane is at the end of a movement. -/
theorem State.clearBridges_alone {bs : List BridgeNo} (hbs : bs.Nodup) {v : State}
    (hm : ∀ b ∈ bs, (v.bridgeCal b).members ≠ []) (hc : v.metrology.closed = true) (hn : ∀ b, v.NoCrossing b) :
    SameBut [.bridges, .evaluations] v (forEach bs (fun b s => s.clearBridge b) v) ∧
      ∀ b, (forEach bs (fun b s => s.clearBridge b) v).bridge b =
        if b ∈ bs then (v.bridge b).afterClearing (v.bridgeCal b).z0 else v.bridge b := by
  have hstep : ∀ b ∈ bs, ∀ u, SameBut [.bridges, .evaluations] v u →
      SameBut [.bridges, .evaluations] u (u.clearBridge b) ∧
        (u.clearBridge b).bridge b = (u.bridge b).afterClearing (v.bridgeCal b).z0 ∧
        ∀ o : BridgeNo, o ≠ b → (u.clearBridge b).bridge o = u.bridge o := by
    intro b hb u hu
    have hcal : u.bridgeCal b = v.bridgeCal b := hu.bridgeCal b
    have hclosed : u.metrology.closed = true := by rw [hu .metrology (by decide)]; exact hc
    rw [← hcal]
    exact State.clearBridge_alone (by rw [hcal]; exact hm b hb) hclosed (State.NoCrossing.of_same hu (hn b))
  refine ⟨SameBut.forEach_mem (fun b hb u hu => hu.then (hstep b hb u hu).1) (.refl v _), fun b => ?_⟩
  exact forEach_reads (read := State.bridge) (F := fun b x => x.afterClearing (v.bridgeCal b).z0)
    (P := SameBut [.bridges, .evaluations] v) (fun b hb u hu => hu.then (hstep b hb u hu).1)
    (fun b hb u hu => (hstep b hb u hu).2.1) (fun b hb o u hu ho => (hstep b hb u hu).2.2 o ho) hbs (.refl v _) b

/-- A channel awaits its next sample where the deck it is given changed. -/
theorem State.mapped_awaited_iff (c : ChannelNo) :
    (changedDecks s.ret.site.deckMap map).any (fun d => map.read c == some d) = true ↔
      ∃ d : DeckNo, map.read c = some d ∧ ∃ o : ChannelNo, ¬ (map.read o = some d ↔ s.deckOf o = some d) := by
  simp only [List.any_eq_true, beq_iff_eq, mem_changedDecks, State.deckOf]
  exact exists_congr (fun d => And.comm)

section
variable {s map}

theorem State.mapped_channel_moved {c : ChannelNo} (h : map.read c ≠ s.deckOf c) :
    ((s.mapped map).channel c).sample = none ∧ ((s.mapped map).channel c).age = 65535 ∧
      ((s.mapped map).channel c).fault = false ∧ ((s.mapped map).channel c).stall = false ∧
      ((s.mapped map).channel c).receiver = (s.channel c).receiver ∧
      ((s.mapped map).channel c).stallTimer = if (map.read c).isSome then some (4 * s.period) else none := by
  rw [State.mapped_channel, if_neg (Ne.symm h)]
  split <;> exact ⟨rfl, rfl, rfl, rfl, rfl, rfl⟩

theorem State.mapped_channel_kept {c : ChannelNo} (h : map.read c = s.deckOf c) :
    (s.mapped map).channel c = { s.channel c with awaited := ((s.mapped map).channel c).awaited } := by
  rw [State.mapped_channel, if_pos h.symm]
  split <;> rfl

theorem State.mapped_channel_awaited {c : ChannelNo} {d : DeckNo} (h : map.read c = some d)
    (hd : ∃ o : ChannelNo, ¬ (map.read o = some d ↔ s.deckOf o = some d)) :
    ((s.mapped map).channel c).awaited = true := by
  rw [State.mapped_channel, if_pos ((s.mapped_awaited_iff map c).mpr ⟨d, h, hd⟩)]

theorem State.mapped_channel_settled {c : ChannelNo} {d : DeckNo} (h : map.read c = some d)
    (hd : ∀ o : ChannelNo, map.read o = some d ↔ s.deckOf o = some d) :
    ((s.mapped map).channel c).awaited = (s.channel c).awaited := by
  have hn : ¬ ((changedDecks s.ret.site.deckMap map).any (fun d => map.read c == some d) = true) := by
    rw [State.mapped_awaited_iff]
    rintro ⟨e, he, o, ho⟩
    obtain rfl : d = e := Option.some.inj (h.symm.trans he)
    exact ho (hd o)
  rw [State.mapped_channel, if_neg hn, if_pos (((hd c).mp h).trans h.symm)]

theorem State.mapped_channel_unused {c : ChannelNo} (h : map.read c = none) :
    ((s.mapped map).channel c).awaited = if s.deckOf c = none then (s.channel c).awaited else false := by
  have hn : ¬ ((changedDecks s.ret.site.deckMap map).any (fun d => map.read c == some d) = true) := by simp [h]
  rw [State.mapped_channel, if_neg hn, h]
  split
  · rfl
  · rfl

theorem State.mapped_deck_changed {d : DeckNo} (h : ∃ c : ChannelNo, ¬ (map.read c = some d ↔ s.deckOf c = some d)) :
    ((s.mapped map).deck d).history = [] ∧ ((s.mapped map).deck d).filtered = none ∧
      ((s.mapped map).deck d).freshness = none ∧
      (((s.mapped map).deck d).condition = .stale ∨ ((s.mapped map).deck d).condition = .noChannels) ∧
      (((s.mapped map).deck d).condition = .noChannels ↔ ∀ c : ChannelNo, map.read c ≠ some d) := by
  obtain ⟨hcond, hiff⟩ := (s.mapped map).resetCondition_iff d
  simp only [State.mapped_deckOf] at hiff
  rw [State.mapped_deck, if_pos ((mem_changedDecks _ _ _).mpr h)]
  exact ⟨rfl, rfl, rfl, hcond, hiff⟩

theorem State.mapped_deck_unchanged {d : DeckNo} (h : ∀ c : ChannelNo, map.read c = some d ↔ s.deckOf c = some d) :
    (s.mapped map).deck d = s.deck d := by
  rw [State.mapped_deck, if_neg (fun hm => ?_)]
  obtain ⟨c, hc⟩ := (mem_changedDecks _ _ _).mp hm
  exact hc (h c)

end

end

theorem State.bridgesWith_nodup (s : State) (ds : List DeckNo) : (s.bridgesWith ds).Nodup := allFour_nodup.filter _

theorem State.mem_bridgesWith (s : State) (ds : List DeckNo) (b : BridgeNo) :
    b ∈ s.bridgesWith ds ↔ ∃ d ∈ (s.bridgeCal b).members, d ∈ ds := by
  simp [State.bridgesWith, mem_allFour]

/-! ### The request (R9) -/

section
variable {s : State} {decks : Table 16 Byte}

theorem actCalDeckMap_accepted {map : Table 16 (Option DeckNo)} (hg : s.calibrationGate = none)
    (hm : deckMapOf decks = some map) (hf : mapFits map = true) :
    actCalDeckMap decks s =
      (s.takeDeckMap map).accepted (.deckMap map.toList (s.takeDeckMap map).ret.calCounter) := by
  simp only [actCalDeckMap, hg, hm, hf, if_true]

theorem actCalDeckMap_outOfRange (hg : s.calibrationGate = none)
    (h : deckMapOf decks = none ∨ ∃ map, deckMapOf decks = some map ∧ mapFits map = false) :
    actCalDeckMap decks s = s.refused .outOfRange := by
  rcases h with h | ⟨map, h, hf⟩
  · simp only [actCalDeckMap, hg, h]
  · simp [actCalDeckMap, hg, h, hf]

end

section
variable (s : State) (map : Table 16 (Option DeckNo))

/-- Map, counter and CAL_CHANGED, before the bridges are cleared. -/
theorem State.remapped_same :
    SameBut [.site, .channels, .decks, .calCounter, .checkWord, .reports] s ((s.mapped map).calibrated 0x10 none) :=
  ((s.mapped_same map).mono (by decide)).then (State.calibrated_same _ _ _)

/-- The clearing of the bridges moves bridges and yard alone. -/
theorem State.takeDeckMap_moves :
    SameBut (.bridges :: .evaluations :: yardParts) ((s.mapped map).calibrated 0x10 none) (s.takeDeckMap map) :=
  (SameBut.forEach (fun b u => u.clearBridge_same b) _ _).then (State.seal_same _)

theorem State.takeDeckMap_calCounter : (s.takeDeckMap map).ret.calCounter = succSkipZero s.ret.calCounter := by
  have h : (s.mapped map).ret.calCounter = s.ret.calCounter := s.mapped_same map .calCounter (by decide)
  rw [show (s.takeDeckMap map).ret.calCounter = _ from s.takeDeckMap_moves map .calCounter (by decide),
    State.calibrated_calCounter, h]

theorem State.takeDeckMap_site : (s.takeDeckMap map).ret.site = { s.ret.site with deckMap := map } := by
  rw [show (s.takeDeckMap map).ret.site = _ from s.takeDeckMap_moves map .site (by decide),
    show ((s.mapped map).calibrated 0x10 none).ret.site = _ from State.calibrated_same _ _ _ .site (by decide),
    s.mapped_site map]

theorem State.takeDeckMap_cal : (s.takeDeckMap map).ret.cal = s.ret.cal :=
  (show _ = _ from s.takeDeckMap_moves map .cal (by decide)).trans (s.remapped_same map .cal (by decide))

theorem State.takeDeckMap_channel (c : ChannelNo) : (s.takeDeckMap map).channel c = (s.mapped map).channel c :=
  ((s.takeDeckMap_moves map).channel c).trans ((State.calibrated_same _ _ _).channel c)

theorem State.takeDeckMap_deck (d : DeckNo) : (s.takeDeckMap map).deck d = (s.mapped map).deck d :=
  ((s.takeDeckMap_moves map).deck d).trans ((State.calibrated_same _ _ _).deck d)

section
variable {s map}

/-- Where no lane crosses, the bridges with a changed deck are cleared and nothing follows. -/
theorem State.takeDeckMap_resting (hc : s.metrology.closed = true) (hn : ∀ b : BridgeNo, s.NoCrossing b) :
    SameBut [.bridges, .evaluations, .checkWord] ((s.mapped map).calibrated 0x10 none) (s.takeDeckMap map) ∧
      ∀ b : BridgeNo, (s.takeDeckMap map).bridge b =
        if ∃ d ∈ (s.bridgeCal b).members, ∃ c : ChannelNo, ¬ (map.read c = some d ↔ s.deckOf c = some d) then
          (s.bridge b).afterClearing (s.bridgeCal b).z0
        else s.bridge b := by
  have hm : ∀ b, b ∈ ((s.mapped map).calibrated 0x10 none).bridgesWith (changedDecks s.ret.site.deckMap map) ↔
      ∃ d ∈ (s.bridgeCal b).members, ∃ c : ChannelNo, ¬ (map.read c = some d ↔ s.deckOf c = some d) := fun b => by
    rw [State.mem_bridgesWith, (s.remapped_same map).bridgeCal b]
    simp only [mem_changedDecks]
    rfl
  have hcross : ∀ b, ((s.mapped map).calibrated 0x10 none).NoCrossing b := fun b l hl => by
    have hsite : ((s.mapped map).calibrated 0x10 none).ret.site = { s.ret.site with deckMap := map } :=
      Eq.trans (State.calibrated_same _ _ _ .site (by decide)) (s.mapped_site map)
    have hcfg : ∀ m, ((s.mapped map).calibrated 0x10 none).config m = s.config m := fun m =>
      congrArg (fun x => x.lanes.read m) hsite
    rw [(s.remapped_same map).lane l]
    unfold State.listing at hl
    simp only [hcfg] at hl
    exact hn b l hl
  obtain ⟨hsame, hbridge⟩ := State.clearBridges_alone (State.bridgesWith_nodup _ (changedDecks s.ret.site.deckMap map))
    (fun b hb => by
      obtain ⟨d, hd, _⟩ := (State.mem_bridgesWith _ _ b).mp hb
      exact List.ne_nil_of_mem hd)
    (by rw [s.remapped_same map .metrology (by decide)]; exact hc) hcross
  refine ⟨(hsame.mono (by decide)).then (State.seal_same _), fun b => ?_⟩
  have hb := hbridge b
  simp only [hm, (s.remapped_same map).bridge b, (s.remapped_same map).bridgeCal b] at hb
  rw [State.takeDeckMap_eq, (State.seal_same _).bridge b]
  exact hb

theorem State.takeDeckMap_voiced (hc : s.metrology.closed = true) (hn : ∀ b : BridgeNo, s.NoCrossing b)
    (h : s.link.reports.length < 32) :
    (s.takeDeckMap map).voiced = s.voiced ++ [.calChanged 0x10 (succSkipZero s.ret.calCounter) none] := by
  have hlink := s.mapped_link map
  rw [((State.takeDeckMap_resting hc hn).1 .reports (by decide)).1, State.calibrated_voiced _ _ _ (by rw [hlink]; exact h)]
  rw [show (s.mapped map).ret.calCounter = _ from s.mapped_same map .calCounter (by decide),
    (s.mapped_same map .reports (by decide)).1]

end

end

end Sys2Proof.Machine

open Sys2Proof Sys2Proof.Machine

/-- Settles O31: the map moves channels and decks one by one; the bridges of changed decks are then cleared, and where no
lane crosses, nothing follows from their evaluation. -/
theorem calDeckMapReassignsChannels : Obligations.CalDeckMapReassignsChannels := by
  unfold Obligations.CalDeckMapReassignsChannels
  refine ⟨fun decks s hs hc hp hbad => ?range, fun decks map s hs hc hp hmap hfit => ?taken⟩
  all_goals have hg : s.hunting.calibrationGate = none := State.calibrationGate_none hc hp
  case range =>
    refine State.receive_turned hs (by simp) (actCalDeckMap_outOfRange hg ?_)
    cases hm : deckMapOf decks with
    | none => exact .inl rfl
    | some map =>
      refine .inr ⟨map, rfl, Bool.eq_false_iff.mpr (fun hf => ?_)⟩
      rcases hbad with hbad | ⟨d, hd⟩
      · exact absurd (hm.symm.trans (deckMapOf_none hbad)) (by simp)
      · exact absurd ((mapFits_iff hm).mp hf d) (by omega)
  case taken =>
    have hm := deckMapOf_some hmap
    obtain ⟨t, hx, hans, rfl⟩ := State.receive_taken hs (r := .calDeckMap decks) (by simp)
      (actCalDeckMap_accepted hg hm ((mapFits_iff hm).mpr hfit))
    have hret : ∀ r, (((s.hunting.takeDeckMap map).setReply r).transmit).ret = (s.hunting.takeDeckMap map).ret :=
      fun r => by rw [State.transmit_ret]; rfl
    have hchannel : ∀ r c, (((s.hunting.takeDeckMap map).setReply r).transmit).channel c =
        (s.hunting.mapped map).channel c := fun r c => by
      rw [State.transmit_channel, (State.setReply_same _ r).channel c, State.takeDeckMap_channel]
    have hdeck : ∀ r d, (((s.hunting.takeDeckMap map).setReply r).transmit).deck d =
        (s.hunting.mapped map).deck d := fun r d => by
      rw [State.transmit_deck, (State.setReply_same _ r).deck d, State.takeDeckMap_deck]
    refine ⟨_, hx, by rw [hret]; exact hans, ?_, ?_, ?_, fun c h => ?moved, fun c h => ?kept, fun c d h => ?assigned,
      fun c h => ?unused, fun d h => ?changed, fun d h => ?unchanged, fun hn => ?resting⟩
    · rw [hret, State.takeDeckMap_calCounter]
      rfl
    · rw [hret, State.takeDeckMap_site]
      rfl
    · rw [hret, State.takeDeckMap_cal]
      rfl
    case moved =>
      rw [hchannel]
      exact State.mapped_channel_moved (s := s.hunting) h
    case kept =>
      rw [hchannel]
      exact State.mapped_channel_kept (s := s.hunting) h
    case assigned =>
      rw [hchannel]
      exact ⟨State.mapped_channel_awaited (s := s.hunting) h, State.mapped_channel_settled (s := s.hunting) h⟩
    case unused =>
      rw [hchannel]
      exact State.mapped_channel_unused (s := s.hunting) h
    case changed =>
      rw [hdeck]
      exact State.mapped_deck_changed (s := s.hunting) h
    case unchanged =>
      rw [hdeck]
      exact State.mapped_deck_unchanged (s := s.hunting) h
    case resting =>
      have hbridge : ∀ r b, (((s.hunting.takeDeckMap map).setReply r).transmit).bridge b =
          (s.hunting.takeDeckMap map).bridge b := fun r b => by
        rw [State.transmit_bridge, (State.setReply_same _ r).bridge b]
      obtain ⟨hsame, hcleared⟩ := State.takeDeckMap_resting (s := s.hunting) (map := map) hc hn
      refine ⟨fun b h => ?_, fun b h => ?_, fun hr => ?_, State.taken_same
        (SameBut.then (ps := [.site, .calCounter, .checkWord, .channels, .decks, .bridges, .reports, .evaluations])
          ((s.hunting.remapped_same map).mono (by decide)) hsame) _⟩
      · rw [hbridge, hcleared b]
        split
        · rfl
        · next hn => exact absurd h hn
      · rw [hbridge, hcleared b]
        split
        · next hch =>
          obtain ⟨d, hd, c, hc⟩ := hch
          exact absurd (h d hd c) hc
        · rfl
      · rw [State.transmit_voiced, State.setReply_voiced, State.takeDeckMap_voiced (s := s.hunting) hc hn hr, hret,
          State.takeDeckMap_calCounter]
        rfl
end

-- ==== Proofs of family 01: grant decisions ====
section
/-! When the grant decision of a ZERO_WAIVE, of an evaluation and of a takeover of the holder grants the bridge (O50). -/

namespace Sys2Proof.Machine

theorem SameBut.barrier {ps : List Part} {s t : State} (h : SameBut ps s t) (b : BarrierNo)
    (hp : Part.barriers ∉ ps := by decide) : t.barrier b = s.barrier b :=
  congrArg (fun x => x.read b) (show t.barriers = s.barriers from h _ hp)

/-- The grant decision looks at the switch, the grant, the backlog and the results of the bridge, and three settings. -/
theorem State.Grantable.congr {s t : State} {b : BridgeNo} (hm : t.metrology.closed = s.metrology.closed)
    (hg : (t.grant b).holder = (s.grant b).holder) (hb : (t.bridge b).backlog = (s.bridge b).backlog)
    (hs : (t.bridge b).state = (s.bridge b).state) (hx : (t.bridge b).gross = (s.bridge b).gross)
    (ht : t.timing b = s.timing b) (hk : t.bridgeCal b = s.bridgeCal b) : t.Grantable b ↔ s.Grantable b := by
  constructor
  · rintro ⟨h1, h2, h3, h4, h5⟩
    rw [hm] at h1
    rw [hg] at h2
    rw [hb, ht] at h3
    rw [hs] at h4
    rw [hx, ht, hk] at h5
    exact ⟨h1, h2, h3, h4, h5⟩
  · rintro ⟨h1, h2, h3, h4, h5⟩
    rw [← hm] at h1
    rw [← hg] at h2
    rw [← hb, ← ht] at h3
    rw [← hs] at h4
    rw [← hx, ← ht, ← hk] at h5
    exact ⟨h1, h2, h3, h4, h5⟩

/-! ### A zero capture that is not attempted (R29) -/

section
variable {s : State} {b : BridgeNo}

theorem State.attemptZero_withheld (h : (s.bridge b).backlog = 0 ∨ (s.bridge b).state ≠ .stable ∨
    (s.bridge b).run < (s.timing b).hold ∨
    ∀ g : Int, (s.bridge b).gross = some g → (s.timing b).empty * (s.bridgeCal b).interval < g.natAbs) :
    s.attemptZero b = s := by
  refine if_neg (fun ha => ?_)
  simp only [State.zeroAttempted, Bool.and_eq_true, decide_eq_true_eq, beq_iff_eq] at ha
  obtain ⟨⟨⟨⟨hb, _⟩, hs⟩, hr⟩, he⟩ := ha
  rcases h with h | h | h | h
  · omega
  · exact h hs
  · omega
  · unfold State.bridgeEmpty at he
    split at he
    · cases he
    · next g hg => exact absurd (of_decide_eq_true he) (Nat.not_le.mpr (h g hg))

/-- Zero capture and grant decision are the decision alone where no zero capture is attempted, in either order. -/
theorem State.zeroAndGrant_decides (h : s.evaluationCounted.attemptZero b = s.evaluationCounted)
    (k : (s.evaluationCounted.decideGrant b).attemptZero b = s.evaluationCounted.decideGrant b) :
    s.zeroAndGrant b = s.evaluationCounted.decideGrant b := by
  have hx : s.zeroAndGrant b =
      if Config.grantFirst s.evaluations then (s.evaluationCounted.decideGrant b).attemptZero b
      else (s.evaluationCounted.attemptZero b).decideGrant b := rfl
  rw [hx, h, k, ite_self]

end

/-! ### An evaluation without a capture (R21, R108) -/

section
variable (u : State) (b : BridgeNo) (e : Evaluation)

/-- The bridge with the results of its evaluation, before anything follows from them. -/
def State.evaluatedAlone : State := (u.onBridge b (fun x => x.evaluated e)).evaluationCounted

theorem State.evaluatedAlone_bridge : (u.evaluatedAlone b e).bridge b = (u.bridge b).evaluated e :=
  u.onBridge_bridge b (fun x => x.evaluated e)

theorem State.evaluatedAlone_same : SameBut [.bridges, .evaluations] u (u.evaluatedAlone b e) :=
  ((SameBut.refl u _).then (u.onBridge_same b _)).then (State.evaluations_same _ _)

section
variable {u b e}

theorem State.applyEvaluation_withheld (hn : u.NoCrossing b) (hk : (u.bridge b).capture = none)
    (hz : (u.evaluatedAlone b e).attemptZero b = u.evaluatedAlone b e)
    (hg : (u.evaluatedAlone b e).decideGrant b = u.evaluatedAlone b e) :
    u.applyEvaluation b e = u.evaluatedAlone b e := by
  have hzg : (u.onBridge b (fun x => x.evaluated e)).zeroAndGrant b = u.evaluatedAlone b e :=
    (State.zeroAndGrant_decides hz (by
      change ((u.evaluatedAlone b e).decideGrant b).attemptZero b = (u.evaluatedAlone b e).decideGrant b
      rw [hg, hz])).trans hg
  have hc : ((u.evaluatedAlone b e).bridge b).capture = none := by
    rw [State.evaluatedAlone_bridge]
    exact hk
  unfold State.applyEvaluation
  simp only
  rw [hzg, State.testCapture_none hc]
  exact State.testLanes_resting (State.NoCrossing.of_same (u.evaluatedAlone_same b e) hn)

/-- A lane that has just been granted does not enter at the same event: its front mark is not yet at passed. -/
theorem State.testLane_granted {s : State} {l : LaneNo} (hs : (s.lane l).state = .entering)
    (he : (s.lane l).entered = false) (hm : (s.lane l).frontMark ≠ .passed) : s.testLane l = s := by
  have hx : s.entryMet l = false := by simp [State.entryMet, hm]
  simp [State.testLane, hs, he, hx]

/-- The lane chosen is granted at the evaluation, and nothing follows its grant. -/
theorem State.applyEvaluation_grants {l : LaneNo} {f : BarrierNo} (hn : u.NoCrossing b)
    (hk : (u.bridge b).capture = none) (hb : (u.bridge b).backlog = 0) (hp : u.failing = false)
    (hg : (u.evaluatedAlone b e).Grantable b) (hc : (u.grant b).Chooses l) (hl : (u.lane l).state = .awaitBridge)
    (hf : (u.config l).front = some f) :
    u.applyEvaluation b e = (u.evaluatedAlone b e).giveGrant b l := by
  have hsame := u.evaluatedAlone_same b e
  have hbr : ∀ v : State, v.bridge b = (u.evaluatedAlone b e).bridge b → v.attemptZero b = v := fun v hv =>
    State.attemptZero_withheld (.inl (by
      rw [hv, State.evaluatedAlone_bridge]
      exact hb))
  have hzg : (u.onBridge b (fun x => x.evaluated e)).zeroAndGrant b = (u.evaluatedAlone b e).giveGrant b l := by
    rw [← State.decideGrant_given hg hc]
    exact State.zeroAndGrant_decides (hbr _ rfl) (hbr _ (State.decideGrant_bridge _ b b))
  obtain ⟨_, hlane, _, _, hothers, _⟩ := State.giveGrant_entersByGrant (s := u.evaluatedAlone b e) (b := b) hp hl hf
  have hgive := (u.evaluatedAlone b e).giveGrant_same b l
  have hcap : (((u.evaluatedAlone b e).giveGrant b l).bridge b).capture = none := by
    rw [hgive.bridge b, State.evaluatedAlone_bridge]
    exact hk
  unfold State.applyEvaluation
  simp only
  rw [hzg, State.testCapture_none hcap]
  refine forEach_eq_self (fun m hm => ?_)
  by_cases h : m = l
  · subst h
    refine State.testLane_granted ?_ ?_ ?_
    · rw [hlane]
    · rw [hlane]
    · rw [hlane]
      split
      · simp
      · simp
  · refine State.testLane_resting ?_
    rw [hothers m h]
    have hcfg : ∀ m, ((u.evaluatedAlone b e).giveGrant b l).config m = u.config m := fun m =>
      congrArg (fun x => x.lanes.read m) (show _ = u.ret.site from
        Eq.trans (hgive .site (by decide)) (hsame .site (by decide)))
    refine hn m ?_
    simpa [State.listing, hcfg] using hm

end
end

/-- A bridge found STABLE or in MOTION was evaluated with the metrology switch OPEN (R10, R23). -/
theorem State.evaluation_open {u : State} {b : BridgeNo}
    (h : (u.evaluation b).state = .stable ∨ (u.evaluation b).state = .motion) : u.metrology.closed = false := by
  by_contra hc
  have hc : u.metrology.closed = true := by simpa using hc
  have hx : (u.evaluation b).state = .notReady ∨ (u.evaluation b).state = .calibrating := by
    simp only [State.evaluation, BridgeCal.stateOf, hc]
    split
    · exact .inl rfl
    · exact .inr rfl
  rcases hx with hx | hx <;> simp [hx] at h

/-! ### A takeover of the holder (R95, R96, R107) -/

/-- The bridge with its grant given back, before the grant decision. -/
def State.released (s : State) (b : BridgeNo) : State := s.onGrant b (fun g => { g with holder := none })

theorem State.released_grant (s : State) (b : BridgeNo) :
    (s.released b).grant b = { s.grant b with holder := none } := by
  unfold State.released
  rw [State.onGrant_grant]

theorem State.releaseGrant_holder {s : State} {l : LaneNo} {b : BridgeNo} (hb : (s.config l).bridge = some b)
    (hh : (s.grant b).holder = some l) :
    s.releaseGrant l = (s.released b).decideGrant b := by
  simp [State.releaseGrant, hb, hh, State.released]

/-- A change in which a lane stops serving: its capture and its visit go, the bridges keep their results and backlog, and
no other lane changes. -/
structure State.StopsServing (l : LaneNo) (s u : State) : Prop where
  frame   : SameBut [.bridges, .lanes, .visits] s u
  lanes   : ∀ m : LaneNo, m ≠ l → u.lane m = s.lane m
  bridges : ∀ b : BridgeNo, (u.bridge b).results = (s.bridge b).results ∧ (u.bridge b).backlog = (s.bridge b).backlog
  order   : s.ret.visits.order = [] → u.ret.visits.order = []

theorem State.StopsServing.trans {l : LaneNo} {s u v : State} (h : s.StopsServing l u) (k : u.StopsServing l v) :
    s.StopsServing l v :=
  ⟨h.frame.then k.frame, fun m hm => (k.lanes m hm).trans (h.lanes m hm), fun b =>
    ⟨(k.bridges b).1.trans (h.bridges b).1, (k.bridges b).2.trans (h.bridges b).2⟩, fun ho => k.order (h.order ho)⟩

section
variable (s : State) (l : LaneNo)

theorem State.StopsServing.refl : s.StopsServing l s := ⟨.refl s _, fun _ _ => rfl, fun _ => ⟨rfl, rfl⟩, id⟩

theorem State.StopsServing.onLane (f : Lane → Lane) : s.StopsServing l (s.onLane l f) :=
  ⟨(s.onLane_same l f).mono (by decide), fun _ hm => s.onLane_lane_ne f (Ne.symm hm), fun _ => ⟨rfl, rfl⟩, id⟩

theorem State.StopsServing.onVisits (f : VisitStore → VisitStore) (h : ∀ x, x.order = [] → (f x).order = []) :
    s.StopsServing l (s.onVisits f) :=
  ⟨(s.onVisits_same f).mono (by decide), fun _ _ => rfl, fun _ => ⟨rfl, rfl⟩, h _⟩

theorem State.StopsServing.dropCapture (b : BridgeNo) : s.StopsServing l (s.dropCapture b) := by
  refine ⟨(s.onBridge_same b _).mono (by decide), fun _ _ => rfl, fun o => ?_, id⟩
  unfold State.dropCapture
  rw [State.onBridge_bridge_at]
  split
  · exact ⟨rfl, rfl⟩
  · exact ⟨rfl, rfl⟩

theorem State.StopsServing.cancelCaptureOf : s.StopsServing l (s.cancelCaptureOf l .takeover) := by
  unfold State.cancelCaptureOf
  split
  · exact .refl s l
  · next b hb =>
    unfold State.cancelCaptureOn
    split
    · exact .refl s l
    · next c hc =>
      have hl : c.lane = l := by
        have := List.find?_some hb
        simpa [hc] using this
      simp only [if_true, hl]
      exact (StopsServing.dropCapture s l b).trans (StopsServing.onLane _ l _)

theorem State.StopsServing.treatTakenOver (h : s.siteFull = []) (n : Nat) : s.StopsServing l (s.treatTakenOver n) := by
  unfold State.treatTakenOver
  split
  · exact .refl s l
  · split
    · unfold State.removeVisit
      split
      · have hserve : (s.onVisits (fun t => t.without n)).serveFreed = s.onVisits (fun t => t.without n) := by
          have hl : (s.onVisits (fun t => t.without n)).siteFull = [] := h
          simp only [State.serveFreed, hl, State.serveSiteFull, ite_self]
        rw [hserve]
        exact .onVisits s l _ (fun x hx => by simp [VisitStore.without, hx])
      · exact .refl s l
    · exact .onVisits s l _ (fun x hx => hx)

/-- A lane in CAPTURE_FAILED stops its own sequence: both its timers stop. -/
theorem State.stopSequence_captureFailed {s : State} {l : LaneNo} (h : (s.lane l).state = .captureFailed) :
    s.stopSequence l = s.onLane l (fun n => { n with identityTimer := .stopped, entryTimer := .stopped }) := by
  simp [State.stopSequence, h]

/-- The lane's capture cancelled and its visit treated, before its grant is released. -/
def State.servedNoMore (s : State) (l : LaneNo) : State :=
  match (s.lane l).visit with
  | none => s.cancelCaptureOf l .takeover
  | some n => (s.cancelCaptureOf l .takeover).treatTakenOver n

theorem State.StopsServing.servedNoMore (h : s.siteFull = []) : s.StopsServing l (s.servedNoMore l) := by
  have hc := StopsServing.cancelCaptureOf s l
  unfold State.servedNoMore
  split
  · exact hc
  · exact hc.trans (.treatTakenOver _ l ((hc.frame .siteFull (by decide)).trans h) _)

theorem State.enterManual_eq : ∃ r : Report,
    s.enterManual l = (((s.servedNoMore l).releaseGrant l).onLane l Lane.manual).report r := by
  unfold State.enterManual State.servedNoMore
  cases (s.lane l).visit with
  | none => exact ⟨_, rfl⟩
  | some n => exact ⟨_, rfl⟩

end

/-- The lane's timers are stopped, and the state it was taken over from is kept. -/
def State.halted (s : State) (l : LaneNo) : State :=
  (s.onLane l (fun n => { n with identityTimer := .stopped, entryTimer := .stopped })).onLane l
    (fun n => { n with takeoverFrom := some n.state })

theorem State.takeOver_captureFailed {s : State} {l : LaneNo} (hl : (s.lane l).state = .captureFailed)
    (hm : s.laneMoving l = false) : s.takeOver l = (s.halted l).enterManual l := by
  have hn : ¬ ((s.lane l).state = .manual ∨ (s.lane l).state = .takeoverPending) := by simp [hl]
  have hm' : (s.halted l).laneMoving l = false := hm
  unfold State.takeOver
  simp only
  rw [if_neg hn, State.stopSequence_captureFailed hl]
  exact if_neg (by rw [State.halted] at hm'; rw [hm']; simp)

/-- A takeover of a holder in CAPTURE_FAILED: it stops serving, and its grant is released. -/
theorem State.takeOver_holder {s : State} {l : LaneNo} {b : BridgeNo} (hl : (s.lane l).state = .captureFailed)
    (hb : (s.config l).bridge = some b) (hh : (s.grant b).holder = some l) (hm : s.laneMoving l = false)
    (hf : s.siteFull = []) :
    ∃ (u : State) (r : Report), s.StopsServing l u ∧
      s.takeOver l = (((u.released b).decideGrant b).onLane l Lane.manual).report r := by
  have hu := ((StopsServing.onLane s l _).trans (.onLane _ l _)).trans (.servedNoMore (s.halted l) l (by exact hf))
  obtain ⟨r, hr⟩ := State.enterManual_eq (s.halted l) l
  refine ⟨_, r, hu, ?_⟩
  rw [State.takeOver_captureFailed hl hm, hr, State.releaseGrant_holder]
  · rw [State.config, show _ = s.ret.site from hu.frame .site (by decide)]
    exact hb
  · rw [hu.frame.grant b]
    exact hh

theorem actLaneTakeover_accepted {s : State} {x : Byte} {l : LaneNo} (h : ofByte 4 x = some l) (hp : s.failing = false) :
    actLaneTakeover x s = (s.takeOver l).seal.accepted (.laneState ((s.takeOver l).seal.lane l).state) := by
  simp [actLaneTakeover, h, hp]

/-! ### ZERO_WAIVE (R32) -/

/-- The bridge with its backlog waived, before the grant decision. -/
def State.waived (s : State) (b : BridgeNo) : State :=
  s.onBridge b (fun y => { y with backlog := 0, waived := true, limitReported := false, zeroTimer := s.zeroTime b })

theorem State.waived_same (s : State) (b : BridgeNo) : SameBut [.bridges] s (s.waived b) := s.onBridge_same b _

theorem State.waived_grantable {s : State} {b : BridgeNo} :
    (s.hunting.waived b).Grantable b ↔ (s.onBridge b (fun y => { y with backlog := 0 })).Grantable b := by
  have hl : (s.hunting.waived b).bridge b = { s.bridge b with
      backlog := 0, waived := true, limitReported := false, zeroTimer := s.zeroTime b } :=
    State.onBridge_bridge _ b _
  have hr : (s.onBridge b (fun y => { y with backlog := 0 })).bridge b = { s.bridge b with backlog := 0 } :=
    State.onBridge_bridge _ b _
  refine State.Grantable.congr rfl rfl ?_ ?_ ?_ rfl rfl
  · rw [hl, hr]
  · rw [hl, hr]
  · rw [hl, hr]

theorem actZeroWaive_waives {s : State} {x : Byte} {b : BridgeNo} (h : ofByte 4 x = some b) :
    actZeroWaive x s =
      ((s.waived b).decideGrant b).accepted (.zeroWaived (s.bridge b).zb (s.bridgeCal b).z0 (s.bridge b).backlog) :=
  actZeroWaive_accepted h

end Sys2Proof.Machine

open Sys2Proof Sys2Proof.Machine

/-- Settles O50: at each of the three events the decision is made on a state that the event leaves alone but for the
backlog, the results or the holder. -/
theorem grantDecisions : Obligations.GrantDecisions := by
  unfold Obligations.GrantDecisions
  refine ⟨fun x b s w hs hb hw => ?waive, fun c counts d b e s u hu he hn hk hp => ?evaluation,
    fun x l m b f s w hs hb hp hl hlb hh hmv hsf hwait hml hm hf hw => ?takeover⟩
  case waive =>
    obtain ⟨t, hx, _, rfl⟩ := State.receive_taken hs (r := .zeroWaive x) (by simp)
      (actZeroWaive_waives (s := s.hunting) hb)
    have hgr : (s.hunting.waived b).Grantable b ↔ w.Grantable b := by
      rw [hw]
      exact State.waived_grantable
    refine ⟨fun l f hg hc hl hf => ⟨_, hx, fun hp => ⟨?_, State.bridgeThenGrant_same s b _ _⟩, fun hp => ?_⟩,
      fun h => ⟨_, hx, ?_⟩⟩
    · rw [State.decideGrant_given (hgr.mpr hg) (by exact hc)]
      have hend := fun r => (((s.hunting.waived b).giveGrant b l).setReply_same r).transmit
      exact (State.giveGrant_entersByGrant (s := s.hunting.waived b) hp hl hf).of_same rfl rfl rfl rfl
        (hend _ .lanes (by decide)) (hend _ .barriers (by decide)) (hend _ .grants (by decide))
    · rw [State.decideGrant_given (hgr.mpr hg) (by exact hc), State.giveGrant_failing (by exact hp)]
      refine ⟨?_, fun o ho => ?_, State.taken_same (ps := [.bridges, .grants])
        (((State.waived_same _ b).mono (by decide)).then (State.onGrant_same _ b _)) _⟩
      · rw [State.transmit_grant, (State.setReply_same _ _).grant b, State.onGrant_grant]
        rfl
      · rw [State.transmit_grant, (State.setReply_same _ _).grant o, State.onGrant_grant_ne _ _ (Ne.symm ho)]
        rfl
    · rw [State.decideGrant_withheld (s := s.hunting.waived b) (h.imp_left (fun h k => h (hgr.mp k)))]
      exact State.taken_same (State.waived_same _ b) _
  case evaluation =>
    have hua : u = s.valued c d counts.toInt .ok := hu.arrived
    have hus : SameBut [.channels, .decks] s u := hua ▸ State.valued_same _ _
    have hx : exec (.sampleArrival c counts .ok) s = .next ((u.applyEvaluation b e).seal).transmit := by
      rw [exec_leadArrival hu.powered hu.deck hu.lead, State.sampleTaken_quiet (.inl (by decide)), he, hua]
      rw [State.evaluateDeck_some (by exact hu.bridge)]
      rfl
    have hnu : u.NoCrossing b := State.NoCrossing.of_same hus hn
    have hku : (u.bridge b).capture = none := by rw [hus.bridge b, hk]
    have hpu : u.failing = false := by rw [State.failing, show _ = s.powerFail from hus .powerFail (by decide)]; exact hp
    have hsame := u.evaluatedAlone_same b e
    refine ⟨fun hur hst => ⟨_, hx, ?_⟩, fun l f g hb0 hu0 hh hst hg hle hc hl hf => ⟨_, hx, ?_⟩⟩
    · have hz : (u.evaluatedAlone b e).attemptZero b = u.evaluatedAlone b e := by
        refine State.attemptZero_withheld (.inr ?_)
        rw [State.evaluatedAlone_bridge, hsame.timing b, hsame.bridgeCal b, hus.timing b, hus.bridgeCal b]
        exact hst
      have hg : ¬ (u.evaluatedAlone b e).Grantable b := by
        rintro ⟨-, -, h, -, -⟩
        rw [State.evaluatedAlone_bridge, hsame.timing b, hus.timing b] at h
        have hback : (u.bridge b).backlog = (s.bridge b).backlog := congrArg Bridge.backlog (hus.bridge b)
        exact absurd (hback ▸ h) (Nat.not_lt.mpr hur)
      rw [State.applyEvaluation_withheld hnu hku hz (State.decideGrant_withheld (.inl hg))]
      exact (((hus.mono (by decide)).then hsame).then (State.seal_same _)).transmit
    · have hopen : u.metrology.closed = false := State.evaluation_open (b := b) (he ▸ hst)
      have hback : (u.bridge b).backlog = 0 := by rw [hus.bridge b, hb0]
      have hg' : (u.evaluatedAlone b e).Grantable b := by
        refine ⟨hopen, (congrArg Grant.holder (hus.grant b)).trans hh, ?_, ?_, g, ?_, ?_⟩
        · rw [State.evaluatedAlone_bridge, hsame.timing b, hus.timing b]
          exact hback ▸ hu0
        · rw [State.evaluatedAlone_bridge]
          exact hst
        · rw [State.evaluatedAlone_bridge]
          exact hg
        · rw [hsame.timing b, hsame.bridgeCal b, hus.timing b, hus.bridgeCal b]
          exact hle
      have hl' : (u.lane l).state = .awaitBridge := by rw [hus.lane l, hl]
      have hf' : (u.config l).front = some f := by
        rw [State.config, show _ = s.ret.site from hus .site (by decide)]
        exact hf
      rw [State.applyEvaluation_grants hnu hku hback hpu hg' (by rw [hus.grant b]; exact hc) hl' hf']
      have hend := ((State.seal_same ((u.evaluatedAlone b e).giveGrant b l)).transmit)
      refine ⟨?_, ?_⟩
      · exact (State.giveGrant_entersByGrant (by exact hpu) (by exact hl') (by exact hf')).of_same
          ((hus .lanes (by decide)).symm.trans (hsame .lanes (by decide)).symm)
          ((hus .barriers (by decide)).symm.trans (hsame .barriers (by decide)).symm)
          ((hus .grants (by decide)).symm.trans (hsame .grants (by decide)).symm)
          (congrArg SiteSettings.timers ((hus .site (by decide)).symm.trans (hsame .site (by decide)).symm))
          (hend .lanes (by decide)) (hend .barriers (by decide)) (hend .grants (by decide))
      · exact ((((hus.mono (by decide)).then hsame).then (State.giveGrant_same _ b l)).then (State.seal_same _)).transmit
  case takeover =>
    obtain ⟨t, hx, _, rfl⟩ := State.receive_taken hs (r := .laneTakeover x) (by simp)
      (actLaneTakeover_accepted (s := s.hunting) hb hp)
    obtain ⟨u, r, hstop, htake⟩ := State.takeOver_holder (s := s.hunting) hl hlb hh hmv hsf
    have hend := fun r => (((s.hunting.takeOver l).seal_same.mono (by decide)).then
      (State.setReply_same (s.hunting.takeOver l).seal r) (ps := [.checkWord, .reply])).transmit
    have hsame := hstop.frame
    have hgr : (u.released b).Grantable b ↔ w.Grantable b := by
      rw [hw]
      refine State.Grantable.congr (congrArg Metrology.closed (hsame .metrology (by decide))) ?_
        (hstop.bridges b).2 (congrArg Evaluation.state (hstop.bridges b).1)
        (congrArg Evaluation.gross (hstop.bridges b).1) (hsame.timing b) (hsame.bridgeCal b)
      rw [State.released_grant, State.onGrant_grant]
    have hold : (u.released b).grant b = { s.grant b with holder := none } := by
      rw [State.released_grant, hsame.grant b]
      rfl
    refine ⟨_, hx, ?_, fun hg => ?_, fun hg => ?_⟩
    · rw [(hend _).lane l, htake]
      simp [Lane.manual]
    · obtain ⟨hgrant, hlane, hbar, hbars, _, _⟩ := State.giveGrant_entersByGrant (b := b) (s := u.released b) (l := m)
        (f := f) ((congrArg PowerFail.asserted (hsame .powerFail (by decide))).trans hp)
        ((congrArg Lane.state (hstop.lanes m hml)).trans hm)
        ((congrArg (fun x => (x.lanes.read m).front) (hsame .site (by decide))).trans hf)
      rw [State.decideGrant_given (hgr.mpr hg) (l := m) (.inl (by rw [hold]; exact hwait))] at htake
      have hold' : ∀ o, (u.released b).barrier o = s.barrier o := fun o =>
        congrArg (fun x => x.read o) (hsame .barriers (by decide))
      have htime : (u.released b).motionTime = s.motionTime :=
        congrArg (fun x => x.timers.motion * 1000) (hsame .site (by decide))
      refine ⟨?_, ?_, ?_, ?_, fun o ho => ?_⟩
      · rw [(hend _).grant b, htake, (State.report_same _ _).grant b, (State.onLane_same _ _ _).grant b, hgrant, hold, hwait]
        simp
      · rw [(hend _).lane m, htake, (State.report_same _ _).lane m, State.onLane_lane_ne _ _ (Ne.symm hml), hlane]
      · rw [(hend _).lane m, htake, (State.report_same _ _).lane m, State.onLane_lane_ne _ _ (Ne.symm hml), hlane]
      · rw [(hend _).barrier f, htake, (State.report_same _ _).barrier f, (State.onLane_same _ _ _).barrier f, hbar, hold', htime]
      · rw [(hend _).barrier o, htake, (State.report_same _ _).barrier o, (State.onLane_same _ _ _).barrier o, hbars o ho, hold']
    · rw [State.decideGrant_withheld (s := u.released b) (.inl (fun k => hg (hgr.mp k)))] at htake
      refine ⟨?_, ?_, ?_⟩
      · rw [(hend _).grant b, htake, (State.report_same _ _).grant b, (State.onLane_same _ _ _).grant b, hold]
      · rw [(hend _).lane m, htake, (State.report_same _ _).lane m, State.onLane_lane_ne _ _ (Ne.symm hml)]
        exact hstop.lanes m hml
      · rw [show _ = _ from hend _ .barriers (by decide), htake]
        exact hsame .barriers (by decide)

end

-- ==== Proofs of family 01: bytes of the two lines ====
section
/-! What the receivers of the host line and of the load-cell lines make of their bytes (O19). -/

namespace Sys2Proof.Machine

/-! ### The transmitter and the receivers -/

/-- The host line's receiver takes a state. -/
def State.hearing (s : State) (r : HostReceiver) : State := s.onLink (fun k => { k with receiver := r })

theorem Link.choose_hearing (k : Link) (r : HostReceiver) :
    ({ k with receiver := r } : Link).choose = { k.choose with receiver := r } := by
  unfold Link.choose
  dsimp only
  repeat' split
  all_goals rfl

theorem State.transmit_hearing (s : State) (r : HostReceiver) : (s.hearing r).transmit = s.transmit.hearing r := by
  have h : (s.hearing r).link.sending = s.link.sending := rfl
  unfold State.transmit
  rw [h]
  split
  · exact congrArg (fun k => { s with link := k }) (Link.choose_hearing s.link r)
  · rfl

/-- A transmitter that finds nothing to send stays as it was. -/
theorem Link.choose_idle {k : Link} (h : k.sending = none) (hc : k.choose.sending = none) : k.choose = k := by
  unfold Link.choose at hc ⊢
  repeat' split at hc
  all_goals
    cases k
    simp_all

/-- The transmitter chooses once: what it left idle stays idle. -/
theorem State.transmit_transmit (s : State) : s.transmit.transmit = s.transmit := by
  by_cases h : s.link.sending = none
  · have ht : s.transmit = s.onLink Link.choose := by simp [State.transmit, h]
    by_cases hc : s.link.choose.sending = none
    · have hs : s.transmit = s := ht.trans (congrArg (fun k => { s with link := k }) (Link.choose_idle h hc))
      rw [hs, hs]
    · have hx : (s.onLink Link.choose).link.sending.isNone = false := by
        rw [State.onLink_link]
        simpa [Option.isNone_eq_false_iff, Option.isSome_iff_ne_none] using hc
      rw [ht]
      exact if_neg (by rw [hx]; exact Bool.false_ne_true)
  · have hs : s.transmit = s := if_neg (by simpa using h)
    rw [hs, hs]

/-- Where no frame waits unsent, the end of an event changes nothing. -/
theorem State.transmit_settled {s : State} (h : s.SendsWaiting) : s.transmit = s := by
  by_cases hs : s.link.sending = none
  · obtain ⟨hc, hb, hq, hr⟩ := h hs
    have hidle : s.link.choose = s.link := by
      refine Link.choose_idle hs ?_
      have hf : allFour.findSome? (fun l => s.link.queries.read l) = none := by simp [hq]
      simp [Link.choose, hc, hb, hf, hr]
    have ht : s.transmit = s.onLink Link.choose := by simp [State.transmit, hs]
    exact ht.trans (congrArg (fun k => { s with link := k }) hidle)
  · exact if_neg (by simpa using hs)

/-- A change of the receiver alone that puts the receiver back changes nothing. -/
theorem State.heard_same {s t : State} (h : SameBut [.receiver] s t) (hr : t.link.receiver = s.link.receiver) :
    SameBut [] s t := by
  intro p _
  by_cases hp : p = .receiver
  · subst hp
    exact hr
  · exact h p (by simpa using hp)

theorem State.hearing_same (s : State) (r : HostReceiver) : SameBut [.receiver] s (s.hearing r) := by
  intro p hp
  cases p <;> simp [Part.same, State.voiced, State.hearing] at hp ⊢

/-! ### Bytes of the host line (R186, R187) -/

section
variable {s : State}

theorem exec_hostByte (h : s.powered = true) (b : Byte) (e : Bool) :
    exec (.hostLinkByteReceived b e) s = .next (s.hostByte b e).transmit :=
  State.run_powered h (fun s => s.hostByte b e)

theorem exec_hostFrameReceived (h : s.powered = true) (kind : Byte) {payload : List Byte} (hl : payload.length ≤ 1023) :
    exec (.hostFrameReceived kind payload) s = .next (s.frameArrives (readFrame kind payload)).transmit := by
  have hx : exec (.hostFrameReceived kind payload) s = s.run (fun s =>
    if payload.length ≤ 1023 then s.frameArrives (readFrame kind payload)
    else s.onLink (fun k => { k with receiver := .hunting })) := rfl
  rw [hx, State.run_powered h, if_pos hl]

theorem exec_hostFrameGapTimeout (h : s.powered = true) :
    exec .hostFrameGapTimeout s = .next (s.hearing .hunting).transmit :=
  State.run_powered h (fun s => s.hearing .hunting)

theorem State.hostByte_start (h : s.link.receiver = .hunting) : s.hostByte 0x5A false = s.hearing (.collecting []) := by
  simp [State.hostByte, h, State.hearing]

theorem State.hostByte_passed (h : s.link.receiver = .hunting) {b : Byte} {e : Bool} (hb : b ≠ 0x5A ∨ e = true) :
    s.hostByte b e = s := by
  have hn : ¬ (b = 0x5A ∧ e = false) := by
    rintro ⟨rfl, rfl⟩
    simp at hb
  simp only [State.hostByte, h, if_neg hn]

theorem State.hostByte_broken {bytes : List Byte} (h : s.link.receiver = .collecting bytes) (b : Byte) :
    s.hostByte b true = s.hearing .hunting := by
  simp [State.hostByte, h, State.hearing]

theorem State.hostByte_collected {bytes : List Byte} (h : s.link.receiver = .collecting bytes) (b : Byte) :
    s.hostByte b false = s.collectByte (bytes ++ [b]) := by
  simp [State.hostByte, h]

/-! ### What a collecting receiver does with its bytes -/

theorem State.collectByte_first (a : Byte) : s.collectByte [a] = s.hearing (.collecting [a]) := rfl

theorem State.collectByte_badLength {a b : Byte} (h : (halfOf a b).toNat < 1 ∨ 1024 < (halfOf a b).toNat) (xs : List Byte) :
    s.collectByte (a :: b :: xs) = s.hearing .hunting := by
  simp only [State.collectByte, collectedLength, if_pos h]
  rfl

theorem State.collectByte_partial {a b : Byte} (h : 1 ≤ (halfOf a b).toNat) (h' : (halfOf a b).toNat ≤ 1024)
    {xs : List Byte} (hx : xs.length < (halfOf a b).toNat + 2) :
    s.collectByte (a :: b :: xs) = s.hearing (.collecting (a :: b :: xs)) := by
  have hn : ¬ ((halfOf a b).toNat < 1 ∨ 1024 < (halfOf a b).toNat) := by omega
  have hl : (a :: b :: xs).length < (halfOf a b).toNat + 4 := by
    simp only [List.length_cons]
    omega
  simp only [State.collectByte, collectedLength, if_neg hn, if_pos hl]
  rfl

theorem State.collectByte_whole {a b : Byte} (h : 1 ≤ (halfOf a b).toNat) (h' : (halfOf a b).toNat ≤ 1024)
    {xs : List Byte} (hx : xs.length = (halfOf a b).toNat + 2) :
    s.collectByte (a :: b :: xs) = s.judgeFrame (a :: b :: xs) (halfOf a b).toNat := by
  have hn : ¬ ((halfOf a b).toNat < 1 ∨ 1024 < (halfOf a b).toNat) := by omega
  have hl : ¬ (a :: b :: xs).length < (halfOf a b).toNat + 4 := by
    simp only [List.length_cons]
    omega
  simp only [State.collectByte, collectedLength, if_neg hn, if_neg hl]

/-- A whole frame is judged by its CRC (R187). -/
theorem State.judgeFrame_eq (a b kind hi lo : Byte) (payload : List Byte) {n : Nat} (hn : n = payload.length + 1) :
    s.judgeFrame (a :: b :: kind :: payload ++ [hi, lo]) n =
      if crcOf (a :: b :: kind :: payload) = halfOf hi lo then s.frameArrives (readFrame kind payload)
      else s.hearing .hunting := by
  subst hn
  have hd : (a :: b :: kind :: payload ++ [hi, lo]).drop (2 + (payload.length + 1)) = [hi, lo] :=
    List.drop_left' (by simp; omega)
  have ht : (a :: b :: kind :: payload ++ [hi, lo]).take (2 + (payload.length + 1)) = a :: b :: kind :: payload :=
    List.take_left' (by simp; omega)
  have hp : (payload ++ [hi, lo]).take (payload.length + 1 - 1) = payload := List.take_left' (by simp)
  unfold State.judgeFrame
  simp only [hd, ht]
  simp only [List.cons_append, List.drop_succ_cons, List.drop_zero, hp]
  rfl

end

/-! ### A frame byte by byte -/

/-- The bytes of the host line, each without a framing error. -/
def hostBytes (bytes : List Byte) (s : State) : Result := runBytes (fun b => .hostLinkByteReceived b false) bytes s

section
variable {s : State}

theorem hostBytes_cons (h : s.powered = true) (b : Byte) (bytes : List Byte) :
    hostBytes (b :: bytes) s = hostBytes bytes (s.hostByte b false).transmit := by
  unfold hostBytes
  rw [runBytes, exec_hostByte h]

/-- A byte that a collecting receiver takes while the transmitter has chosen. -/
theorem hostBytes_collect (h : s.powered = true) (ht : s.transmit = s) {old new : List Byte} {b : Byte}
    (hc : ∀ u : State, u.collectByte (old ++ [b]) = u.hearing (.collecting new)) (bytes : List Byte) :
    hostBytes (b :: bytes) (s.hearing (.collecting old)) = hostBytes bytes (s.hearing (.collecting new)) := by
  rw [hostBytes_cons (by exact h), State.hostByte_collected rfl, hc]
  have hx : ((s.hearing (.collecting old)).hearing (.collecting new)) = s.hearing (.collecting new) := rfl
  rw [hx, State.transmit_hearing, ht]

/-- The last byte of a frame, or the byte that breaks it off. -/
theorem hostBytes_last (h : s.powered = true) (old : List Byte) (b : Byte) :
    hostBytes [b] (s.hearing (.collecting old)) =
      .next ((s.hearing (.collecting old)).collectByte (old ++ [b])).transmit := by
  rw [hostBytes_cons (by exact h), State.hostByte_collected rfl]
  rfl

/-- The bytes of a frame after its length field, while the frame is not complete. -/
theorem hostBytes_middle (h : s.powered = true) (ht : s.transmit = s) {a b : Byte} (hlo : 1 ≤ (halfOf a b).toNat)
    (hhi : (halfOf a b).toNat ≤ 1024) (old new rest : List Byte)
    (hn : old.length + new.length < (halfOf a b).toNat + 2) :
    hostBytes (new ++ rest) (s.hearing (.collecting (a :: b :: old))) =
      hostBytes rest (s.hearing (.collecting (a :: b :: (old ++ new)))) := by
  induction new generalizing old with
  | nil => rw [List.append_nil, List.nil_append]
  | cons x xs ih =>
    rw [List.length_cons] at hn
    have hx : (old ++ [x]).length < (halfOf a b).toNat + 2 := by
      rw [List.length_append, List.length_singleton]
      omega
    rw [List.cons_append, hostBytes_collect h ht (fun u => State.collectByte_partial hlo hhi hx), ih (old ++ [x])]
    · rw [List.append_assoc, List.singleton_append]
    · rw [List.length_append, List.length_singleton]
      omega

/-- The start byte and the first byte of the length field, at whatever state of the transmitter. -/
theorem hostBytes_start (h : s.powered = true) (hr : s.link.receiver = .hunting) (a : Byte) (bytes : List Byte) :
    hostBytes (0x5A :: a :: bytes) s = hostBytes bytes (s.transmit.hearing (.collecting [a])) := by
  have hp : s.transmit.powered = true := by rw [s.transmit_same .powered]; exact h
  rw [hostBytes_cons h, State.hostByte_start hr, State.transmit_hearing]
  exact hostBytes_collect hp s.transmit_transmit (old := []) (fun u => u.collectByte_first a) bytes

/-- A length field out of range breaks the frame off (R186). -/
theorem hostBytes_badLength (h : s.powered = true) (hr : s.link.receiver = .hunting) {a b : Byte}
    (hn : (halfOf a b).toNat < 1 ∨ 1024 < (halfOf a b).toNat) :
    hostBytes [0x5A, a, b] s = .next (s.transmit.hearing .hunting) := by
  have hp : s.transmit.powered = true := by rw [s.transmit_same .powered]; exact h
  rw [hostBytes_start h hr, hostBytes_last hp]
  have hc : (s.transmit.hearing (.collecting [a])).collectByte ([a] ++ [b]) =
      (s.transmit.hearing (.collecting [a])).hearing .hunting := State.collectByte_badLength hn []
  rw [hc, State.transmit_hearing, State.transmit_hearing, State.transmit_transmit]
  rfl

/-- The bytes of a whole frame: its CRC judges it (R187). -/
theorem hostBytes_frame (h : s.powered = true) (hr : s.link.receiver = .hunting) {a b : Byte} (kind : Byte)
    {payload : List Byte} (hn : (halfOf a b).toNat = payload.length + 1) (hl : payload.length ≤ 1023) (hi lo : Byte) :
    hostBytes (0x5A :: a :: b :: kind :: payload ++ [hi, lo]) s =
      .next (if crcOf (a :: b :: kind :: payload) = halfOf hi lo then s.transmit.frameArrives (readFrame kind payload)
        else s.transmit.hearing .hunting).transmit := by
  have hp : s.transmit.powered = true := by rw [s.transmit_same .powered]; exact h
  have hlo : 1 ≤ (halfOf a b).toNat := by omega
  have hhi : (halfOf a b).toNat ≤ 1024 := by omega
  have hbytes : 0x5A :: a :: b :: kind :: payload ++ [hi, lo] = 0x5A :: a :: b :: ((kind :: payload ++ [hi]) ++ [lo]) := by
    simp
  have hlen : (kind :: payload ++ [hi]).length = payload.length + 2 := by simp
  have hwhole : ∀ u : State, u.collectByte (a :: b :: (kind :: payload ++ [hi]) ++ [lo]) =
      u.judgeFrame (a :: b :: kind :: payload ++ [hi, lo]) (halfOf a b).toNat := fun u => by
    have := State.collectByte_whole (s := u) hlo hhi (xs := kind :: payload ++ [hi, lo]) (by simp; omega)
    simpa using this
  rw [hbytes, hostBytes_start h hr, hostBytes_collect hp s.transmit_transmit (old := [a])
    (fun u => State.collectByte_partial (xs := []) hlo hhi (by simp)), hostBytes_middle hp s.transmit_transmit hlo hhi
    [] (kind :: payload ++ [hi]) [lo] (by rw [hlen]; simp; omega), hostBytes_last hp, List.nil_append, hwhole,
    State.judgeFrame_eq _ _ _ _ _ _ hn]
  rfl

end

/-! ### The bytes of a frame (R186) -/

theorem halfOf_halfBytes (h : Half) : halfOf (h.extractLsb' 8 8) (h.extractLsb' 0 8) = h := by
  exact BitVec.extractLsb'_append_extractLsb'

theorem frameBytes_eq (kind : Byte) {payload : List Byte} (hl : payload.length ≤ 1023) :
    ∃ a b hi lo : Byte, (halfOf a b).toNat = payload.length + 1 ∧
      halfOf hi lo = crcOf (a :: b :: kind :: payload) ∧
      frameBytes kind payload = 0x5A :: a :: b :: kind :: payload ++ [hi, lo] := by
  refine ⟨_, _, _, _, ?_, halfOf_halfBytes _, rfl⟩
  rw [halfOf_halfBytes, BitVec.toNat_ofNat]
  omega

/-! ### Bytes of a load-cell line (R1, R2) -/

section
variable {s : State} {c : ChannelNo}

theorem exec_cellByte (h : s.powered = true) (c : ChannelNo) (b : Byte) (e : Bool) :
    exec (.loadCellByteReceived c b e) s = .next (s.cellByte c b e).transmit :=
  State.run_powered h (fun s => s.cellByte c b e)

theorem State.setReceiver_channel (s : State) (c : ChannelNo) (r : CellReceiver) :
    (s.setReceiver c r).channel c = { s.channel c with receiver := r } := s.onChannel_channel c _

theorem State.setReceiver_others (s : State) {c o : ChannelNo} (h : o ≠ c) (r : CellReceiver) :
    (s.setReceiver c r).channel o = s.channel o := s.onChannel_channel_ne _ (Ne.symm h)

theorem State.onChannel_onChannel (s : State) (c : ChannelNo) (f g : Channel → Channel) :
    (s.onChannel c f).onChannel c g = s.onChannel c (fun x => g (f x)) := by
  simp [State.onChannel, State.channel, Table.write_write]

theorem Table.write_self {n : Nat} {α : Type} (t : Table n α) (i : Fin n) : t.write i (t.read i) = t := by
  apply Table.ext_read
  intro j
  by_cases h : i = j
  · subst h
    simp
  · simp

theorem State.onChannel_eq_self {f : Channel → Channel} (h : f (s.channel c) = s.channel c) : s.onChannel c f = s := by
  unfold State.onChannel
  rw [h, State.channel, Table.write_self]

theorem State.setReceiver_setReceiver (s : State) (c : ChannelNo) (r q : CellReceiver) :
    (s.setReceiver c r).setReceiver c q = s.setReceiver c q := s.onChannel_onChannel c _ _

theorem State.setReceiver_self {r : CellReceiver} (h : (s.channel c).receiver = r) : s.setReceiver c r = s :=
  State.onChannel_eq_self (by rw [← h])

theorem State.transmit_setReceiver (s : State) (c : ChannelNo) (r : CellReceiver) :
    (s.setReceiver c r).transmit = s.transmit.setReceiver c r := by
  have h : (s.setReceiver c r).link.sending = s.link.sending := rfl
  unfold State.transmit
  rw [h]
  split
  · rfl
  · rfl

theorem State.cellByte_start (h : (s.channel c).receiver = .hunting) :
    s.cellByte c 0xF5 false = s.setReceiver c (.collecting []) := by
  simp [State.cellByte, h]

theorem State.cellByte_broken {bytes : List Byte} (h : (s.channel c).receiver = .collecting bytes) (b : Byte) :
    s.cellByte c b true = s.setReceiver c .hunting := by
  simp [State.cellByte, h]

theorem State.cellByte_collected {bytes : List Byte} (h : (s.channel c).receiver = .collecting bytes) (b : Byte) :
    s.cellByte c b false = s.collectCell c (bytes ++ [b]) := by
  simp [State.cellByte, h]

theorem State.collectCell_partial {bytes : List Byte} (h : bytes.length < 5) :
    s.collectCell c bytes = s.setReceiver c (.collecting bytes) := if_pos h

theorem State.collectCell_sample {bytes : List Byte} (h : ¬ bytes.length < 5) {n : Int} {st : SampleStatus}
    (hf : cellFrame bytes = some (n, st)) : s.collectCell c bytes = (s.setReceiver c .hunting).sampleArrives c n st := by
  simp only [State.collectCell, if_neg h, hf]

theorem State.collectCell_discarded {bytes : List Byte} (h : ¬ bytes.length < 5) (hf : cellFrame bytes = none) :
    s.collectCell c bytes = s.setReceiver c .hunting := by
  simp only [State.collectCell, if_neg h, hf]

/-- The bytes of a load-cell line, each without a framing error. -/
def cellBytes (c : ChannelNo) (bytes : List Byte) (s : State) : Result :=
  runBytes (fun b => .loadCellByteReceived c b false) bytes s

theorem cellBytes_cons (h : s.powered = true) (b : Byte) (bytes : List Byte) :
    cellBytes c (b :: bytes) s = cellBytes c bytes (s.cellByte c b false).transmit := by
  unfold cellBytes
  rw [runBytes, exec_cellByte h]

/-- A byte that does not complete the frame. -/
theorem cellBytes_collect (h : s.powered = true) (ht : s.transmit = s) {old : List Byte} (hl : old.length < 4) (b : Byte)
    (bytes : List Byte) :
    cellBytes c (b :: bytes) (s.setReceiver c (.collecting old)) =
      cellBytes c bytes (s.setReceiver c (.collecting (old ++ [b]))) := by
  have hr : ((s.setReceiver c (.collecting old)).channel c).receiver = .collecting old := by
    rw [State.setReceiver_channel]
  rw [cellBytes_cons (by exact h), State.cellByte_collected hr, State.collectCell_partial (by simp; omega),
    State.setReceiver_setReceiver, State.transmit_setReceiver, ht]

/-- The six bytes of a frame: its five after the start byte are judged as one. -/
theorem cellBytes_frame (h : s.powered = true) (ht : s.transmit = s) (hr : (s.channel c).receiver = .hunting)
    (x y z st check : Byte) :
    cellBytes c [0xF5, x, y, z, st, check] s =
      .next (((s.setReceiver c (.collecting [x, y, z, st])).collectCell c [x, y, z, st, check]).transmit) := by
  have hc : ((s.setReceiver c (.collecting [x, y, z, st])).channel c).receiver = .collecting [x, y, z, st] := by
    rw [State.setReceiver_channel]
  rw [cellBytes_cons h, State.cellByte_start hr, State.transmit_setReceiver, ht, cellBytes_collect h ht (by simp),
    cellBytes_collect h ht (by simp), cellBytes_collect h ht (by simp), cellBytes_collect h ht (by simp),
    cellBytes_cons (by exact h), List.nil_append, State.cellByte_collected (by exact hc)]
  rfl

/-- A whole frame that R2 accepts is its sample's arrival. -/
theorem cellBytes_sample (h : s.powered = true) (ht : s.transmit = s) (hr : (s.channel c).receiver = .hunting)
    (x y z : Byte) {st : Byte} {status : SampleStatus} (hst : sampleStatusOf st = some status) :
    cellBytes c [0xF5, x, y, z, st, x + y + z + st] s = exec (.sampleArrival c (x ++ y ++ z) status) s := by
  have hf : cellFrame [x, y, z, st, x + y + z + st] = some ((x ++ y ++ z : BitVec 24).toInt, status) := by
    simp [cellFrame, hst]
  rw [cellBytes_frame h ht hr, State.collectCell_sample (by simp) hf, State.setReceiver_setReceiver,
    State.setReceiver_self hr, exec_sampleArrival h]

/-- A whole frame that R2 rejects changes nothing. -/
theorem cellBytes_discarded (h : s.powered = true) (ht : s.transmit = s) (hr : (s.channel c).receiver = .hunting)
    {x y z st check : Byte} (hn : check ≠ x + y + z + st ∨ sampleStatusOf st = none) :
    cellBytes c [0xF5, x, y, z, st, check] s = .next s := by
  have hf : cellFrame [x, y, z, st, check] = none := by
    rcases hn with hn | hn
    · simp [cellFrame, Ne.symm hn]
    · simp [cellFrame, hn]
  rw [cellBytes_frame h ht hr, State.collectCell_discarded (by simp) hf, State.setReceiver_setReceiver,
    State.setReceiver_self hr, ht]

/-- What one byte leaves that only the line's receiver takes. -/
theorem State.setReceiver_transmitted (s : State) (c : ChannelNo) (r : CellReceiver) :
    (s.setReceiver c r).transmit.channel c = { s.channel c with receiver := r } ∧
      (∀ o : ChannelNo, o ≠ c → (s.setReceiver c r).transmit.channel o = s.channel o) ∧
      SameBut [.channels] s (s.setReceiver c r).transmit := by
  refine ⟨?_, fun o ho => ?_, (s.onChannel_same c _).transmit⟩
  · rw [State.transmit_channel, State.setReceiver_channel]
  · rw [State.transmit_channel, State.setReceiver_others _ ho]

end

/-! ### A frame that comes to nothing -/

/-- A frame that ends with the receiver hunting and nothing else done changes nothing. -/
theorem State.hunting_again {s : State} (h : s.link.receiver = .hunting) : SameBut [] s (s.transmit.hearing .hunting) :=
  State.heard_same ((SameBut.refl s _).transmit.then (State.hearing_same _ _)) h.symm

end Sys2Proof.Machine

open Sys2Proof Sys2Proof.Machine

/-- Settles O19: while a frame is collected the transmitter has nothing left to choose, so its bytes act as one. -/
theorem lineBytesMakeFrames : Obligations.LineBytesMakeFrames := by
  unfold Obligations.LineBytesMakeFrames
  refine ⟨fun kind payload s hp hq hr hl => ?frame, ⟨fun b s bytes hp hr => ?broken, fun b e s hp hr hb => ?passed,
    fun s hp hr => ?start, fun s hp => ?gap⟩, ⟨fun c x y z s hp hq hr => ⟨fun st status hst => ?sample,
    fun st check hn => ?discarded⟩, fun c s hp hr => ?cellStart, fun c b bytes s hp hr => ⟨fun hl => ?cellByte,
    ?cellBroken⟩⟩, fun body a b hi lo s hp hr hlen hlo hhi hcrc => ?crc, fun a b s hp hr hn => ?length⟩
  case frame =>
    obtain ⟨a, b, hi, lo, hn, hcrc, hbytes⟩ := frameBytes_eq kind hl
    rw [hbytes]
    refine (hostBytes_frame hp hr kind hn hl hi lo).trans ?_
    rw [if_pos hcrc.symm, State.transmit_settled hq, exec_hostFrameReceived hp kind hl]
  case broken =>
    rw [exec_hostByte hp, State.hostByte_broken hr]
    exact ⟨_, rfl, (State.transmit_kept _).1, (s.hearing_same .hunting).transmit⟩
  case passed =>
    rw [exec_hostByte hp, State.hostByte_passed hr hb]
    exact ⟨_, rfl, (SameBut.refl s _).transmit⟩
  case start =>
    rw [exec_hostByte hp, State.hostByte_start hr]
    exact ⟨_, rfl, (State.transmit_kept _).1, (s.hearing_same _).transmit⟩
  case gap =>
    rw [exec_hostFrameGapTimeout hp]
    exact ⟨_, rfl, (State.transmit_kept _).1, (s.hearing_same .hunting).transmit⟩
  case sample => exact cellBytes_sample hp (State.transmit_settled hq) hr x y z hst
  case discarded => exact ⟨s, cellBytes_discarded hp (State.transmit_settled hq) hr hn, .refl s _⟩
  case cellStart =>
    rw [exec_cellByte hp, State.cellByte_start hr]
    exact ⟨_, rfl, s.setReceiver_transmitted c _⟩
  case cellByte =>
    rw [exec_cellByte hp, State.cellByte_collected hr, State.collectCell_partial (by simp; omega)]
    exact ⟨_, rfl, s.setReceiver_transmitted c _⟩
  case cellBroken =>
    rw [exec_cellByte hp, State.cellByte_broken hr]
    exact ⟨_, rfl, s.setReceiver_transmitted c _⟩
  case crc =>
    cases body with
    | nil => simp at hlo
    | cons kind payload =>
      rw [List.length_cons] at hlen hhi
      refine ⟨_, (hostBytes_frame hp hr kind hlen.symm (by omega) hi lo).trans ?_, State.hunting_again hr⟩
      rw [if_neg (Ne.symm hcrc), State.transmit_hearing, State.transmit_transmit]
  case length => exact ⟨_, hostBytes_badLength hp hr hn, State.hunting_again hr⟩

end

-- ==== Proofs of family 01: reports and the drain on a part at rest ====
section
/-! What queued reports add to those that wait, and what a drain does where no lane waits for its ticket and the cache is
empty: it is used at reset and at the deassertion of power fail (O4, O60). -/

namespace Sys2Proof.Machine

/-! ### Reports queued with an idle transmitter (R192) -/

/-- The transmitter is idle, nothing was lost, and these reports wait. -/
structure State.Waits (s : State) (rs : List Report) : Prop where
  sending : s.link.sending = none
  reports : s.link.reports = rs
  lost    : s.link.reportsLost = false

theorem State.Waits.voiced {s : State} {rs : List Report} (h : s.Waits rs) : s.voiced = rs := by
  simp [State.voiced, h.sending, h.reports]

theorem State.Waits.report {s : State} {rs : List Report} (h : s.Waits rs) (r : Report) (hr : rs.length < 32) :
    (s.report r).Waits (rs ++ [r]) := by
  have hx : s.link.reports.length < 32 := by rw [h.reports]; exact hr
  have hq : (s.report r).link = { s.link with reports := s.link.reports ++ [r] } := by
    simp [State.report, Link.queueReport, hx]
  exact ⟨by rw [hq]; exact h.sending, by rw [hq, h.reports], by rw [hq]; exact h.lost⟩

theorem State.Waits.of_link {s t : State} {rs : List Report} (h : s.Waits rs) (k : t.link = s.link) : t.Waits rs :=
  ⟨by rw [k]; exact h.sending, by rw [k]; exact h.reports, by rw [k]; exact h.lost⟩

/-- A report for each unit of a list that meets a condition. -/
theorem State.Waits.forEach {α : Type} {cond : State → α → Prop} [∀ s x, Decidable (cond s x)]
    {rep : State → α → Report} {c : α → Bool} {f : α → Report} {v : State}
    (hc : ∀ u, SameBut [.reports] v u → ∀ x, cond u x ↔ c x = true)
    (hf : ∀ u, SameBut [.reports] v u → ∀ x, rep u x = f x) (xs : List α) {s : State} {rs : List Report}
    (h : s.Waits rs) (hv : SameBut [.reports] v s) (hn : rs.length + xs.length ≤ 32) :
    (Machine.forEach xs (fun x s => if cond s x then s.report (rep s x) else s) s).Waits (rs ++ (xs.filter c).map f) := by
  induction xs generalizing s rs with
  | nil => simpa [Machine.forEach] using h
  | cons x xs ih =>
    rw [List.length_cons] at hn
    have hrec : Machine.forEach (x :: xs) (fun x s => if cond s x then s.report (rep s x) else s) s =
        Machine.forEach xs (fun x s => if cond s x then s.report (rep s x) else s)
          (if cond s x then s.report (rep s x) else s) := rfl
    rw [hrec]
    by_cases hx : cond s x
    · have hcx : c x = true := (hc s hv x).mp hx
      rw [if_pos hx, hf s hv x, List.filter_cons_of_pos hcx, List.map_cons, ← List.singleton_append, ← List.append_assoc]
      refine ih (h.report _ (by omega)) (hv.then (State.report_same _ _)) ?_
      rw [List.length_append, List.length_singleton]
      omega
    · have hcx : ¬ c x = true := fun k => hx ((hc s hv x).mpr k)
      rw [if_neg hx, List.filter_cons_of_neg hcx]
      exact ih h hv (by omega)

/-! ### The high-water test and the drain (R168, R178) -/

section
variable (s : State)

theorem State.testHigh_same : SameBut [.marks, .reports] s s.testHigh := by
  unfold State.testHigh
  simp only
  split
  · exact ((s.marks_same _).mono (by decide)).then (State.report_same _ _)
  · exact (s.marks_same _).mono (by decide)

theorem State.reportFull_same : SameBut [.marks, .reports] s s.reportFull := by
  unfold State.reportFull
  split
  · exact .refl s _
  · exact ((s.marks_same _).mono (by decide)).then (State.report_same _ _)

theorem State.testHigh_ret : s.testHigh.ret = s.ret := by
  unfold State.testHigh
  simp only
  split
  · rfl
  · rfl

theorem State.reportFull_ret : s.reportFull.ret = s.ret := by
  unfold State.reportFull
  split
  · rfl
  · rfl

/-- No lane waits for its ticket, and the permit cache is empty. -/
structure State.NoneServed : Prop where
  cache : ∀ i : Fin 48, s.adm.permit i = none
  lanes : ∀ l : LaneNo, (s.lane l).state ≠ .ticketWait

variable {s}

theorem State.freeWaiting_none (h : ∀ l : LaneNo, (s.lane l).state ≠ .ticketWait) (n : Nat) : s.freeWaiting n = s := by
  have hf : allFour.find? (fun l => (s.lane l).state == .ticketWait && (s.lane l).visit == some n) = none :=
    List.find?_eq_none.mpr (fun l _ => by simp [h l])
  simp only [State.freeWaiting, hf]

/-- With an empty cache there is nothing to deduct from (R170). -/
theorem State.deductFor_empty (h : ∀ i : Fin 48, s.adm.permit i = none) (body : TicketBody) : s.deductFor body = s := by
  have hc : ∀ f : Permit → Permit, s.adm.cache.each (fun e => e.map f) = s.adm.cache := fun f =>
    Table.ext_read (fun i => by
      rw [Table.read_each, show s.adm.cache.read i = none from h i]
      rfl)
  unfold State.deductFor
  split
  · rfl
  · exact congrArg (fun a => { s with adm := a }) (show s.adm.deduct _ _ = s.adm by
      unfold Admission.deduct Admission.onAccount
      rw [hc])

/-- The issue of a ticket where nobody is served. -/
def State.issuedAlone (s : State) (v : Visit) (body : TicketBody) : State :=
  (((s.onJournal (fun j => j.add (s.issuedTicket body))).onVisits
    (fun x => { x with order := x.order.filter (· ≠ v.number) })).onVisit v.number
      (fun x => { x with state := .ticketed, pending := none, ticketNumber := some s.ret.journal.counter }))

theorem State.issuedAlone_same (s : State) (v : Visit) (body : TicketBody) :
    SameBut [.journal, .visits] s (s.issuedAlone v body) :=
  (((SameBut.refl s _).then (s.onJournal_same _)).then (State.onVisits_same _ _)).then (State.onVisits_same _ _)

theorem State.issue_alone (h : s.NoneServed) (v : Visit) (body : TicketBody) :
    ∃ r : Report, s.issue v body = ((s.issuedAlone v body).report r).testHigh := by
  refine ⟨(s.issuedAlone v body).issuedReport (s.issuedTicket body) v, ?_⟩
  unfold State.issue
  simp only
  rw [State.deductFor_empty (by exact h.cache), State.freeWaiting_none (by exact h.lanes)]
  rfl

end

theorem State.NoneServed.of_same {ps : List Part} {s u : State} (h : s.NoneServed) (k : SameBut ps s u)
    (hc : Part.cache ∉ ps := by decide) (hl : Part.lanes ∉ ps := by decide) : u.NoneServed := by
  refine ⟨fun i => ?_, fun l => ?_⟩
  · exact (congrArg (fun c => c.read i) (k .cache hc).1).trans (h.cache i)
  · rw [k.lane l hl]
    exact h.lanes l

/-- The retained contents after an issue that frees no lane, whatever the cache. -/
theorem State.issue_ret {s : State} (h : ∀ l : LaneNo, (s.lane l).state ≠ .ticketWait) (v : Visit)
    (body : TicketBody) : (s.issue v body).ret = (s.issuedAlone v body).ret := by
  unfold State.issue
  simp only
  rw [State.testHigh_ret, State.freeWaiting_none]
  · unfold State.deductFor
    split
    · rfl
    · rfl
  · unfold State.deductFor
    split
    · exact h
    · exact h

/-- A change by issues alone: what the drain leaves where nobody is served. -/
structure State.Drains (s u : State) : Prop where
  frame   : SameBut [.journal, .visits, .marks, .reports] s u
  counter : u.ret.visits.counter = s.ret.visits.counter
  held    : u.ret.journal.held = s.ret.journal.held

section
variable {s u v : State}

theorem State.Drains.refl (s : State) : s.Drains s := ⟨.refl s _, rfl, rfl⟩

theorem State.Drains.trans (h : s.Drains u) (k : u.Drains v) : s.Drains v :=
  ⟨h.frame.then k.frame, k.counter.trans h.counter, k.held.trans h.held⟩

theorem State.Drains.onVisits (s : State) (f : VisitStore → VisitStore)
    (h : (f s.ret.visits).counter = s.ret.visits.counter) : s.Drains (s.onVisits f) :=
  ⟨(s.onVisits_same f).mono (by decide), h, rfl⟩

theorem State.Drains.issue (h : s.NoneServed) (v : Visit) (body : TicketBody) : s.Drains (s.issue v body) := by
  obtain ⟨r, hr⟩ := State.issue_alone h v body
  rw [hr]
  refine ⟨((((s.issuedAlone_same v body).mono (by decide)).then (State.report_same _ r))).then (State.testHigh_same _),
    ?_, ?_⟩
  · rw [State.testHigh_ret]
    rfl
  · rw [State.testHigh_ret]
    rfl

theorem State.Drains.drainAtMost (k : Nat) {s : State} (h : s.NoneServed) : s.Drains (s.drainAtMost k) := by
  induction k generalizing s with
  | zero => exact .refl s
  | succ k ih =>
    have step : ∀ {u : State}, s.Drains u → s.Drains (u.drainAtMost k) := fun hu => hu.trans (ih (h.of_same hu.frame))
    unfold State.drainAtMost
    split
    · exact .refl s
    · split
      · exact .refl s
      · split
        · exact .refl s
        · split
          · split
            · exact step (.onVisits s _ rfl)
            · split
              · exact step (.onVisits s _ rfl)
              · exact step (.issue h _ _)
          · refine ⟨(s.reportFull_same).mono (by decide), ?_, ?_⟩
            · rw [State.reportFull_ret]
            · rw [State.reportFull_ret]

theorem State.Drains.drain (h : s.NoneServed) : s.Drains s.drain := .drainAtMost _ h

/-- A drain with no ticket in the order, under power fail, or with the ticketing held does nothing. -/
theorem State.drain_idle (h : s.ret.visits.order = [] ∨ s.failing = true ∨ s.ret.journal.held = true) : s.drain = s := by
  unfold State.drain
  cases ho : s.ret.visits.order with
  | nil => rfl
  | cons n ns =>
    simp only [List.length_cons, State.drainAtMost, ho]
    rcases h with h | h | h
    · rw [ho] at h
      cases h
    · rw [if_pos h]
    · by_cases hf : s.failing = true
      · rw [if_pos hf]
      · rw [if_neg hf, if_pos h]

/-- A drain with one ticket in the order that can issue is its issue. -/
theorem State.drain_one {m : Nat} {v : Visit} {body : TicketBody} (ho : s.ret.visits.order = [m])
    (hf : s.failing = false) (hh : s.ret.journal.held = false) (hj : s.ret.journal.accepts = true)
    (hv : s.visitOf m = some v) (hb : v.pending = some body) : s.drain = s.issue v body := by
  unfold State.drain
  rw [ho]
  simp only [List.length_singleton, State.drainAtMost, ho, hf, hh, hj, hv, hb, Bool.false_eq_true, if_false, if_true]

end

end Sys2Proof.Machine
end

-- ==== Proofs of family 01: the reset ====
section
/-! What the part is at reset release, and what its start-up reports and the drain at release leave of it (O4). -/

namespace Sys2Proof.Machine

/-! ### Reset release (R16, R38, R56, R100) -/

section
variable (s : State) (r : Retained)

theorem State.bare_channel (c : ChannelNo) : (s.bare r).channel c = r.channelAtRelease c := tabulate_read _ _

theorem State.bare_deck (d : DeckNo) : (s.bare r).deck d = r.deckAtRelease d := tabulate_read _ _

theorem State.bare_bridge (b : BridgeNo) : (s.bare r).bridge b = r.bridgeAtRelease b := tabulate_read _ _

theorem State.bare_grant (b : BridgeNo) : (s.bare r).grant b = { holder := none, waiting := [], last := none } :=
  Table.read_all _ _

theorem State.bare_barrier (b : BarrierNo) : (s.bare r).barrier b = s.pins.barrierAtRelease b := tabulate_read _ _

theorem State.bare_loop (a : LoopNo) : (s.bare r).loop a = s.pins.loopAtRelease a := tabulate_read _ _

theorem State.bare_beam (m : BeamNo) : (s.bare r).beam m = s.pins.beamAtRelease m := tabulate_read _ _

theorem State.bare_lane (l : LaneNo) : (s.bare r).lane l = r.laneAtRelease s.pins l := tabulate_read _ _

theorem State.bare_slot (l : LaneNo) : (s.bare r).slot l = .vacant := Table.read_all _ _

theorem State.bare_permit (i : Fin 48) : (s.bare r).adm.permit i = none := Table.read_all _ _

theorem State.bare_waits : (s.bare r).Waits [] := ⟨rfl, rfl, rfl⟩

theorem Retained.deckAtRelease_condition (d : DeckNo) :
    ((∃ c : ChannelNo, r.site.deckMap.read c = some d) → (r.deckAtRelease d).condition = .stale) ∧
      ((∀ c : ChannelNo, r.site.deckMap.read c ≠ some d) → (r.deckAtRelease d).condition = .noChannels) := by
  refine ⟨fun ⟨c, hc⟩ => ?_, fun h => ?_⟩
  · exact if_pos (List.any_eq_true.mpr ⟨c, mem_allSixteen c, by simpa using hc⟩)
  · exact if_neg (by simpa using fun c _ => h c)

theorem Pins.barrierAtRelease_state (p : Pins) (b : BarrierNo) :
    (p.barrierAtRelease b).state =
      (if p.upSwitch.read b = p.downSwitch.read b then .fault else if p.upSwitch.read b then .up else .down) := by
  unfold Pins.barrierAtRelease Barrier.atRelease
  dsimp only
  cases p.upSwitch.read b <;> cases p.downSwitch.read b <;> rfl

theorem Pins.laneStart_ne_ticketWait (p : Pins) (k : LaneConfig) : p.laneStart k ≠ .ticketWait := by
  unfold Pins.laneStart
  repeat' split
  all_goals simp

theorem Pins.laneStart_held {p : Pins} (h : p.laneHold = true) (k : LaneConfig) : p.laneStart k = .manual := if_pos h

theorem Pins.barrierFaulted_iff (p : Pins) (m : Option BarrierNo) :
    p.barrierFaulted m = true ↔ ∃ b : BarrierNo, m = some b ∧ (p.barrierAtRelease b).state = .fault := by
  cases m <;> simp [Pins.barrierFaulted]

/-- A lane with a barrier found in FAULT starts in LANE_FAULT. -/
theorem Pins.laneStart_faulted {p : Pins} (h : p.laneHold = false) {k : LaneConfig}
    (hb : ∃ b : BarrierNo, (k.front = some b ∨ k.rear = some b) ∧ (p.barrierAtRelease b).state = .fault) :
    p.laneStart k = .laneFault := by
  have hf : (p.barrierFaulted k.front || p.barrierFaulted k.rear) = true := by
    obtain ⟨b, hb, hs⟩ := hb
    rw [Bool.or_eq_true, Pins.barrierFaulted_iff, Pins.barrierFaulted_iff]
    exact hb.imp (fun h => ⟨b, h, hs⟩) (fun h => ⟨b, h, hs⟩)
  simp [Pins.laneStart, h, hf]

theorem Pins.laneStart_sound {p : Pins} (h : p.laneHold = false) {k : LaneConfig}
    (hb : ∀ b : BarrierNo, (k.front = some b ∨ k.rear = some b) → (p.barrierAtRelease b).state ≠ .fault) :
    p.laneStart k = if k.role ≠ .none ∧ p.approachAtRelease k = true then .awaitId else .idle := by
  have hf : ¬ (p.barrierFaulted k.front || p.barrierFaulted k.rear) = true := by
    rw [Bool.or_eq_true, Pins.barrierFaulted_iff, Pins.barrierFaulted_iff]
    rintro (⟨b, hm, hs⟩ | ⟨b, hm, hs⟩)
    · exact hb b (.inl hm) hs
    · exact hb b (.inr hm) hs
  unfold Pins.laneStart
  rw [if_neg (by simp [h]), if_neg hf]

theorem State.approachOccupied_released {t : State} {p : Pins} {l : LaneNo} {k : LaneConfig} (hk : t.config l = k)
    (hl : ∀ a : LoopNo, t.loop a = p.loopAtRelease a) : t.approachOccupied l = p.approachAtRelease k := by
  unfold State.approachOccupied Pins.approachAtRelease
  rw [hk]
  cases k.loop with
  | none => rfl
  | some a => exact congrArg ApproachLoop.occupied (hl a)

theorem State.bare_noneServed : (s.bare r).NoneServed := by
  refine ⟨s.bare_permit r, fun l => ?_⟩
  rw [State.bare_lane]
  exact Pins.laneStart_ne_ticketWait _ _

end

/-! ### The start-up reports (R197) -/

section
variable (s : State) (cause : ResetCause) (kept : Bool)

/-- A report queued where a condition holds. -/
def State.reportIf (s : State) (c : Bool) (r : Report) : State := if c then s.report r else s

theorem State.reportIf_same (c : Bool) (r : Report) : SameBut [.reports] s (s.reportIf c r) := by
  cases c with
  | false => exact .refl s _
  | true => exact s.report_same r

theorem State.reportIf_ret (c : Bool) (r : Report) : (s.reportIf c r).ret = s.ret := by
  cases c with
  | false => rfl
  | true => rfl

theorem State.Waits.reportIf {s : State} {rs : List Report} (h : s.Waits rs) (c : Bool) (r : Report)
    (hn : rs.length < 32) : (s.reportIf c r).Waits (rs ++ if c then [r] else []) := by
  cases c with
  | false => simpa [State.reportIf] using h
  | true => exact h.report r hn

/-- The first start-up reports: RESET_DONE, BACKUP_LOST for lost contents, POWER_FAIL under power fail. -/
def State.resetReported (s : State) (cause : ResetCause) (kept : Bool) : State :=
  ((s.report (.resetDone cause kept s.laneHold s.ret.calCounter)).reportIf (!kept) .backupLost).reportIf s.failing
    (.powerFail s.ret.clock 0)

/-- The part with its start-up reports, up to the high-water test. -/
def State.announced (s : State) (cause : ResetCause) (kept : Bool) : State :=
  (s.resetReported cause kept).reportFaults.testHigh

theorem State.started_eq : s.started cause kept =
    if kept then (s.announced cause kept).drain.seal else s.announced cause kept := by
  cases kept with
  | false => rfl
  | true => rfl

theorem State.resetReported_same : SameBut [.reports] s (s.resetReported cause kept) :=
  ((s.report_same _).then (State.reportIf_same _ _ _)).then (State.reportIf_same _ _ _)

theorem State.resetReported_ret : (s.resetReported cause kept).ret = s.ret := by
  unfold State.resetReported
  rw [State.reportIf_ret, State.reportIf_ret]
  rfl

/-- The BARRIER_FAULT report of a barrier found in FAULT. -/
def State.faultFound (s : State) (b : BarrierNo) : Report :=
  .barrierFault
    { barrier := b, reason := (s.barrier b).reason, before := .fault, upActive := (s.barrier b).upActive,
      downActive := (s.barrier b).downActive, occupied := (s.barrier b).occupied, reversals := 0,
      lanes := s.lanesNaming b, clock := s.ret.clock }

theorem State.reportFaults_eq : s.reportFaults =
    forEach allEight (fun b s => if (s.barrier b).state = .fault then s.report (s.faultFound b) else s) s := rfl

theorem State.reportFaults_same : SameBut [.reports] s s.reportFaults := by
  refine SameBut.forEach (fun b u => ?_) _ s
  split
  · exact u.report_same _
  · exact .refl u _

theorem State.reportFaults_ret : s.reportFaults.ret = s.ret := by
  refine forEach_keeps State.ret (fun b u => ?_) _ s
  split
  · rfl
  · rfl

theorem State.announced_same : SameBut [.marks, .reports] s (s.announced cause kept) :=
  SameBut.then (((s.resetReported_same cause kept).mono (by decide)).then (State.reportFaults_same _))
    (State.testHigh_same _)

theorem State.announced_ret : (s.announced cause kept).ret = s.ret := by
  unfold State.announced
  rw [State.testHigh_ret, State.reportFaults_ret, State.resetReported_ret]

theorem State.seal_visits : s.seal.ret.visits = s.ret.visits := rfl

theorem State.seal_journal : s.seal.ret.journal = s.ret.journal := rfl

/-- The frame of a reset: the drain at release may move journal and visits, and nothing but reports and marks follows. -/
theorem State.started_drains (h : s.NoneServed) :
    SameBut [.journal, .visits, .marks, .checkWord, .reports] s (s.started cause kept) ∧
      (s.started cause kept).ret.visits.counter = s.ret.visits.counter ∧
      (s.started cause kept).ret.journal.held = s.ret.journal.held := by
  have ha := s.announced_same cause kept
  have hr := s.announced_ret cause kept
  have hd := State.Drains.drain (h.of_same ha)
  rw [State.started_eq]
  split
  · refine ⟨((ha.mono (by decide)).then hd.frame).then (State.seal_same _), ?_, ?_⟩
    · rw [State.seal_visits, hd.counter, hr]
    · rw [State.seal_journal, hd.held, hr]
  · exact ⟨ha.mono (by decide), by rw [hr], by rw [hr]⟩

theorem State.faultFound_congr {ps : List Part} {s u : State} (h : SameBut ps s u) (b : BarrierNo)
    (hs : Part.site ∉ ps := by decide) (hb : Part.barriers ∉ ps := by decide) (hc : Part.clock ∉ ps := by decide) :
    u.faultFound b = s.faultFound b := by
  have hcfg : ∀ l, u.config l = s.config l := fun l => congrArg (fun x => x.lanes.read l) (h .site hs)
  have hnaming : u.lanesNaming b = s.lanesNaming b := by
    unfold State.lanesNaming
    simp only [hcfg]
  unfold State.faultFound
  rw [h.barrier b hb, hnaming, (h .clock hc).1]

theorem State.Waits.reportFaults {s u : State} {rs : List Report} (h : u.Waits rs) (hs : SameBut [.reports] s u)
    (hn : rs.length + 8 ≤ 32) :
    u.reportFaults.Waits (rs ++ (allEight.filter (fun b => (s.barrier b).state == .fault)).map s.faultFound) := by
  rw [State.reportFaults_eq]
  refine State.Waits.forEach (v := s) (cond := fun u b => (u.barrier b).state = .fault)
    (rep := fun u b => u.faultFound b) (fun v hv b => ?_) (fun v hv b => State.faultFound_congr hv b) allEight h hs hn
  rw [hv.barrier b, beq_iff_eq]

/-- The JOURNAL_HIGH report of the journal as it stands. -/
def State.highReport (s : State) : Report :=
  .journalHigh
    { uncollected := s.ret.journal.uncollected, mark := s.timers.highWater,
      oldest := s.ret.journal.oldestUncollected.getD 0, newest := s.ret.journal.newest.getD 0, clock := s.ret.clock }

theorem State.Waits.testHigh {s : State} {rs : List Report} (h : s.Waits rs) (hm : s.marks.high = false)
    (hn : rs.length < 32) :
    s.testHigh.Waits (rs ++ if s.timers.highWater ≤ s.ret.journal.uncollected then [s.highReport] else []) := by
  have hmark : State.Waits { s with marks := { s.marks with high := s.journalIsHigh } } rs := h.of_link rfl
  unfold State.testHigh
  simp only
  by_cases hj : s.timers.highWater ≤ s.ret.journal.uncollected
  · rw [if_pos ⟨decide_eq_true hj, hm⟩, if_pos hj]
    exact hmark.report _ hn
  · rw [if_neg (fun k => hj (of_decide_eq_true k.1)), if_neg hj, List.append_nil]
    exact hmark

theorem State.Waits.resetReported {s : State} (h : s.Waits []) :
    (s.resetReported cause kept).Waits
      ([.resetDone cause kept s.laneHold s.ret.calCounter] ++ (if !kept then [.backupLost] else []) ++
        (if s.failing then [.powerFail s.ret.clock 0] else [])) := by
  refine ((h.report _ (by simp)).reportIf _ _ (by simp)).reportIf _ _ ?_
  cases kept <;> simp

/-- The start-up reports in the order of R197. -/
theorem State.Waits.announced {s : State} (h : s.Waits []) (hm : s.marks.high = false) :
    (s.announced cause kept).Waits
      ([.resetDone cause kept s.laneHold s.ret.calCounter] ++ (if !kept then [.backupLost] else []) ++
        (if s.failing then [.powerFail s.ret.clock 0] else []) ++
        (allEight.filter (fun b => (s.barrier b).state == .fault)).map s.faultFound ++
        (if s.timers.highWater ≤ s.ret.journal.uncollected then [s.highReport] else [])) := by
  have hfew : ([Report.resetDone cause kept s.laneHold s.ret.calCounter] ++ (if !kept then [Report.backupLost] else []) ++
      (if s.failing then [Report.powerFail s.ret.clock 0] else [])).length ≤ 3 := by
    cases kept <;> cases s.failing <;> simp
  have hfaults := (h.resetReported (cause := cause) (kept := kept)).reportFaults (s.resetReported_same cause kept) (by omega)
  have hret : (s.resetReported cause kept).reportFaults.ret = s.ret := by
    rw [State.reportFaults_ret, State.resetReported_ret]
  have hmarks : (s.resetReported cause kept).reportFaults.marks = s.marks :=
    ((s.resetReported_same cause kept).then (State.reportFaults_same _)) .marks (by decide)
  have hlast := hfaults.testHigh (by rw [hmarks, hm]) (by
    have : (allEight.filter (fun b => (s.barrier b).state == .fault)).length ≤ 8 := List.length_filter_le _ _
    rw [List.length_append, List.length_map]
    omega)
  have hhigh : (s.resetReported cause kept).reportFaults.highReport = s.highReport := by
    unfold State.highReport State.timers
    rw [hret]
  have htimers : (s.resetReported cause kept).reportFaults.timers = s.timers := by
    unfold State.timers
    rw [hret]
  rw [hhigh, htimers, hret] at hlast
  exact hlast

end

/-! ### The repairs at the start-up check (R156, R183) -/

theorem Visit.repaired_number {v w : Visit} (h : v.repaired = some w) : w.number = v.number := by
  unfold Visit.repaired at h
  split at h <;> cases h <;> rfl

/-- The repaired record of a visit stands where the visit stood. -/
theorem find?_repaired {xs : List Visit} {m : Nat} {v w : Visit} (h : xs.find? (fun x => x.number == m) = some v)
    (hw : v.repaired = some w) : (xs.filterMap Visit.repaired).find? (fun x => x.number == m) = some w := by
  induction xs with
  | nil => cases h
  | cons x xs ih =>
    by_cases hx : x.number = m
    · rw [List.find?_cons_of_pos (by simpa using hx)] at h
      obtain rfl : x = v := Option.some.inj h
      have hwm : w.number = m := (Visit.repaired_number hw).trans hx
      rw [List.filterMap_cons_some hw, List.find?_cons_of_pos (by simpa using hwm)]
    · rw [List.find?_cons_of_neg (by simpa using hx)] at h
      cases hr : x.repaired with
      | none => rw [List.filterMap_cons_none hr, ih h]
      | some y =>
        have hy : ¬ y.number = m := fun k => hx ((Visit.repaired_number hr).symm.trans k)
        rw [List.filterMap_cons_some hr, List.find?_cons_of_neg (by simpa using hy), ih h]

/-! ### A yard at rest (R184) -/

/-- The part at reset release over a yard at rest and lost contents. -/
def State.restingRelease (p : List Instr) (e : Nat) : State :=
  { State.reset with pending := p, evaluations := e, link := .atReset }

theorem State.bare_atRest {s : State} (h : s.pins = Pins.atRest) :
    s.bare Retained.lost = State.restingRelease s.pending s.evaluations := by
  unfold State.bare State.restingRelease State.reset
  rw [h]
  congr 1

theorem State.reportFaults_none {s : State} (h : ∀ b : BarrierNo, (s.barrier b).state ≠ .fault) : s.reportFaults = s :=
  forEach_eq_self (fun b _ => if_neg (h b))

theorem State.testHigh_low {s : State} (h : s.journalIsHigh = false) (hm : s.marks.high = false) : s.testHigh = s := by
  have hmark : { s.marks with high := s.journalIsHigh } = s.marks := by rw [h, ← hm]
  unfold State.testHigh
  rw [if_neg (fun k => by rw [h] at k; exact Bool.false_ne_true k.1), hmark]

theorem State.started_atRest (p : List Instr) (e : Nat) :
    ((State.restingRelease p e).started .input false).transmit =
      { State.reset with pending := p, evaluations := e } := by
  have hsame := (State.restingRelease p e).resetReported_same .input false
  have hret := (State.restingRelease p e).resetReported_ret .input false
  have hfaults : ((State.restingRelease p e).resetReported .input false).reportFaults =
      (State.restingRelease p e).resetReported .input false := by
    refine State.reportFaults_none (fun b => ?_)
    rw [hsame.barrier b]
    have hb : ((State.restingRelease p e).barrier b).state = .down := congrArg Barrier.state (Table.read_all _ b)
    rw [hb]
    decide
  have hhigh : ((State.restingRelease p e).resetReported .input false).journalIsHigh = false := by
    unfold State.journalIsHigh State.timers
    rw [hret]
    rfl
  have hmarks : ((State.restingRelease p e).resetReported .input false).marks.high = false :=
    congrArg JournalMarks.high (hsame .marks (by decide))
  rw [State.started_eq, if_neg Bool.false_ne_true, State.announced, hfaults, State.testHigh_low hhigh hmarks]
  rfl

/-! ### The ticket that issues at release (R168, R169) -/

section
variable {s : State} {m : Nat} {v : Visit}

/-- An update of a visit that keeps its number is found under its number. -/
theorem State.onVisit_visitOf {f : Visit → Visit} (hf : ∀ x, (f x).number = x.number) (h : s.visitOf m = some v) :
    (s.onVisit m f).visitOf m = some (f v) := by
  have hnum : ∀ x : Visit, ((if x.number = m then f x else x).number == m) = (x.number == m) := fun x => by
    split
    · rw [hf]
    · rfl
  have hv := State.visitOf_number h
  have hx : (s.onVisit m f).visitOf m =
      (s.ret.visits.records.map (fun x => if x.number = m then f x else x)).find? (fun x => x.number == m) := rfl
  have hcomp : ((fun x : Visit => x.number == m) ∘ fun x => if x.number = m then f x else x) =
      fun x : Visit => x.number == m := funext hnum
  rw [hx, List.find?_map, hcomp, show s.ret.visits.records.find? (fun x => x.number == m) = some v from h,
    Option.map_some, if_pos hv]

theorem State.issuedAlone_ret (s : State) (v : Visit) (body : TicketBody) :
    (s.issuedAlone v body).ret.journal = s.ret.journal.add (s.issuedTicket body) ∧
      (s.issuedAlone v body).ret.visits.order = s.ret.visits.order.filter (· ≠ v.number) := ⟨rfl, rfl⟩

theorem State.issuedAlone_visitOf (h : s.visitOf m = some v) (body : TicketBody) :
    (s.issuedAlone v body).visitOf m =
      some { v with state := .ticketed, pending := none, ticketNumber := some s.ret.journal.counter } := by
  obtain rfl := State.visitOf_number h
  exact State.onVisit_visitOf
    (f := fun x => { x with state := .ticketed, pending := none, ticketNumber := some s.ret.journal.counter })
    (fun _ => rfl) (by exact h)

/-- One pending ticket that can issue: what the drain leaves of it. -/
theorem State.drain_issues {body : TicketBody} (h : ∀ l : LaneNo, (s.lane l).state ≠ .ticketWait)
    (ho : s.ret.visits.order = [m]) (hf : s.failing = false) (hh : s.ret.journal.held = false)
    (hj : s.ret.journal.tickets.length < 240) (hv : s.visitOf m = some v) (hb : v.pending = some body) :
    s.drain.ret.visits.order = [] ∧
      s.drain.ret.journal =
        { tickets := s.ret.journal.tickets ++ [s.issuedTicket body],
          counter := succSkipZero s.ret.journal.counter, held := false } ∧
      s.drain.visitOf m =
        some { v with state := .ticketed, pending := none, ticketNumber := some s.ret.journal.counter } := by
  have hacc : s.ret.journal.accepts = true := by simp [JournalStore.accepts, hj]
  obtain ⟨hjournal, horder⟩ := s.issuedAlone_ret v body
  have hret : s.drain.ret = (s.issuedAlone v body).ret := by
    rw [State.drain_one ho hf hh hacc hv hb, State.issue_ret h]
  refine ⟨?_, ?_, ?_⟩
  · rw [hret, horder, ho, State.visitOf_number hv]
    simp
  · rw [hret, hjournal, JournalStore.add, if_pos hj, hh]
    rfl
  · rw [State.visitOf, hret]
    exact State.issuedAlone_visitOf hv body

end

/-! ### The command (R196, R197) -/

/-- The part at release after RESET_INPUT, before its start-up reports. -/
def State.atRelease (s : State) (h : Bool) : State := (s.onPins (fun p => { p with laneHold := h })).bare s.ret.checked

theorem exec_resetInput (s : State) (h : Bool) :
    exec (.resetInput h) s = .next ((s.atRelease h).started .input s.ret.intact).transmit := rfl

theorem Retained.checked_intact {r : Retained} (h : r.intact = true) : r.checked = r.repaired := if_pos h

theorem Retained.checked_lost {r : Retained} (h : r.intact = false) : r.checked = .lost := by
  simp [Retained.checked, h]

theorem State.atRelease_ret (s : State) (h : Bool) : (s.atRelease h).ret = s.ret.checked := rfl

/-- The start-up reports of a part at release, in the order of R197. -/
def State.startReports (s : State) (kept : Bool) : List Report :=
  [.resetDone .input kept s.laneHold s.ret.calCounter] ++ (if !kept then [.backupLost] else []) ++
    (if s.failing then [.powerFail s.ret.clock 0] else []) ++
    (allEight.filter (fun b => (s.barrier b).state == .fault)).map s.faultFound ++
    (if s.timers.highWater ≤ s.ret.journal.uncollected then [s.highReport] else [])

section
variable {s : State} {h : Bool}

/-- No ticket issues at release: the contents are lost, no ticket is pending, ticketing is held, or power fails. -/
def State.NoIssue (s : State) : Prop :=
  s.ret.intact = false ∨ s.ret.visits.order = [] ∨ s.ret.journal.held = true ∨ s.pins.powerFail = true

theorem State.atRelease_noneServed (s : State) (h : Bool) : (s.atRelease h).NoneServed := State.bare_noneServed _ _

/-- Where no ticket issues, reports and marks alone follow the release, but for the check word. -/
theorem State.started_noIssue (hn : s.NoIssue) :
    (s.atRelease h).started .input s.ret.intact = (s.atRelease h).announced .input s.ret.intact ∨
      (s.atRelease h).started .input s.ret.intact = ((s.atRelease h).announced .input s.ret.intact).seal := by
  rw [State.started_eq]
  cases hi : s.ret.intact with
  | false => exact .inl (if_neg Bool.false_ne_true)
  | true =>
    refine .inr ?_
    have hret := (s.atRelease h).announced_ret .input true
    have hfail := (s.atRelease h).announced_same .input true .powerFail (by decide)
    have hrep : s.ret.checked = s.ret.repaired := Retained.checked_intact hi
    rw [if_pos rfl, State.drain_idle]
    rcases hn with hn | hn | hn | hn
    · rw [hi] at hn
      cases hn
    · refine .inl ?_
      rw [hret, State.atRelease_ret, hrep]
      exact hn
    · refine .inr (.inr ?_)
      rw [hret, State.atRelease_ret, hrep]
      exact hn
    · exact .inr (.inl ((congrArg PowerFail.asserted hfail).trans hn))

theorem State.reset_noIssue (hn : s.NoIssue) :
    ((s.atRelease h).started .input s.ret.intact).transmit.ret.journal = s.ret.checked.journal ∧
      ((s.atRelease h).started .input s.ret.intact).transmit.ret.visits = s.ret.checked.visits ∧
      ((s.atRelease h).started .input s.ret.intact).transmit.voiced = (s.atRelease h).startReports s.ret.intact ∧
      ((s.atRelease h).started .input s.ret.intact).transmit.link.reportsLost = false := by
  have hw := (State.bare_waits (s.onPins (fun p => { p with laneHold := h })) s.ret.checked).announced .input s.ret.intact
    rfl
  have hret := (s.atRelease h).announced_ret .input s.ret.intact
  have hw : ((s.atRelease h).announced .input s.ret.intact).Waits ((s.atRelease h).startReports s.ret.intact) := hw
  rw [State.transmit_ret, State.transmit_voiced, State.transmit_link_reportsLost]
  rcases State.started_noIssue (h := h) hn with hx | hx
  · rw [hx, hret]
    exact ⟨rfl, rfl, hw.voiced, hw.lost⟩
  · have hsame := (State.seal_same ((s.atRelease h).announced .input s.ret.intact)) .reports (by decide)
    rw [hx, State.seal_journal, State.seal_visits, hret]
    exact ⟨rfl, rfl, hsame.1.trans hw.voiced, hsame.2.trans hw.lost⟩

theorem State.reset_lost (hi : s.ret.intact = false) :
    ((s.atRelease h).started .input s.ret.intact).transmit.ret = Retained.lost := by
  rw [State.transmit_ret, State.started_eq, hi, if_neg Bool.false_ne_true, State.announced_ret, State.atRelease_ret,
    Retained.checked_lost hi]

/-- The one pending ticket issues at release, from the contents as the start-up check repaired them. -/
theorem State.reset_issues {m : Nat} {v : Visit} {body : TicketBody} (hi : s.ret.intact = true)
    (hf : s.pins.powerFail = false) (hh : s.ret.journal.held = false) (hj : s.ret.journal.tickets.length < 240)
    (ho : s.ret.visits.order = [m]) (hv : s.visitOf m = some v) (hs : v.state = .ticketPending)
    (hb : v.pending = some body) :
    ((s.atRelease h).started .input s.ret.intact).transmit.ret.visits.order = [] ∧
      ((s.atRelease h).started .input s.ret.intact).transmit.ret.journal =
        { tickets := s.ret.journal.tickets ++
            [{ body := body, number := s.ret.journal.counter, timeUnset := s.ret.clockUnset,
               issueTime := s.ret.clock, calCounter := s.ret.calCounter, collected := false }],
          counter := succSkipZero s.ret.journal.counter, held := false } ∧
      ((s.atRelease h).started .input s.ret.intact).transmit.visitOf m =
        some { v with
               state := .ticketed, currentLane := none, pending := none, ticketNumber := some s.ret.journal.counter } := by
  have hret : ((s.atRelease h).announced .input true).ret = s.ret.repaired := by
    rw [State.announced_ret, State.atRelease_ret, Retained.checked_intact hi]
  have hrepaired : v.repaired = some { v with currentLane := none } := by simp [Visit.repaired, hs]
  have hfail : ((s.atRelease h).announced .input true).failing = false :=
    (congrArg PowerFail.asserted ((s.atRelease h).announced_same .input true .powerFail (by decide))).trans hf
  have hvisit : ((s.atRelease h).announced .input true).visitOf m = some { v with currentLane := none } := by
    rw [State.visitOf, hret]
    exact find?_repaired hv hrepaired
  obtain ⟨horder, hjournal, hfound⟩ := State.drain_issues ((s.atRelease_noneServed h).of_same
    ((s.atRelease h).announced_same .input true)).lanes (by rw [hret]; exact ho) hfail
    (by rw [hret]; exact hh) (by rw [hret]; exact hj) hvisit hb
  have hticket : ((s.atRelease h).announced .input true).issuedTicket body =
      { body := body, number := s.ret.journal.counter, timeUnset := s.ret.clockUnset, issueTime := s.ret.clock,
        calCounter := s.ret.calCounter, collected := false } := by
    unfold State.issuedTicket
    rw [hret]
    rfl
  rw [hticket, hret] at hjournal
  rw [hret] at hfound
  rw [State.visitOf, State.transmit_ret, State.started_eq, hi, if_pos rfl, State.seal_visits, State.seal_journal]
  exact ⟨horder, hjournal, hfound⟩

end

end Sys2Proof.Machine

open Sys2Proof Sys2Proof.Machine

/-- Settles O4: the part at release is read off unit by unit; what the start-up reports and the drain add moves journal,
visits, marks and reports alone. -/
theorem resetStartsAfresh : Obligations.ResetStartsAfresh := by
  unfold Obligations.ResetStartsAfresh
  refine ⟨fun h s => ?_, fun v => ?repair, fun s hi hp => ?rest⟩
  case repair =>
    refine ⟨fun h => ?_, fun h => ?_, fun h => ?_, fun h => ?_⟩
    · rcases h with h | h <;> simp [Visit.repaired, h]
    · simp [Visit.repaired, h]
    · simp [Visit.repaired, h]
    · rcases h with h | h | h <;> simp [Visit.repaired, h]
  case rest =>
    have hpins : (s.onPins (fun p => { p with laneHold := false })).pins = Pins.atRest := by
      rw [State.onPins_pins, hp]
      rfl
    rw [exec_resetInput, hi, State.atRelease, Retained.checked_lost hi, State.bare_atRest hpins, State.started_atRest]
    rfl
  obtain ⟨hframe, hcounter, hheld⟩ := (s.atRelease h).started_drains .input s.ret.intact (s.atRelease_noneServed h)
  have hsame := hframe.transmit
  have hlost := State.reset_lost (s := s) (h := h)
  have hnone := State.reset_noIssue (s := s) (h := h)
  have hone := fun m v body => State.reset_issues (s := s) (h := h) (m := m) (v := v) (body := body)
  rw [← State.transmit_ret] at hcounter hheld
  rw [exec_resetInput]
  generalize ((s.atRelease h).started .input s.ret.intact).transmit = t at hsame hlost hnone hone hcounter hheld ⊢
  have hsite : t.ret.site = s.ret.checked.site := hsame .site (by decide)
  have hdeckOf : ∀ c, t.deckOf c = s.ret.checked.site.deckMap.read c := fun c => congrArg (fun x => x.deckMap.read c) hsite
  have hconfig : ∀ l, t.config l = s.ret.checked.site.lanes.read l := fun l => congrArg (fun x => x.lanes.read l) hsite
  have hchannel : ∀ c, t.channel c = s.ret.checked.channelAtRelease c := fun c =>
    (hsame.channel c).trans (State.bare_channel _ _ c)
  have hdeck : ∀ d, t.deck d = s.ret.checked.deckAtRelease d := fun d => (hsame.deck d).trans (State.bare_deck _ _ d)
  have hbridge : ∀ b, t.bridge b = s.ret.checked.bridgeAtRelease b := fun b =>
    (hsame.bridge b).trans (State.bare_bridge _ _ b)
  have hbarrier : ∀ b, t.barrier b = s.pins.barrierAtRelease b := fun b =>
    (hsame.barrier b).trans (State.bare_barrier _ _ b)
  have hlane : ∀ l, t.lane l = s.ret.checked.laneAtRelease { s.pins with laneHold := h } l := fun l =>
    (hsame.lane l).trans (State.bare_lane _ _ l)
  have hloop : ∀ a, t.loop a = s.pins.loopAtRelease a := fun a =>
    (congrArg (fun x => x.read a) (hsame .loops (by decide))).trans (State.bare_loop _ _ a)
  have hbeam : ∀ m, t.beam m = s.pins.beamAtRelease m := fun m =>
    (congrArg (fun x => x.read m) (hsame .beams (by decide))).trans (State.bare_beam _ _ m)
  refine ⟨t, rfl, hsame .powered (by decide), hsame .strap (by decide), hsame .receiver (by decide),
    hsame .requests (by decide), (hsame .reply (by decide)).1, hsame .busy (by decide), fun i => ?permit, fun l => ?slot,
    (hsame .queries (by decide)).2, fun i => ?record, (hsame .refusals (by decide)).2.1, (hsame .refusals (by decide)).2.2.1,
    (hsame .refusals (by decide)).2.2.2, hsame .siteFull (by decide), fun b => ?bridge, fun d => ?deck, ?aging,
    fun c => ?channel, fun l => ⟨?lane, fun hh => ?held⟩, hlost, fun hi => ?kept, hsame .pins (by decide),
    hsame .pending (by decide), hsame .evaluations (by decide), hsame .metrology (by decide), hsame .powerFail (by decide),
    fun l => ?query, fun b => ?barrier, hloop, hbeam, fun hh l => ⟨fun hb => ?faulted, fun hb => ?sound⟩,
    fun hn => ?quiet, fun m v body hi hf hh hj ho hv hs hb => hone m v body hi hf hh hj ho hv hs hb⟩
  case permit => exact (congrArg (fun x => x.read i) (hsame .cache (by decide)).1).trans (State.bare_permit _ _ i)
  case slot =>
    exact congrArg QuerySlot.state ((congrArg (fun x => x.read l) (hsame .queries (by decide)).1).trans
      (State.bare_slot _ _ l))
  case record => exact (congrArg (fun x => x.read i) (hsame .refusals (by decide)).1).trans (Table.read_all _ i)
  case bridge =>
    rw [hbridge, (hsame.grant b).trans (State.bare_grant _ _ b), hsame.timing b, hsame.bridgeCal b]
    exact ⟨rfl, rfl, rfl, rfl, rfl, rfl, rfl, rfl, rfl, rfl, rfl, rfl, rfl, rfl⟩
  case deck =>
    obtain ⟨hstale, hnone⟩ := s.ret.checked.deckAtRelease_condition d
    rw [hdeck]
    simp only [hdeckOf]
    exact ⟨rfl, rfl, rfl, hstale, hnone⟩
  case aging =>
    rw [(hsame .cache (by decide)).2, State.timers, hsite]
    rfl
  case channel =>
    rw [hchannel, hdeckOf, State.period, hsite]
    exact ⟨rfl, rfl, rfl, rfl, rfl, rfl, rfl⟩
  case lane =>
    rw [hlane, State.timers, hsite]
    rfl
  case held =>
    rw [hlane]
    exact Pins.laneStart_held (by exact hh) _
  case kept =>
    have hrep : (s.atRelease h).ret = s.ret.repaired := (s.atRelease_ret h).trans (Retained.checked_intact hi)
    refine ⟨?_, ?_, ?_, ?_, ?_, ?_, ?_, ?_⟩
    · rw [show t.ret.cal = _ from hsame .cal (by decide), hrep]
      rfl
    · rw [show t.ret.site = _ from hsame .site (by decide), hrep]
      rfl
    · rw [show t.ret.tares = _ from hsame .tares (by decide), hrep]
      rfl
    · rw [(hsame .clock (by decide)).1, hrep]
      rfl
    · rw [(hsame .clock (by decide)).2, hrep]
      rfl
    · rw [show t.ret.calCounter = _ from hsame .calCounter (by decide), hrep]
      rfl
    · rw [hcounter, hrep]
      rfl
    · rw [hheld, hrep]
      rfl
  case query =>
    exact (congrArg (fun x => x.read l) (hsame .queryFrames (by decide))).trans (Table.read_all _ l)
  case barrier =>
    rw [hbarrier]
    exact ⟨rfl, rfl, rfl, rfl, rfl, rfl, Pins.barrierAtRelease_state _ b⟩
  case faulted =>
    simp only [hconfig, hbarrier] at hb
    rw [hlane]
    exact Pins.laneStart_faulted (p := { s.pins with laneHold := h }) hh hb
  case sound =>
    have happ := State.approachOccupied_released (p := { s.pins with laneHold := h }) (hconfig l) hloop
    simp only [hconfig, hbarrier] at hb
    rw [hlane, happ, hconfig]
    exact Pins.laneStart_sound (p := { s.pins with laneHold := h }) hh hb
  case quiet =>
    obtain ⟨hjournal, hvisits, hvoiced, hreports⟩ := hnone hn
    refine ⟨fun hi => ?_, ?_, hreports⟩
    · rw [hjournal, hvisits, Retained.checked_intact hi]
      exact ⟨rfl, rfl, rfl⟩
    · have hrep : t.highReport = (s.atRelease h).highReport := by
        unfold State.highReport State.timers
        rw [hjournal, hsite, (hsame .clock (by decide)).1]
        rfl
      have hcond : (if t.timers.highWater ≤ t.ret.journal.uncollected then [t.highReport] else []) =
          if (s.atRelease h).timers.highWater ≤ (s.atRelease h).ret.journal.uncollected then
            [(s.atRelease h).highReport] else [] := by
        rw [hrep, State.timers, hsite, hjournal]
        rfl
      change t.voiced = [.resetDone .input s.ret.intact h t.ret.calCounter] ++
        (if s.ret.intact then [] else [.backupLost]) ++ (if s.pins.powerFail then [.powerFail t.ret.clock 0] else []) ++
        (allEight.filter (fun b => (t.barrier b).state == .fault)).map t.faultFound ++
        (if t.timers.highWater ≤ t.ret.journal.uncollected then [t.highReport] else [])
      rw [hvoiced, hcond, (hsame .clock (by decide)).1, show t.ret.calCounter = _ from hsame .calCounter (by decide),
        show t.faultFound = (s.atRelease h).faultFound from funext (fun b => State.faultFound_congr hsame b)]
      simp only [fun b => hsame.barrier b]
      unfold State.startReports
      cases s.ret.intact
      · rfl
      · rfl

end

-- ==== Proofs of family 01: the assertion of power fail ====
section
/-! What the assertion of the power-fail input does to bridges, lanes and visits (O60). -/

namespace Sys2Proof.Machine

/-! ### A step that meets a unit once -/

/-- Of the units of a list one is met: the step at it brings about a property that later steps keep, and the steps before
it leave the unit to be met. -/
theorem forEach_meets {α : Type} {f : α → State → State} {W Q : State → Prop} {H : State → α → Prop}
    (stay : ∀ x s, Q s → Q (f x s)) (hit : ∀ x s, W s → H s x → Q (f x s))
    (miss : ∀ x s, W s → ¬ H s x → W (f x s) ∧ ∀ y, y ≠ x → H s y → H (f x s) y) {xs : List α} {s : State} (hw : W s)
    (h : ∃ x ∈ xs, H s x) : Q (forEach xs f s) := by
  have keep : ∀ (xs : List α) (s : State), Q s → Q (forEach xs f s) := fun xs => by
    induction xs with
    | nil => exact fun s hs => hs
    | cons x xs ih => exact fun s hs => ih _ (stay x s hs)
  induction xs generalizing s with
  | nil =>
    obtain ⟨x, hx, _⟩ := h
    cases hx
  | cons x xs ih =>
    by_cases hx : H s x
    · exact keep xs _ (hit x s hw hx)
    · obtain ⟨hw', hkeep⟩ := miss x s hw hx
      obtain ⟨y, hy, hH⟩ := h
      have hne : y ≠ x := fun e => hx (e ▸ hH)
      exact ih hw' ⟨y, (List.mem_cons.mp hy).resolve_left hne, hkeep y hne hH⟩

/-! ### One capture cancelled (R54) -/

/-- The reason a lane shows after a capture cancelled for power fail. -/
def powerFailReason : Reason := .cancelled .powerFail

/-- The lane of a capture cancelled for power fail. -/
def Lane.powerFailed (n : Lane) (time : Nat) : Lane :=
  if n.state = .weighing then { n with lastReason := some powerFailReason }.entering .captureFailed time
  else { n with lastReason := some powerFailReason }

section
variable {s : State} {b : BridgeNo}

theorem State.failCapture_none (h : (s.bridge b).capture = none) : s.failCapture b = s := by
  simp only [State.failCapture, h]

/-- The capture dropped, its lane given the reason, its visit returned. -/
def State.captureFailing (s : State) (b : BridgeNo) (c : Capture) : State :=
  ((s.dropCapture b).onLane c.lane (fun n => { n with lastReason := some powerFailReason })).returnVisit c.visit

theorem State.captureFailing_lane (s : State) (b : BridgeNo) (c : Capture) (l : LaneNo) :
    (s.captureFailing b c).lane l =
      if l = c.lane then { s.lane l with lastReason := some powerFailReason } else s.lane l := by
  have hx : (s.captureFailing b c).lane l =
      ((s.dropCapture b).onLane c.lane (fun n => { n with lastReason := some powerFailReason })).lane l :=
    (State.onVisits_same _ _).lane l
  rw [hx, State.onLane_lane_at]
  by_cases e : c.lane = l
  · subst e
    rw [if_pos rfl, if_pos rfl]
    rfl
  · rw [if_neg e, if_neg (Ne.symm e)]
    rfl

theorem State.failCapture_some {c : Capture} (h : (s.bridge b).capture = some c) :
    s.failCapture b =
      if (s.lane c.lane).state = .weighing then
        (s.captureFailing b c).enterState c.lane .captureFailed (some powerFailReason)
      else s.captureFailing b c := by
  have hc : s.cancelCaptureOn b .powerFail = s.captureFailing b c := by
    simp only [State.cancelCaptureOn, h]
    rfl
  have hl : (s.captureFailing b c).lane c.lane = { s.lane c.lane with lastReason := some powerFailReason } := by
    rw [State.captureFailing_lane, if_pos rfl]
  simp only [State.failCapture, h, hc, hl]
  rfl

theorem State.captureFailing_same (s : State) (b : BridgeNo) (c : Capture) :
    SameBut [.bridges, .lanes, .visits] s (s.captureFailing b c) :=
  (((SameBut.refl s _).then (s.onBridge_same b _)).then (State.onLane_same _ c.lane _)).then (State.onVisits_same _ _)

theorem State.failCapture_same (s : State) (b : BridgeNo) :
    SameBut [.bridges, .lanes, .visits, .reports] s (s.failCapture b) := by
  cases h : (s.bridge b).capture with
  | none =>
    rw [State.failCapture_none h]
    exact .refl s _
  | some c =>
    have hc := (s.captureFailing_same b c).mono (qs := [.bridges, .lanes, .visits, .reports]) (by decide)
    rw [State.failCapture_some h]
    split
    · exact hc.then (State.enterState_same _ _ _ _)
    · exact hc

/-- The bridge loses its capture, and no other bridge changes. -/
theorem State.failCapture_bridge (s : State) (b o : BridgeNo) :
    (s.failCapture b).bridge o = if o = b then { s.bridge b with capture := none } else s.bridge o := by
  cases h : (s.bridge b).capture with
  | none =>
    rw [State.failCapture_none h]
    split
    · next e =>
      rw [e, ← h]
    · rfl
  | some c =>
    have hx : (s.failCapture b).bridge o = (s.dropCapture b).bridge o := by
      rw [State.failCapture_some h]
      split
      · exact (State.enterState_same _ _ _ _).bridge o
      · rfl
    rw [hx, State.dropCapture, State.onBridge_bridge_at]
    by_cases e : b = o
    · subst e
      simp
    · simp [e, Ne.symm e]

/-- The lane of the capture, and no other lane, is told of the power fail. -/
theorem State.failCapture_lane {c : Capture} (h : (s.bridge b).capture = some c) (l : LaneNo) :
    (s.failCapture b).lane l = if l = c.lane then (s.lane l).powerFailed s.identityTime else s.lane l := by
  have hl : (s.captureFailing b c).lane c.lane = { s.lane c.lane with lastReason := some powerFailReason } := by
    rw [State.captureFailing_lane, if_pos rfl]
  have ho : ∀ m, m ≠ c.lane → (s.captureFailing b c).lane m = s.lane m := fun m hm => by
    rw [State.captureFailing_lane, if_neg hm]
  rw [State.failCapture_some h]
  by_cases e : l = c.lane
  · subst e
    rw [if_pos rfl, Lane.powerFailed]
    split
    · next hw =>
      rw [State.enterState_lane, hl]
      · rfl
      · rw [hl]
        simp [hw]
    · exact hl
  · rw [if_neg e]
    split
    · rw [State.enterState_others _ e, ho l e]
    · exact ho l e

end

/-! ### The visit of a capture that is cancelled (R54) -/

theorem SameBut.visitOf {ps : List Part} {s t : State} (h : SameBut ps s t) (n : Nat)
    (hp : Part.visits ∉ ps := by decide) : t.visitOf n = s.visitOf n :=
  congrArg (fun x => x.records.find? (fun v => v.number == n)) (show t.ret.visits = s.ret.visits from h _ hp)

/-- An update of one visit does not touch the visit of another number. -/
theorem State.onVisit_visitOf_ne {s : State} {k n : Nat} {f : Visit → Visit} (hf : ∀ x, (f x).number = x.number)
    (h : n ≠ k) : (s.onVisit k f).visitOf n = s.visitOf n := by
  have hnum : ∀ x : Visit, ((if x.number = k then f x else x).number == n) = (x.number == n) := fun x => by
    split
    · rw [hf]
    · rfl
  have hx : (s.onVisit k f).visitOf n =
      (s.ret.visits.records.map (fun x => if x.number = k then f x else x)).find? (fun x => x.number == n) := rfl
  have hcomp : ((fun x : Visit => x.number == n) ∘ fun x => if x.number = k then f x else x) =
      fun x : Visit => x.number == n := funext hnum
  rw [hx, List.find?_map, hcomp, show s.ret.visits.records.find? (fun x => x.number == n) = s.visitOf n from rfl]
  cases hv : s.visitOf n with
  | none => rfl
  | some v => rw [Option.map_some, if_neg (fun e => h ((State.visitOf_number hv).symm.trans e))]

section
variable {s : State} {b : BridgeNo} {c : Capture} {n : Nat} {v : Visit}

theorem State.failCapture_visitOf_captured (h : (s.bridge b).capture = some c) :
    (s.failCapture b).visitOf n = (s.captureFailing b c).visitOf n := by
  rw [State.failCapture_some h]
  split
  · exact (State.enterState_same _ _ _ _).visitOf n
  · rfl

theorem State.failCapture_visitOf_hit (h : (s.bridge b).capture = some c) (hn : c.visit = n) (hv : s.visitOf n = some v) :
    (s.failCapture b).visitOf n = some { v with state := v.state.returned } := by
  subst hn
  rw [State.failCapture_visitOf_captured h]
  exact State.onVisit_visitOf (f := fun v => { v with state := v.state.returned }) (fun _ => rfl) (by exact hv)

theorem State.failCapture_visitOf_miss (h : ∀ k : Capture, (s.bridge b).capture = some k → k.visit ≠ n) :
    (s.failCapture b).visitOf n = s.visitOf n := by
  cases hc : (s.bridge b).capture with
  | none => rw [State.failCapture_none hc]
  | some c =>
    rw [State.failCapture_visitOf_captured hc]
    exact (State.onVisit_visitOf_ne (f := fun v => { v with state := v.state.returned }) (fun _ => rfl)
      (Ne.symm (h c hc))).trans rfl

/-- A capture on a bridge that the step does not come to is still there after it. -/
theorem State.failCapture_capture_kept {o : BridgeNo} (h : o ≠ b) :
    ((s.failCapture b).bridge o).capture = (s.bridge o).capture := by
  rw [State.failCapture_bridge, if_neg h]

end

/-! ### Every capture cancelled -/

section
variable (s : State)

/-- Every capture is cancelled for power fail, in the order of the bridges. -/
def State.failCaptures (s : State) : State := forEach allFour (fun b s => s.failCapture b) s

theorem State.failCaptures_same : SameBut [.bridges, .lanes, .visits, .reports] s s.failCaptures :=
  SameBut.forEach (fun b u => u.failCapture_same b) _ s

theorem State.failCaptures_bridge (b : BridgeNo) : s.failCaptures.bridge b = { s.bridge b with capture := none } := by
  have h := forEach_reads (f := fun b s => s.failCapture b) (read := State.bridge)
    (F := fun _ x => { x with capture := none }) (P := fun _ => True) (xs := allFour) (fun _ _ _ _ => trivial)
    (fun x _ u _ => by rw [State.failCapture_bridge, if_pos rfl])
    (fun x _ y u _ hne => by rw [State.failCapture_bridge, if_neg hne]) allFour_nodup (s := s) trivial b
  rw [if_pos (mem_allFour b)] at h
  exact h

variable {s}

theorem State.failCaptures_none (h : ∀ b : BridgeNo, (s.bridge b).capture = none) : s.failCaptures = s :=
  forEach_eq_self (fun b _ => State.failCapture_none (h b))

/-- A lane that no capture names keeps every item. -/
theorem State.failCaptures_lane_free {l : LaneNo}
    (h : ∀ (b : BridgeNo) (k : Capture), (s.bridge b).capture = some k → k.lane ≠ l) :
    s.failCaptures.lane l = s.lane l := by
  have step : ∀ (xs : List BridgeNo) (u : State),
      (∀ (b : BridgeNo) (k : Capture), (u.bridge b).capture = some k → k.lane ≠ l) →
      (forEach xs (fun b s => s.failCapture b) u).lane l = u.lane l := fun xs => by
    induction xs with
    | nil => exact fun u _ => rfl
    | cons b bs ih =>
      intro u hu
      have hrec : (forEach (b :: bs) (fun b s => s.failCapture b) u).lane l =
          (forEach bs (fun b s => s.failCapture b) (u.failCapture b)).lane l := rfl
      rw [hrec, ih (u.failCapture b)]
      · cases hc : (u.bridge b).capture with
        | none => rw [State.failCapture_none hc]
        | some c => rw [State.failCapture_lane hc, if_neg (Ne.symm (hu b c hc))]
      · intro o k hk
        rw [State.failCapture_bridge] at hk
        split at hk
        · cases hk
        · exact hu o k hk
  exact step allFour s h

/-- A lane in WEIGHING with a capture goes to CAPTURE_FAILED for power fail. -/
theorem State.failCaptures_lane_weighing {b : BridgeNo} {k : Capture} (h : (s.bridge b).capture = some k)
    (hw : (s.lane k.lane).state = .weighing) :
    (s.failCaptures.lane k.lane).state = .captureFailed ∧
      (s.failCaptures.lane k.lane).lastReason = some powerFailReason := by
  refine forEach_meets (f := fun b s => s.failCapture b) (W := fun u => (u.lane k.lane).state = .weighing)
    (Q := fun u => (u.lane k.lane).state = .captureFailed ∧ (u.lane k.lane).lastReason = some powerFailReason)
    (H := fun u o => ∃ c : Capture, (u.bridge o).capture = some c ∧ c.lane = k.lane) (fun o u hu => ?stay)
    (fun o u hu ⟨c, hc, hl⟩ => ?hit) (fun o u hu hn => ⟨?same, fun p hp ⟨c, hc, hl⟩ => ⟨c, ?kept, hl⟩⟩) hw
    ⟨b, mem_allFour b, k, h, rfl⟩
  case stay =>
    cases hc : (u.bridge o).capture with
    | none =>
      rw [State.failCapture_none hc]
      exact hu
    | some c =>
      rw [State.failCapture_lane hc]
      split
      · rw [Lane.powerFailed, if_neg (by rw [hu.1]; decide)]
        exact ⟨hu.1, rfl⟩
      · exact hu
  case hit =>
    rw [State.failCapture_lane hc, if_pos hl.symm, Lane.powerFailed, if_pos hu]
    exact ⟨rfl, rfl⟩
  case same =>
    cases hc : (u.bridge o).capture with
    | none =>
      rw [State.failCapture_none hc]
      exact hu
    | some c =>
      rw [State.failCapture_lane hc, if_neg (fun e => hn ⟨c, hc, e.symm⟩)]
      exact hu
  case kept =>
    rw [State.failCapture_capture_kept hp]
    exact hc

/-- A visit with a capture returns from its weighing state. -/
theorem State.failCaptures_visit {b : BridgeNo} {k : Capture} {v : Visit} (h : (s.bridge b).capture = some k)
    (hv : s.visitOf k.visit = some v) (hr : v.state.returned.returned = v.state.returned) :
    s.failCaptures.visitOf k.visit = some { v with state := v.state.returned } := by
  refine forEach_meets (f := fun b s => s.failCapture b) (W := fun u => u.visitOf k.visit = some v)
    (Q := fun u => u.visitOf k.visit = some { v with state := v.state.returned })
    (H := fun u o => ∃ c : Capture, (u.bridge o).capture = some c ∧ c.visit = k.visit) (fun o u hu => ?stay)
    (fun o u hu ⟨c, hc, hl⟩ => State.failCapture_visitOf_hit hc hl hu)
    (fun o u hu hn => ⟨?same, fun p hp ⟨c, hc, hl⟩ => ⟨c, ?kept, hl⟩⟩) hv ⟨b, mem_allFour b, k, h, rfl⟩
  case stay =>
    by_cases hm : ∃ c : Capture, (u.bridge o).capture = some c ∧ c.visit = k.visit
    · obtain ⟨c, hc, hl⟩ := hm
      rw [State.failCapture_visitOf_hit hc hl hu, hr]
    · rw [State.failCapture_visitOf_miss (fun c hc e => hm ⟨c, hc, e⟩), hu]
  case same => rw [State.failCapture_visitOf_miss (fun c hc e => hn ⟨c, hc, e⟩), hu]
  case kept =>
    rw [State.failCapture_capture_kept hp]
    exact hc

end

/-! ### The command (R182) -/

/-- The power-fail input asserted, before the captures are cancelled. -/
def State.powerLost (s : State) : State :=
  { s.onPins (fun p => { p with powerFail := true }) with powerFail := { asserted := true, filter := none } }

theorem State.powerLost_same (s : State) : SameBut [.pins, .powerFail] s s.powerLost := by
  intro p hp
  cases p <;> simp [Part.same, State.voiced, State.powerLost] at hp ⊢

theorem exec_powerFailAssert {s : State} (h : s.powered = true) (hf : s.failing = false) :
    exec .powerFailAssert s = .next
      ((s.powerLost.failCaptures.seal).report (.powerFail s.powerLost.failCaptures.ret.clock s.captureCount)).transmit := by
  have hx : exec .powerFailAssert s =
      s.runPins (fun p => { p with powerFail := true }) (fun s => s.powerFailing) := rfl
  have hn : ¬ (s.onPins (fun p => { p with powerFail := true })).failing = true := by
    rw [show (s.onPins (fun p => { p with powerFail := true })).failing = s.failing from rfl, hf]
    exact Bool.false_ne_true
  rw [hx, State.runPins_powered h, State.powerFailing, if_neg hn]
  rfl

theorem exec_powerFailAssert_again {s : State} (h : s.powered = true) (hf : s.failing = true) :
    exec .powerFailAssert s = .next s.powerLost.transmit := by
  have hx : exec .powerFailAssert s =
      s.runPins (fun p => { p with powerFail := true }) (fun s => s.powerFailing) := rfl
  rw [hx, State.runPins_powered h, State.powerFailing, if_pos (by exact hf)]
  rfl

theorem exec_powerFailInputInactive {s : State} (h : s.powered = true) :
    exec .powerFailInputInactive s = .next
      (State.transmit { s.onPins (fun p => { p with powerFail := false }) with
        powerFail := s.powerFail.inputInactive }) := by
  have hx : exec .powerFailInputInactive s = s.runPins (fun p => { p with powerFail := false })
      (fun s => { s with powerFail := s.powerFail.inputInactive }) := rfl
  rw [hx, State.runPins_powered h]
  rfl

end Sys2Proof.Machine
end

-- ==== Proofs of family 01: the deassertion of power fail ====
section
/-! What the deassertion of the power-fail input does lane by lane, and that it does nothing where nothing was missed
(O60). -/

namespace Sys2Proof.Machine

/-! ### The stages of the deassertion (R182) -/

/-- Only one unit of a list is changed by a step, and the changed state leaves the others alone. -/
theorem forEach_single {α : Type} {f : α → State → State} {s : State} {x : α} {xs : List α} (hx : x ∈ xs)
    (hn : xs.Nodup) (before : ∀ y, y ≠ x → f y s = s) (after : ∀ y, y ≠ x → f y (f x s) = f x s) :
    forEach xs f s = f x s := by
  induction xs with
  | nil => cases hx
  | cons y ys ih =>
    obtain ⟨hy, hn⟩ := List.nodup_cons.mp hn
    have hrec : forEach (y :: ys) f s = forEach ys f (f y s) := rfl
    rw [hrec]
    by_cases e : y = x
    · subst e
      exact forEach_eq_self (fun z hz => after z (fun e => hy (e ▸ hz)))
    · rw [before y e]
      exact ih ((List.mem_cons.mp hx).resolve_left (Ne.symm e)) hn

/-- The power-fail input deasserted, before anything missed is taken up. -/
def State.deasserted (s : State) : State := { s with powerFail := { asserted := false, filter := none } }

theorem State.deasserted_same (s : State) : SameBut [.powerFail] s s.deasserted := by
  intro p hp
  cases p <;> simp [Part.same, State.voiced, State.deasserted] at hp ⊢

def State.retests (s : State) : State := forEach allFour (fun l s => s.retest l) s

def State.decideGrants (s : State) : State := forEach allFour (fun b s => s.decideGrant b) s

def State.takeUpSlots (s : State) : State := forEach allFour (fun l s => s.takeUpSlot l) s

theorem exec_powerFailDeassert {s : State} (h : s.powered = true) (hf : s.powerFail.filter ≠ none) :
    exec .powerFailDeassert s = .next (s.deasserted.retests.decideGrants.takeUpSlots.drain.seal).transmit := by
  have hx : exec .powerFailDeassert s = s.run (fun s => if s.powerFail.filter.isSome then s.powerRestored else s) := rfl
  rw [hx, State.run_powered h, if_pos (Option.isSome_iff_ne_none.mpr hf)]
  rfl

theorem exec_powerFailDeassert_idle {s : State} (h : s.powered = true) (hf : s.powerFail.filter = none) :
    exec .powerFailDeassert s = .next s.transmit := by
  have hx : exec .powerFailDeassert s = s.run (fun s => if s.powerFail.filter.isSome then s.powerRestored else s) := rfl
  rw [hx, State.run_powered h, if_neg (by rw [hf]; exact Bool.false_ne_true)]

/-- No lane waits for a bridge, no query is ACTIVE, and no ticket is pending. -/
structure State.NothingLeft (s : State) : Prop where
  grants : ∀ b : BridgeNo, (s.grant b).waiting = []
  slots  : ∀ l : LaneNo, (s.slot l).state ≠ .active
  order  : s.ret.visits.order = []

section
variable {s t : State}

theorem SameBut.slot {ps : List Part} (h : SameBut ps s t) (l : LaneNo) (hp : Part.queries ∉ ps := by decide) :
    t.slot l = s.slot l := congrArg (fun x => x.read l) (h .queries hp).1

theorem State.NothingLeft.of_same {ps : List Part} (h : s.NothingLeft) (k : SameBut ps s t)
    (hg : Part.grants ∉ ps := by decide) (hq : Part.queries ∉ ps := by decide) (hv : Part.visits ∉ ps := by decide) :
    t.NothingLeft :=
  ⟨fun b => by rw [k.grant b hg]; exact h.grants b, fun l => by rw [k.slot l hq]; exact h.slots l, by
    rw [show t.ret.visits = s.ret.visits from k .visits hv]
    exact h.order⟩

theorem State.takeUpSlot_inactive {l : LaneNo} (h : (s.slot l).state ≠ .active) : s.takeUpSlot l = s := if_neg h

theorem State.decideGrants_idle (h : ∀ b : BridgeNo, (s.grant b).waiting = []) : s.decideGrants = s :=
  forEach_eq_self (fun b _ => State.decideGrant_withheld (.inr (h b)))

theorem State.takeUpSlots_idle (h : ∀ l : LaneNo, (s.slot l).state ≠ .active) : s.takeUpSlots = s :=
  forEach_eq_self (fun l _ => State.takeUpSlot_inactive (h l))

/-- Where nothing else was missed, the deassertion ends with its tests of the lanes. -/
theorem State.NothingLeft.restores (h : s.NothingLeft) : s.decideGrants.takeUpSlots.drain = s := by
  rw [State.decideGrants_idle h.grants, State.takeUpSlots_idle h.slots, State.drain_idle (.inl h.order)]

/-! ### The test of a lane that missed nothing (R99) -/

theorem State.retest_manual {l : LaneNo} (h : (s.lane l).state = .manual) : s.retest l = s := by
  have ht : s.testLane l = s := State.testLane_resting (by rw [h]; decide)
  simp [State.retest, h, LaneState.beforeEntry, ht]

theorem State.retest_awaitBridge {l : LaneNo} (h : (s.lane l).state = .awaitBridge) (ha : s.approachOccupied l = true) :
    s.retest l = if s.holdsGrant l then s.enterEntering l else s := by
  simp [State.retest, h, ha]

theorem State.retest_admitting {l : LaneNo} (h : (s.lane l).state = .admitting) (ha : s.approachOccupied l = true) :
    s.retest l = s := by
  have ht : s.testLane l = s := State.testLane_resting (by rw [h]; decide)
  simp [State.retest, h, ha, ht]

theorem State.holdsGrant_iff {l : LaneNo} : s.holdsGrant l = true ↔ ∃ b : BridgeNo, (s.grant b).holder = some l := by
  simp [State.holdsGrant, mem_allFour]

/-- Where every other lane is in MANUAL, the tests are that of the one lane. -/
theorem State.retests_only {l : LaneNo} (h : ∀ m : LaneNo, m ≠ l → (s.lane m).state = .manual)
    (hm : ∀ m : LaneNo, m ≠ l → ((s.retest l).lane m).state = .manual) : s.retests = s.retest l :=
  forEach_single (f := fun l s => s.retest l) (mem_allFour l) allFour_nodup (fun m hne => State.retest_manual (h m hne))
    (fun m hne => State.retest_manual (hm m hne))

end

/-! ### One lane at work -/

/-- A change of one lane's items, and of parts that do not make another lane wait. -/
theorem State.OnlyLane.deassert {s : State} {l : LaneNo} (hp : s.powered = true) (hf : s.powerFail.filter ≠ none)
    (ho : s.OnlyLane l) {x : State} (hx : s.deasserted.retest l = x)
    (hm : ∀ m : LaneNo, m ≠ l → (x.lane m).state = .manual) (hn : x.NothingLeft) :
    exec .powerFailDeassert s = .next x.seal.transmit := by
  have hr : s.deasserted.retests = x := by
    rw [State.retests_only (s := s.deasserted) (l := l) (fun m hne => (ho.others m hne).1) (by rw [hx]; exact hm), hx]
  rw [exec_powerFailDeassert hp hf, hr, hn.restores]

theorem State.OnlyLane.nothingLeft {s : State} {l : LaneNo} (ho : s.OnlyLane l) (hs : (s.slot l).state ≠ .active) :
    s.NothingLeft := by
  refine ⟨ho.grants, fun m => ?_, ho.order⟩
  by_cases e : m = l
  · rw [e]
    exact hs
  · exact (ho.others m e).2

/-- A test that changes its own lane, and parts that nothing waits on. -/
theorem State.OnlyLane.deassert_same {s : State} {l : LaneNo} {ps : List Part} (hp : s.powered = true)
    (hf : s.powerFail.filter ≠ none) (ho : s.OnlyLane l) (hs : (s.slot l).state ≠ .active)
    (hx : SameBut ps s.deasserted (s.deasserted.retest l))
    (hm : ∀ m : LaneNo, m ≠ l → (s.deasserted.retest l).lane m = s.lane m)
    (hg : Part.grants ∉ ps := by decide) (hq : Part.queries ∉ ps := by decide) (hv : Part.visits ∉ ps := by decide) :
    exec .powerFailDeassert s = .next (s.deasserted.retest l).seal.transmit :=
  ho.deassert hp hf rfl (fun m hne => by rw [hm m hne]; exact (ho.others m hne).1)
    (((ho.nothingLeft hs).of_same s.deasserted_same).of_same hx hg hq hv)

/-- The frame of such a test, at the end of the event. -/
theorem State.deassert_frame {s x : State} {ps : List Part} (hx : SameBut ps s.deasserted x) :
    SameBut (.powerFail :: .checkWord :: ps) s x.seal.transmit :=
  (((s.deasserted_same.mono (by simp)).then hx (fun p hp => by simp [hp])).then (State.seal_same x)
    (fun p hp => by simp_all)).transmit

/-! ### What one lane missed (R99) -/

section
variable {s : State} {l : LaneNo}

theorem State.retest_identityExpired (h : (s.lane l).state = .awaitId) (ht : (s.lane l).identityTimer = .expired)
    (ha : s.approachOccupied l = true) : s.retest l = s.enterState l .noId none := by
  simp [State.retest, h, ha, ht]

theorem State.retest_left (h : (s.lane l).state = .noId ∨ (s.lane l).state = .refused)
    (ha : s.approachOccupied l = false) : s.retest l = (s.clearVehicle l).enterState l .idle none := by
  rcases h with h | h <;> simp [State.retest, h, ha, LaneState.beforeEntry, State.leaveBeforeEntry]

theorem State.retest_arrived (h : (s.lane l).state = .idle) (hr : (s.config l).role ≠ .none)
    (ha : s.approachOccupied l = true) : s.retest l = s.enterState l .awaitId none := by
  simp [State.retest, h, ha, LaneState.beforeEntry, State.comeToIdle, hr]

theorem State.retest_entryExpired (h : (s.lane l).state = .entering) (hn : (s.lane l).entered = false)
    (ht : (s.lane l).entryTimer = .expired) (hl : s.ownBridgeLoaded l = false) (he : s.ownBridgeEmpty l = false) :
    s.retest l = s.onLane l (fun n => { n with entryTimer := .running s.entryTime }) := by
  have hm : s.entryMet l = false := by simp [State.entryMet, hl]
  simp [State.retest, h, LaneState.beforeEntry, hn, hm, ht, State.entryExpired, State.canWithdraw, he]

theorem State.retest_takeoverPending (h : (s.lane l).state = .takeoverPending) (hf : s.failing = false)
    (hm : s.laneMoving l = false) : s.retest l = s.enterManual l := by
  simp [State.retest, h, LaneState.beforeEntry, State.testTakeover, hf, hm]

/-- The rear barrier of a lane whose vehicle has passed it lowers, and the lane, without a visit, forgets the vehicle. -/
theorem State.retest_rearPassed {r : BarrierNo} (h : (s.lane l).state = .leaving) (hm : (s.lane l).rearMark = .passed)
    (hr : (s.config l).rear = some r) (hu : (s.barrier r).state = .up) (ho : (s.barrier r).occupied = false)
    (hv : (s.lane l).visit = none) : s.retest l = (s.commandLower r).clearVehicle l := by
  have hl : s.lowerRear l = s.commandLower r := by simp [State.lowerRear, hr, State.commandLower?]
  have hlane : (s.commandLower r).lane l = s.lane l := (s.onBarrier_same r _).lane l
  have hp : s.passRear l = (s.commandLower r).clearVehicle l := by
    unfold State.passRear
    simp only [hl, hlane, hv]
  have hdown : ((s.commandLower r).clearVehicle l).barrierIs (((s.commandLower r).clearVehicle l).config l).rear .down =
      false := by
    have hc : (((s.commandLower r).clearVehicle l).config l).rear = some r := hr
    have hb : (((s.commandLower r).clearVehicle l).barrier r).state = .lowering := by
      have hx : ((s.commandLower r).clearVehicle l).barrier r = (s.barrier r).lower s.motionTime :=
        s.onBarrier_barrier r _
      rw [hx]
      simp [Barrier.lower, hu, ho, Barrier.startLowering]
    rw [hc]
    simp [State.barrierIs, hb]
  have hstate : (((s.commandLower r).clearVehicle l).lane l).state = .leaving := by
    rw [State.clearVehicle, State.onLane_lane, hlane]
    exact h
  have hx : s.retest l = (s.passRear l).testLane l := by simp [State.retest, h, LaneState.beforeEntry, hm]
  rw [hx, hp]
  unfold State.testLane
  split
  · rfl
  · simp only [hstate]
    exact if_neg (fun k => by rw [hdown] at k; exact Bool.false_ne_true k.2.1)

end

end Sys2Proof.Machine
end

-- ==== Proofs of family 01: takeovers and answers held over power fail ====
section
/-! The entry to MANUAL and the queries that the deassertion takes up (O60). -/

namespace Sys2Proof.Machine

/-! ### An entry to MANUAL with no lane waiting (R96) -/

section
variable {s : State} {l : LaneNo}

theorem State.releaseGrant_unwaited (h : ∀ b : BridgeNo, (s.grant b).waiting = []) :
    s.releaseGrant l = s ∨ ∃ b : BridgeNo, s.releaseGrant l = s.released b := by
  cases hb : (s.config l).bridge with
  | none => exact .inl (by simp [State.releaseGrant, hb])
  | some b =>
    by_cases hh : (s.grant b).holder = some l
    · refine .inr ⟨b, ?_⟩
      rw [State.releaseGrant_holder hb hh, State.decideGrant_withheld]
      rw [State.released_grant]
      exact .inr (h b)
    · exact .inl (by simp [State.releaseGrant, hb, hh])

theorem State.released_same (s : State) (b : BridgeNo) : SameBut [.grants] s (s.released b) := s.onGrant_same b _

theorem State.released_waiting (s : State) (b o : BridgeNo) :
    ((s.released b).grant o).waiting = (s.grant o).waiting := by
  unfold State.released
  rw [State.onGrant_grant_at]
  split
  · rfl
  · rfl

/-- The lane is in MANUAL, the others are as they were, and nothing is left to wait. -/
theorem State.enterManual_alone (hn : s.NothingLeft) (hf : s.siteFull = []) :
    (s.enterManual l).NothingLeft ∧ (∀ m : LaneNo, m ≠ l → (s.enterManual l).lane m = s.lane m) ∧
      ∃ n : Lane, (s.enterManual l).lane l = n.manual := by
  obtain ⟨r, hr⟩ := State.enterManual_eq s l
  have hstop := StopsServing.servedNoMore s l hf
  have hgrants : ∀ b, ((s.servedNoMore l).grant b).waiting = [] := fun b => by
    rw [hstop.frame.grant b]
    exact hn.grants b
  obtain ⟨hsame, hwait⟩ : SameBut [.grants] (s.servedNoMore l) ((s.servedNoMore l).releaseGrant l) ∧
      ∀ o, (((s.servedNoMore l).releaseGrant l).grant o).waiting = [] := by
    rcases State.releaseGrant_unwaited (l := l) hgrants with h | ⟨b, h⟩
    · rw [h]
      exact ⟨.refl _ _, hgrants⟩
    · rw [h]
      refine ⟨State.released_same _ b, fun o => ?_⟩
      rw [State.released_waiting, hgrants]
  have hend : SameBut [.lanes, .reports] ((s.servedNoMore l).releaseGrant l) (s.enterManual l) := by
    rw [hr]
    exact ((State.onLane_same _ l _).mono (by decide)).then (State.report_same _ r)
  refine ⟨⟨fun b => ?_, fun m => ?_, ?_⟩, fun m hm => ?_, ⟨((s.servedNoMore l).releaseGrant l).lane l, ?_⟩⟩
  · rw [hend.grant b, hwait]
  · rw [hend.slot m, hsame.slot m, hstop.frame.slot m]
    exact hn.slots m
  · rw [show (s.enterManual l).ret.visits = _ from hend .visits (by decide),
      show ((s.servedNoMore l).releaseGrant l).ret.visits = _ from hsame .visits (by decide)]
    exact hstop.order hn.order
  · rw [hr, (State.report_same _ r).lane m, State.onLane_lane_ne _ _ (Ne.symm hm), hsame.lane m, hstop.lanes m hm]
  · rw [hr, (State.report_same _ r).lane l, State.onLane_lane]

end

/-! ### A refusal and a full table (R82, R117, R126) -/

section
variable {s : State} {l : LaneNo}

/-- A change of the refusal records alone. -/
theorem State.onAdm_refusals (s : State) (f : Admission → Admission)
    (hf : ∀ a, (f a).cache = a.cache ∧ (f a).agingTimer = a.agingTimer ∧ (f a).slots = a.slots ∧
      (f a).queryCounter = a.queryCounter) : SameBut [.refusals] s (s.onAdm f) := by
  obtain ⟨hc, ha, hs, hq⟩ := hf s.adm
  intro p hp
  by_cases hcache : p = .cache
  · subst hcache
    exact ⟨hc, ha⟩
  · by_cases hqueries : p = .queries
    · subst hqueries
      exact ⟨hs, hq⟩
    · refine s.onAdm_same f p ?_
      simp only [List.mem_cons, List.not_mem_nil, or_false] at hp ⊢
      tauto

theorem State.recordRefusal_same (s : State) (tag : Word) (l : LaneNo) (why : RefusalReason) :
    SameBut [.refusals, .reports] s (s.recordRefusal tag l why) := by
  have hadm : ∀ (u : State) (f : Admission → Admission),
      (∀ a, (f a).cache = a.cache ∧ (f a).agingTimer = a.agingTimer ∧ (f a).slots = a.slots ∧
        (f a).queryCounter = a.queryCounter) → SameBut [.refusals, .reports] u (u.onAdm f) := fun u f hf =>
    (u.onAdm_refusals f hf).mono (by decide)
  unfold State.recordRefusal
  split
  · exact hadm s _ (fun _ => ⟨rfl, rfl, rfl, rfl⟩)
  · split
    · exact hadm s _ (fun _ => ⟨rfl, rfl, rfl, rfl⟩)
    · simp only
      split
      · refine SameBut.then (qs := [.refusals, .reports]) ?_ (hadm _ _ (fun _ => ⟨rfl, rfl, rfl, rfl⟩))
        exact hadm s _ (fun _ => ⟨rfl, rfl, rfl, rfl⟩)
      · refine SameBut.then ?_ (State.report_same _ _)
        exact hadm s _ (fun _ => ⟨rfl, rfl, rfl, rfl⟩)

theorem State.refuseVehicle_same (s : State) (l : LaneNo) (tag : Word) (why : RefusalReason) :
    SameBut [.refusals, .lanes, .reports] s (s.refuseVehicle l tag why) :=
  (((s.recordRefusal_same tag l why).mono (by decide)).then (State.onLane_same _ l _)).then
    (State.enterState_same _ l _ _)

theorem State.refuseVehicle_lane (h : (s.lane l).state ≠ .refused) (tag : Word) (why : RefusalReason) :
    ((s.refuseVehicle l tag why).lane l).state = .refused ∧
      ((s.refuseVehicle l tag why).lane l).lastReason = some (.refusal why) ∧
      ((s.refuseVehicle l tag why).lane l).query = (s.lane l).query := by
  have hrec := (s.recordRefusal_same tag l why).lane l
  have hlane : ((s.recordRefusal tag l why).onLane l (fun n => { n with lastReason := some (.refusal why) })).lane l =
      { s.lane l with lastReason := some (.refusal why) } := by
    rw [State.onLane_lane, hrec]
  unfold State.refuseVehicle
  simp only
  rw [State.enterState_lane (by rw [hlane]; exact h), hlane]
  exact ⟨rfl, rfl, rfl⟩

/-! ### A held answer taken up (R137, R141) -/

/-- The slot of the lane takes a state in which its query has ended, and the lane has no query. -/
def State.queryEnded (s : State) (l : LaneNo) (f : QuerySlot → QuerySlot) : State :=
  (s.onSlot l f).onLane l (fun n => { n with query := none })

/-- The slot of the lane is free again and the lane has no query. -/
def State.answered (s : State) (l : LaneNo) : State := s.queryEnded l (fun _ => .vacant)

theorem State.onSlot_same (s : State) (l : LaneNo) (f : QuerySlot → QuerySlot) : SameBut [.queries] s (s.onSlot l f) := by
  intro p hp
  cases p <;> simp [Part.same, State.voiced, State.onSlot] at hp ⊢

theorem State.queryEnded_same (s : State) (l : LaneNo) (f : QuerySlot → QuerySlot) :
    SameBut [.queries, .lanes] s (s.queryEnded l f) :=
  ((s.onSlot_same l f).mono (by decide)).then (State.onLane_same _ l _)

theorem State.queryEnded_lane (s : State) (l : LaneNo) (f : QuerySlot → QuerySlot) :
    (s.queryEnded l f).lane l = { s.lane l with query := none } :=
  State.onLane_lane (s.onSlot l f) l (fun n => { n with query := none })

theorem State.queryEnded_slot (s : State) (l m : LaneNo) (f : QuerySlot → QuerySlot) :
    (s.queryEnded l f).slot m = if l = m then f (s.slot m) else s.slot m := by
  have h : (s.queryEnded l f).slot m = (s.onSlot l f).slot m := (State.onLane_same _ l _).slot m
  rw [h, State.onSlot_slot_at]

theorem State.takeUpSlot_answer {a : Answer} (h : (s.slot l).state = .active) (ha : (s.slot l).held = some a) :
    s.takeUpSlot l = (s.decideByAnswer l a).1 := by
  simp [State.takeUpSlot, h, ha]

theorem State.takeUpSlot_expired (h : (s.slot l).state = .active) (ha : (s.slot l).held = none)
    (hd : (s.slot l).deadline = .expired) : s.takeUpSlot l = s.queryTimedOut l := by
  simp [State.takeUpSlot, h, ha, hd]

theorem State.queryTimedOut_refused (hf : (s.config l).fallback = .refuse) :
    s.queryTimedOut l = (s.queryEnded l QuerySlot.timedOut).refuseVehicle l (s.slot l).tag .queryTimeout := by
  have hx : s.queryTimedOut l = (s.queryEnded l QuerySlot.timedOut).fallBack l (s.slot l) := rfl
  have hc : ((s.queryEnded l QuerySlot.timedOut).config l).fallback = .refuse := hf
  simp only [hx, State.fallBack, hc]

theorem State.takeUpSlot_running (ha : (s.slot l).held = none) (hd : (s.slot l).deadline ≠ .expired) :
    s.takeUpSlot l = s := by
  simp [State.takeUpSlot, ha, hd]

theorem State.decideByAnswer_unknown (s : State) (l : LaneNo) :
    (s.decideByAnswer l .unknownTag).1 = (s.answered l).refuseVehicle l (s.slot l).tag .unknownTag := rfl

theorem State.decideByAnswer_refused {p : Permit} {why : RefusalReason}
    (h : p.refuses (s.slot l).stream (s.stream (s.slot l).stream).minCharge = some why) :
    (s.decideByAnswer l (.entry p)).1 = (s.answered l).refuseVehicle l (s.slot l).tag why := by
  have hx : (s.decideByAnswer l (.entry p)) = (s.answered l).decideByPermit l (s.slot l).tag (s.slot l).stream p := rfl
  have hr : p.refuses (s.slot l).stream ((s.answered l).stream (s.slot l).stream).minCharge = some why := h
  simp only [hx, State.decideByPermit, hr]

/-- What a permit that refuses nothing asks of the visit table. -/
def Permit.admission (p : Permit) (q : QuerySlot) : Admitted :=
  { tag := q.tag, account := p.account, stream := q.stream, storedTare := p.storedTare, provisional := false }

theorem State.decideByAnswer_admitted {p : Permit}
    (h : p.refuses (s.slot l).stream (s.stream (s.slot l).stream).minCharge = none) :
    (s.decideByAnswer l (.entry p)).1 = ((s.answered l).createVisit l (p.admission (s.slot l))).1 := by
  have hx : (s.decideByAnswer l (.entry p)) = (s.answered l).decideByPermit l (s.slot l).tag (s.slot l).stream p := rfl
  have hr : p.refuses (s.slot l).stream ((s.answered l).stream (s.slot l).stream).minCharge = none := h
  simp only [hx, State.decideByPermit, hr]
  rfl

end

/-! ### The visit that an admitted vehicle gets (R119) -/

theorem mem_insertVisit_self (v : Visit) (xs : List Visit) : v ∈ insertVisit v xs :=
  (insertVisit_perm v xs).mem_iff.mpr List.mem_cons_self

/-- The only lane that joins those waiting is the only one that waits. -/
theorem joined_empty {g : Grant} (h : g.waiting = []) (l : LaneNo) : (g.joined l).waiting = [l] := by
  have hl : ∀ l : LaneNo, allFour.filter (fun x => x == l || ([] : List LaneNo).contains x) = [l] := by decide
  rw [Grant.joined, h]
  exact hl l

section
variable {s : State} {l : LaneNo}

/-- The items of a lane that serves its vehicle on towards the bridge. -/
def Lane.Serves (n : Lane) (visit : Option Nat) (query : Option Nat) : Prop :=
  n.visit = visit ∧ n.query = query

theorem State.raiseFront_serves {v q : Option Nat} (h : (s.lane l).Serves v q) : ((s.raiseFront l).lane l).Serves v q := by
  unfold State.raiseFront
  split
  · exact h
  · next b _ =>
    have hb := (s.onBarrier_same b (Barrier.raise s.motionTime)).lane l
    rw [State.onLane_lane, show (s.commandRaise b).lane l = s.lane l from hb]
    exact h

/-- The front barrier raised for the lane's vehicle and the entry timer started, before the lane is in ENTERING. -/
def State.raisedFor (s : State) (l : LaneNo) : State :=
  let s := s.onLane l (fun n => { n with entered := false })
  let s := s.raiseFront l
  s.onLane l (fun n => { n with entryTimer := .running s.entryTime })

theorem State.raisedFor_serves {v q : Option Nat} (h : (s.lane l).Serves v q) : ((s.raisedFor l).lane l).Serves v q := by
  have h1 : ((s.onLane l (fun n => { n with entered := false })).lane l).Serves v q := by
    rw [State.onLane_lane]
    exact h
  have h2 := State.raiseFront_serves h1
  unfold State.raisedFor
  simp only
  rw [State.onLane_lane]
  exact h2

theorem State.enterEntering_serves {v q : Option Nat} (h : (s.lane l).Serves v q) :
    ((s.enterEntering l).lane l).Serves v q ∧ ((s.enterEntering l).lane l).state = .entering := by
  have hr := State.raisedFor_serves h
  have hx : s.enterEntering l = (s.raisedFor l).enterState l .entering none := rfl
  rw [hx]
  by_cases hs : ((s.raisedFor l).lane l).state = .entering
  · rw [State.enterState_stays hs]
    exact ⟨hr, hs⟩
  · rw [State.enterState_lane hs]
    exact ⟨hr, rfl⟩

/-- A decision for the only lane that waits leaves it waiting, with or without the grant, or lets it enter. -/
theorem State.decideGrant_serves {b : BridgeNo} {v q : Option Nat} (hw : (s.grant b).waiting = [l])
    (hl : (s.lane l).state = .awaitBridge) (h : (s.lane l).Serves v q) :
    ((s.decideGrant b).lane l).Serves v q ∧
      (((s.decideGrant b).lane l).state = .awaitBridge ∨ ((s.decideGrant b).lane l).state = .entering) := by
  by_cases hg : s.Grantable b
  · rw [State.decideGrant_given hg (.inl hw)]
    unfold State.giveGrant
    simp only
    split
    · obtain ⟨hv, hs⟩ := State.enterEntering_serves (s := s.onGrant b (fun g => g.given l)) (l := l) (by exact h)
      exact ⟨hv, .inr hs⟩
    · exact ⟨h, .inl hl⟩
  · rw [State.decideGrant_withheld (.inl hg)]
    exact ⟨h, .inl hl⟩

theorem State.requestGrant_same (s : State) (l : LaneNo) :
    SameBut [.grants, .barriers, .lanes, .reports] s (s.requestGrant l) := by
  unfold State.requestGrant
  split
  · exact .refl s _
  · exact ((s.onGrant_same _ _).mono (by decide)).then (State.decideGrant_same _ _)

theorem State.requestGrant_serves {v q : Option Nat} (hn : ∀ b : BridgeNo, (s.grant b).waiting = [])
    (hl : (s.lane l).state = .awaitBridge) (h : (s.lane l).Serves v q) :
    ((s.requestGrant l).lane l).Serves v q ∧
      (((s.requestGrant l).lane l).state = .awaitBridge ∨ ((s.requestGrant l).lane l).state = .entering) := by
  unfold State.requestGrant
  split
  · exact ⟨h, .inl hl⟩
  · next b _ =>
    refine State.decideGrant_serves ?_ hl h
    rw [State.onGrant_grant]
    exact joined_empty (hn b) l

theorem State.enterAwaitBridge_same (s : State) (l : LaneNo) (n : Nat) :
    SameBut [.grants, .barriers, .lanes, .reports] s (s.enterAwaitBridge l n) :=
  ((((s.onLane_same l _).mono (by decide)).then (State.enterState_same _ l _ _))).then (State.requestGrant_same _ l)

theorem State.enterAwaitBridge_serves {n : Nat} {q : Option Nat} (hn : ∀ b : BridgeNo, (s.grant b).waiting = [])
    (hq : (s.lane l).query = q) :
    ((s.enterAwaitBridge l n).lane l).Serves (some n) q ∧
      (((s.enterAwaitBridge l n).lane l).state = .awaitBridge ∨ ((s.enterAwaitBridge l n).lane l).state = .entering) := by
  have hlane : (s.onLane l (fun x => { x with visit := some n })).lane l = { s.lane l with visit := some n } :=
    s.onLane_lane l (fun x => { x with visit := some n })
  have hstate : (((s.onLane l (fun x => { x with visit := some n })).enterState l .awaitBridge none).lane l).state =
      .awaitBridge ∧
      (((s.onLane l (fun x => { x with visit := some n })).enterState l .awaitBridge none).lane l).Serves (some n) q := by
    by_cases hs : ((s.onLane l (fun x => { x with visit := some n })).lane l).state = .awaitBridge
    · rw [State.enterState_stays hs]
      refine ⟨hs, ?_⟩
      rw [hlane]
      exact ⟨rfl, hq⟩
    · rw [State.enterState_lane hs, hlane]
      exact ⟨rfl, rfl, hq⟩
  refine State.requestGrant_serves (fun b => ?_) hstate.1 hstate.2
  rw [(State.enterState_same _ l _ _).grant b]
  exact hn b

/-! ### The three outcomes of a creation (R119) -/

theorem State.createVisit_onSite {a : Admitted} (h : (s.visitOfTag a.tag).isSome = true) :
    (s.createVisit l a).1 = s.refuseVehicle l a.tag .alreadyOnSite := by
  simp [State.createVisit, h]

theorem State.createVisit_full {a : Admitted} (h : s.visitOfTag a.tag = none) (hf : 64 ≤ s.ret.visits.records.length)
    (hl : s.siteFull = []) :
    (s.createVisit l a).1 = State.enterState { s with siteFull := [l] } l .siteFull none := by
  simp [State.createVisit, h, State.tableFull, hf, State.joinSiteFull, hl]

/-- The number of the visit that the table creates next. -/
def State.nextVisit (s : State) : Nat := s.ret.visits.freeNumber s.ret.visits.records.length s.ret.visits.counter

theorem State.createVisit_new {a : Admitted} (h : s.visitOfTag a.tag = none) (hf : s.ret.visits.records.length < 64) :
    (s.createVisit l a).1 =
      (s.onVisits (fun t =>
        { t with records := insertVisit (a.visit s.nextVisit l s.ret.clock) t.records,
                 counter := succVisit s.nextVisit })).enterAwaitBridge l s.nextVisit := by
  have hn : s.tableFull = false := by
    unfold State.tableFull
    simpa using hf
  simp [State.createVisit, h, hn, State.nextVisit]

end

end Sys2Proof.Machine
end

-- ==== Proofs of family 01: power comes and goes ====
section
/-! The parts of O60 put together: what one lane, one bridge or one ticket missed, and the two supplies. -/

namespace Sys2Proof.Machine

/-! ### A query taken up at the deassertion (R141) -/

section
variable {s : State} {l : LaneNo}

/-- With one lane at work in ADMITTING, the deassertion is the taking up of its slot. -/
theorem State.OnlyLane.takesUp (hp : s.powered = true) (hf : s.powerFail.filter ≠ none) (ho : s.OnlyLane l)
    (hl : (s.lane l).state = .admitting) (ha : s.approachOccupied l = true) {x : State}
    (hx : s.deasserted.takeUpSlot l = x) (hm : ∀ m : LaneNo, m ≠ l → x.slot m = s.slot m)
    (hv : x.ret.visits.order = []) : exec .powerFailDeassert s = .next x.seal.transmit := by
  have hstay : s.deasserted.retest l = s.deasserted := State.retest_admitting hl ha
  have hr : s.deasserted.retests = s.deasserted := by
    rw [State.retests_only (s := s.deasserted) (l := l) (fun m hne => (ho.others m hne).1)
      (by rw [hstay]; exact fun m hne => (ho.others m hne).1), hstay]
  have ht : s.deasserted.takeUpSlots = x := by
    rw [← hx]
    refine forEach_single (mem_allFour l) allFour_nodup (fun m hne => State.takeUpSlot_inactive (ho.others m hne).2)
      (fun m hne => State.takeUpSlot_inactive ?_)
    rw [hx, hm m hne]
    exact (ho.others m hne).2
  rw [exec_powerFailDeassert hp hf, hr, State.decideGrants_idle (by exact ho.grants), ht, State.drain_idle (.inl hv)]

/-- The query ends with a refusal of its vehicle. -/
theorem State.OnlyLane.refuses (hp : s.powered = true) (hf : s.powerFail.filter ≠ none) (ho : s.OnlyLane l)
    (hl : (s.lane l).state = .admitting) (ha : s.approachOccupied l = true) {f : QuerySlot → QuerySlot} {tag : Word}
    {why : RefusalReason}
    (hx : s.deasserted.takeUpSlot l = (s.deasserted.queryEnded l f).refuseVehicle l tag why) :
    ∃ t, exec .powerFailDeassert s = .next t ∧ (t.lane l).state = .refused ∧
      (t.lane l).lastReason = some (.refusal why) ∧ (t.lane l).query = none ∧ t.slot l = f (s.slot l) ∧
      SameBut [.powerFail, .lanes, .queries, .refusals, .reports, .checkWord] s t := by
  have hend := (s.deasserted.queryEnded_same l f).mono (qs := [.queries, .lanes, .refusals, .reports]) (by decide)
  have hsame := hend.then ((s.deasserted.queryEnded l f).refuseVehicle_same l tag why)
  have hslot : ∀ m, ((s.deasserted.queryEnded l f).refuseVehicle l tag why).slot m =
      if l = m then f (s.slot m) else s.slot m := fun m => by
    rw [(State.refuseVehicle_same _ l tag why).slot m, State.queryEnded_slot]
    rfl
  have hlane := s.deasserted.queryEnded_lane l f
  obtain ⟨hstate, hreason, hquery⟩ := State.refuseVehicle_lane (s := s.deasserted.queryEnded l f) (l := l)
    (by rw [hlane, show (s.deasserted.lane l).state = .admitting from hl]; decide) tag why
  have hfin := (State.seal_same ((s.deasserted.queryEnded l f).refuseVehicle l tag why)).transmit
  refine ⟨_, ho.takesUp hp hf hl ha hx (fun m hne => ?_) ?_, ?_, ?_, ?_, ?_,
    (State.deassert_frame hsame).mono (by decide)⟩
  · rw [hslot, if_neg (Ne.symm hne)]
  · rw [show ((s.deasserted.queryEnded l f).refuseVehicle l tag why).ret.visits = _ from hsame .visits (by decide)]
    exact ho.order
  · rw [hfin.lane l]
    exact hstate
  · rw [hfin.lane l]
    exact hreason
  · rw [hfin.lane l, hquery, hlane]
  · rw [hfin.slot l, hslot, if_pos rfl]

/-- A permit that refuses, or that finds its tag on a visit. -/
theorem State.OnlyLane.refusesByPermit (hp : s.powered = true) (hf : s.powerFail.filter ≠ none) (ho : s.OnlyLane l)
    (hl : (s.lane l).state = .admitting) (hs : (s.slot l).state = .active) (ha : s.approachOccupied l = true) {p : Permit}
    (hh : (s.slot l).held = some (.entry p)) {why : RefusalReason}
    (h : p.refuses (s.slot l).stream (s.stream (s.slot l).stream).minCharge = some why ∨
      (p.refuses (s.slot l).stream (s.stream (s.slot l).stream).minCharge = none ∧
        (s.visitOfTag (s.slot l).tag).isSome = true ∧ why = .alreadyOnSite)) :
    ∃ t, exec .powerFailDeassert s = .next t ∧ (t.lane l).state = .refused ∧
      (t.lane l).lastReason = some (.refusal why) ∧ (t.lane l).query = none ∧ (t.slot l).state = .free ∧
      SameBut [.powerFail, .lanes, .queries, .refusals, .reports, .checkWord] s t := by
  have hx : s.deasserted.takeUpSlot l = (s.deasserted.answered l).refuseVehicle l (s.slot l).tag why := by
    rw [State.takeUpSlot_answer (by exact hs) (by exact hh)]
    rcases h with h | ⟨h, hv, rfl⟩
    · exact State.decideByAnswer_refused h
    · rw [State.decideByAnswer_admitted (by exact h)]
      exact State.createVisit_onSite (by exact hv)
  obtain ⟨t, ht, h1, h2, h3, h4, h5⟩ := ho.refuses hp hf hl ha hx
  exact ⟨t, ht, h1, h2, h3, congrArg QuerySlot.state h4, h5⟩

end

theorem Permit.refuses_some (p : Permit) (k : StreamNo) (n : Nat) (why : RefusalReason)
    (h : (p.stopped = true ∧ why = .accountStopped) ∨
      (p.stopped = false ∧ p.streams.getLsbD k.val = false ∧ why = .streamNotPermitted) ∨
      (p.stopped = false ∧ p.streams.getLsbD k.val = true ∧ p.credit < n ∧ why = .credit)) :
    p.refuses k n = some why := by
  unfold Permit.refuses
  rcases h with ⟨h, rfl⟩ | ⟨h, hk, rfl⟩ | ⟨h, hk, hc, rfl⟩
  · rw [if_pos h]
  · rw [if_neg (by rw [h]; exact Bool.false_ne_true), if_pos hk]
  · rw [if_neg (by rw [h]; exact Bool.false_ne_true), if_neg (by rw [hk]; decide), if_pos hc]

theorem Permit.refuses_none {p : Permit} {k : StreamNo} {n : Nat} (h : p.stopped = false)
    (hk : p.streams.getLsbD k.val = true) (hc : (n : Int) ≤ p.credit) : p.refuses k n = none := by
  unfold Permit.refuses
  rw [if_neg (by rw [h]; exact Bool.false_ne_true), if_neg (by rw [hk]; decide), if_neg (by omega)]

section
variable {s : State} {l : LaneNo} {p : Permit}

/-- The tag finds no free record: the lane waits at the head of an empty SITE_FULL list. -/
theorem State.OnlyLane.joinsSiteFull (hp : s.powered = true) (hf : s.powerFail.filter ≠ none) (ho : s.OnlyLane l)
    (hl : (s.lane l).state = .admitting) (hs : (s.slot l).state = .active) (ha : s.approachOccupied l = true)
    (hh : (s.slot l).held = some (.entry p))
    (h : p.refuses (s.slot l).stream (s.stream (s.slot l).stream).minCharge = none)
    (hv : s.visitOfTag (s.slot l).tag = none) (hn : 64 ≤ s.ret.visits.records.length) :
    ∃ t, exec .powerFailDeassert s = .next t ∧ (t.lane l).state = .siteFull ∧ t.siteFull = [l] ∧
      (t.lane l).query = none ∧ (t.slot l).state = .free ∧
      SameBut [.powerFail, .lanes, .queries, .siteFull, .reports, .checkWord] s t := by
  have hx : s.deasserted.takeUpSlot l =
      State.enterState { s.deasserted.answered l with siteFull := [l] } l .siteFull none := by
    rw [State.takeUpSlot_answer (by exact hs) (by exact hh), State.decideByAnswer_admitted (by exact h)]
    exact State.createVisit_full (by exact hv) hn ho.list
  have hlane : State.lane { s.deasserted.answered l with siteFull := [l] } l = { s.lane l with query := none } :=
    s.deasserted.queryEnded_lane l (fun _ => .vacant)
  have hans : SameBut [.queries, .lanes, .siteFull, .reports] s.deasserted { s.deasserted.answered l with siteFull := [l] } :=
    ((s.deasserted.queryEnded_same l (fun _ => .vacant)).mono (by decide)).then (State.siteFull_same _ [l])
  have hsame := hans.then (State.enterState_same { s.deasserted.answered l with siteFull := [l] } l .siteFull none)
  have hslot : ∀ m, (State.enterState { s.deasserted.answered l with siteFull := [l] } l .siteFull none).slot m =
      if l = m then .vacant else s.slot m := fun m => by
    rw [(State.enterState_same _ l .siteFull none).slot m]
    exact s.deasserted.queryEnded_slot l m (fun _ => .vacant)
  have hstate := State.enterState_lane (s := { s.deasserted.answered l with siteFull := [l] }) (l := l) (st := .siteFull)
    (by rw [hlane, show ({ s.lane l with query := none } : Lane).state = .admitting from hl]; decide) none
  rw [hlane] at hstate
  have hfin := (State.seal_same (State.enterState { s.deasserted.answered l with siteFull := [l] } l .siteFull none)).transmit
  refine ⟨_, ho.takesUp hp hf hl ha hx (fun m hne => ?_) ?_, ?_, ?_, ?_, ?_,
    (State.deassert_frame hsame).mono (by decide)⟩
  · rw [hslot, if_neg (Ne.symm hne)]
  · rw [show (State.enterState { s.deasserted.answered l with siteFull := [l] } l .siteFull none).ret.visits = _ from
      hsame .visits (by decide)]
    exact ho.order
  · rw [hfin.lane l, hstate]
    rfl
  · rw [show _ = _ from hfin .siteFull (by decide)]
    exact State.enterState_same { s.deasserted.answered l with siteFull := [l] } l .siteFull none .siteFull (by decide)
  · rw [hfin.lane l, hstate]
    rfl
  · rw [hfin.slot l, hslot, if_pos rfl]
    rfl

/-- The vehicle is admitted: its visit is created and its lane requests the bridge. -/
theorem State.OnlyLane.admits (hp : s.powered = true) (hf : s.powerFail.filter ≠ none) (ho : s.OnlyLane l)
    (hl : (s.lane l).state = .admitting) (hs : (s.slot l).state = .active) (ha : s.approachOccupied l = true)
    (hh : (s.slot l).held = some (.entry p))
    (h : p.refuses (s.slot l).stream (s.stream (s.slot l).stream).minCharge = none)
    (hv : s.visitOfTag (s.slot l).tag = none) (hn : s.ret.visits.records.length < 64) :
    ∃ t, exec .powerFailDeassert s = .next t ∧
      (p.admission (s.slot l)).visit s.nextVisit l s.ret.clock ∈ t.ret.visits.records ∧ (t.slot l).state = .free ∧
      (t.lane l).Serves (some s.nextVisit) none ∧
      ((t.lane l).state = .awaitBridge ∨ (t.lane l).state = .entering) ∧
      SameBut [.powerFail, .lanes, .barriers, .grants, .visits, .queries, .reports, .checkWord] s t := by
  obtain ⟨y, hy⟩ : ∃ y, y = (s.deasserted.answered l).onVisits (fun t =>
      { t with records := insertVisit ((p.admission (s.slot l)).visit s.nextVisit l s.ret.clock) t.records,
               counter := succVisit s.nextVisit }) := ⟨_, rfl⟩
  have hx : s.deasserted.takeUpSlot l = y.enterAwaitBridge l s.nextVisit := by
    rw [State.takeUpSlot_answer (by exact hs) (by exact hh), State.decideByAnswer_admitted (by exact h), hy]
    exact State.createVisit_new (by exact hv) hn
  have hys : SameBut [.queries, .lanes, .visits] s.deasserted y := by
    rw [hy]
    exact ((s.deasserted.queryEnded_same l (fun _ => .vacant)).mono (by decide)).then (State.onVisits_same _ _)
  have hend := y.enterAwaitBridge_same l s.nextVisit
  have hrecords : y.ret.visits.records =
      insertVisit ((p.admission (s.slot l)).visit s.nextVisit l s.ret.clock) s.ret.visits.records := by rw [hy]; rfl
  have horder : y.ret.visits.order = [] := by
    rw [hy]
    exact ho.order
  have hquery : (y.lane l).query = none := by
    have hyl : y.lane l = (s.deasserted.answered l).lane l := by rw [hy]; rfl
    rw [hyl]
    exact congrArg Lane.query (s.deasserted.queryEnded_lane l (fun _ => .vacant))
  have hslot : ∀ m, (y.enterAwaitBridge l s.nextVisit).slot m = if l = m then .vacant else s.slot m := fun m => by
    have hym : y.slot m = (s.deasserted.answered l).slot m := by rw [hy]; rfl
    rw [hend.slot m, hym]
    exact s.deasserted.queryEnded_slot l m (fun _ => .vacant)
  obtain ⟨hserves, hstate⟩ := State.enterAwaitBridge_serves (s := y) (l := l) (n := s.nextVisit) (q := none)
    (fun b => by rw [hys.grant b]; exact ho.grants b) hquery
  have hsame : SameBut [.lanes, .barriers, .grants, .visits, .queries, .reports] s.deasserted
      (y.enterAwaitBridge l s.nextVisit) := (hys.mono (by decide)).then hend
  have hvisits : (y.enterAwaitBridge l s.nextVisit).ret.visits = y.ret.visits := hend .visits (by decide)
  have hfin := (State.seal_same (y.enterAwaitBridge l s.nextVisit)).transmit
  refine ⟨_, ho.takesUp hp hf hl ha hx (fun m hne => ?_) (by rw [hvisits, horder]), ?_, ?_, ?_, ?_,
    (State.deassert_frame hsame).mono (by decide)⟩
  · rw [hslot, if_neg (Ne.symm hne)]
  · rw [show _ = _ from hfin .visits (by decide), hvisits, hrecords]
    exact mem_insertVisit_self _ _
  · rw [hfin.slot l, hslot, if_pos rfl]
    rfl
  · rw [hfin.lane l]
    exact hserves
  · rw [hfin.lane l]
    exact hstate

end

/-! ### A bridge and a ticket taken up at the deassertion (R104, R168) -/

section
variable {s : State}

/-- The lanes missed nothing: those that wait for a bridge still have their vehicle and no grant, the others are in
MANUAL, and no query is ACTIVE. -/
structure State.LanesUnmoved (s : State) : Prop where
  lanes : ∀ m : LaneNo, ((s.lane m).state = .awaitBridge ∧ s.approachOccupied m = true ∧ (s.slot m).state ≠ .active) ∨
    ((s.lane m).state = .manual ∧ (s.slot m).state ≠ .active)
  held  : ∀ (m : LaneNo) (o : BridgeNo), (s.lane m).state = .awaitBridge → (s.grant o).holder ≠ some m

theorem State.LanesUnmoved.slots (h : s.LanesUnmoved) (m : LaneNo) : (s.slot m).state ≠ .active := by
  rcases h.lanes m with ⟨_, _, hs⟩ | ⟨_, hs⟩
  · exact hs
  · exact hs

theorem State.LanesUnmoved.retests (h : s.LanesUnmoved) : s.deasserted.retests = s.deasserted := by
  refine forEach_eq_self (fun m _ => ?_)
  rcases h.lanes m with ⟨hm, ha, _⟩ | ⟨hm, _⟩
  · have hg : ¬ s.deasserted.holdsGrant m = true := fun hg => by
      obtain ⟨o, hh⟩ := State.holdsGrant_iff.mp hg
      exact h.held m o hm hh
    rw [State.retest_awaitBridge (by exact hm) (by exact ha), if_neg hg]
  · exact State.retest_manual hm

theorem State.LanesUnmoved.of_manual (h : ∀ l : LaneNo, (s.lane l).state = .manual ∧ (s.slot l).state ≠ .active) :
    s.LanesUnmoved :=
  ⟨fun m => .inr (h m), fun m o hm => by
    rw [(h m).1] at hm
    cases hm⟩

/-- Where the lanes missed nothing and one bridge alone is waited for, the deassertion is that bridge's decision. -/
theorem State.LanesUnmoved.decides (hp : s.powered = true) (hf : s.powerFail.filter ≠ none) (h : s.LanesUnmoved)
    (ho : s.ret.visits.order = []) {b : BridgeNo} (hw : ∀ o : BridgeNo, o ≠ b → (s.grant o).waiting = [])
    (hk : ∀ o : BridgeNo, o ≠ b → (s.deasserted.decideGrant b).grant o = s.grant o) :
    exec .powerFailDeassert s = .next (s.deasserted.decideGrant b).seal.transmit := by
  have hd : s.deasserted.decideGrants = s.deasserted.decideGrant b :=
    forEach_single (f := fun b s => s.decideGrant b) (mem_allFour b) allFour_nodup
      (fun o hne => State.decideGrant_withheld (.inr (hw o hne)))
      (fun o hne => State.decideGrant_withheld (.inr (by rw [hk o hne]; exact hw o hne)))
  have hsame := s.deasserted.decideGrant_same b
  have hslots : ∀ l, ((s.deasserted.decideGrant b).slot l).state ≠ .active := fun l => by
    rw [hsame.slot l]
    exact h.slots l
  rw [exec_powerFailDeassert hp hf, h.retests, hd, State.takeUpSlots_idle hslots, State.drain_idle (.inl ?_)]
  rw [show (s.deasserted.decideGrant b).ret.visits = _ from hsame .visits (by decide)]
  exact ho

theorem State.deasserted_grantable {b : BridgeNo} : s.deasserted.Grantable b ↔ s.Grantable b :=
  State.Grantable.congr rfl rfl rfl rfl rfl rfl rfl

/-- The lane that the decision chooses enters its bridge (R105, R106). -/
theorem State.LanesUnmoved.grants (hp : s.powered = true) (hf : s.powerFail.filter ≠ none) (h : s.LanesUnmoved)
    (ho : s.ret.visits.order = []) {b : BridgeNo} {l : LaneNo} {f : BarrierNo}
    (hw : ∀ o : BridgeNo, o ≠ b → (s.grant o).waiting = []) (hl : (s.lane l).state = .awaitBridge)
    (hfr : (s.config l).front = some f) (hc : (s.grant b).Chooses l) (hg : s.Grantable b) :
    ∃ t, exec .powerFailDeassert s = .next t ∧ EntersByGrant s t b l f ∧
      SameBut [.powerFail, .grants, .lanes, .barriers, .reports, .checkWord] s t := by
  have hgive := State.giveGrant_entersByGrant (s := s.deasserted) (b := b) (l := l) (f := f) rfl hl hfr
  have hd : s.deasserted.decideGrant b = s.deasserted.giveGrant b l :=
    State.decideGrant_given (State.deasserted_grantable.mpr hg) hc
  have hfin := (State.seal_same (s.deasserted.giveGrant b l)).transmit
  refine ⟨_, h.decides hp hf ho hw (fun o hne => ?_), ?_, ?_⟩
  · rw [hd]
    exact hgive.2.2.2.2.2 o hne
  · rw [hd]
    exact hgive.of_same rfl rfl rfl rfl (hfin .lanes (by decide)) (hfin .barriers (by decide))
      (hfin .grants (by decide))
  · rw [hd]
    exact (State.deassert_frame (s.deasserted.giveGrant_same b l)).mono (by decide)

theorem State.LanesUnmoved.withholds (hp : s.powered = true) (hf : s.powerFail.filter ≠ none) (h : s.LanesUnmoved)
    (ho : s.ret.visits.order = []) {b : BridgeNo} (hw : ∀ o : BridgeNo, o ≠ b → (s.grant o).waiting = [])
    (hg : ¬ s.Grantable b ∨ (s.grant b).waiting = []) :
    ∃ t, exec .powerFailDeassert s = .next t ∧ SameBut [.powerFail, .checkWord] s t := by
  have hd : s.deasserted.decideGrant b = s.deasserted :=
    State.decideGrant_withheld (s := s.deasserted) (hg.imp_left (fun hg k => hg (State.deasserted_grantable.mp k)))
  refine ⟨_, h.decides hp hf ho hw (fun o _ => by rw [hd]; rfl), ?_⟩
  rw [hd]
  exact (State.deassert_frame (SameBut.refl s.deasserted [])).mono (by decide)

/-- A pending ticket issues at the deassertion (R168). -/
theorem State.LanesUnmoved.issues (hp : s.powered = true) (hf : s.powerFail.filter ≠ none)
    (h : ∀ l : LaneNo, (s.lane l).state = .manual ∧ (s.slot l).state ≠ .active)
    (hw : ∀ b : BridgeNo, (s.grant b).waiting = []) {m : Nat} {v : Visit} {body : TicketBody}
    (ho : s.ret.visits.order = [m]) (hv : s.visitOf m = some v) (hb : v.pending = some body)
    (hh : s.ret.journal.held = false) (hj : s.ret.journal.tickets.length < 240) :
    ∃ t, exec .powerFailDeassert s = .next t ∧ t.ret.visits.order = [] ∧
      t.ret.journal =
        { tickets := s.ret.journal.tickets ++ [s.issuedTicket body],
          counter := succSkipZero s.ret.journal.counter, held := false } ∧
      t.visitOf m =
        some { v with state := .ticketed, pending := none, ticketNumber := some s.ret.journal.counter } := by
  have hu := State.LanesUnmoved.of_manual h
  obtain ⟨horder, hjournal, hvisit⟩ := State.drain_issues (s := s.deasserted) (m := m) (v := v) (body := body)
    (fun l hl => by
      rw [show s.deasserted.lane l = s.lane l from rfl, (h l).1] at hl
      cases hl) ho rfl hh hj hv hb
  have hx : exec .powerFailDeassert s = .next (s.deasserted.drain.seal).transmit := by
    rw [exec_powerFailDeassert hp hf, hu.retests, State.decideGrants_idle (by exact hw),
      State.takeUpSlots_idle (by exact hu.slots)]
  refine ⟨_, hx, ?_, ?_, ?_⟩
  · rw [State.transmit_ret, State.seal_visits, horder]
  · rw [State.transmit_ret, State.seal_journal, hjournal]
    rfl
  · rw [State.visitOf, State.transmit_ret, State.seal_visits]
    exact hvisit

end

end Sys2Proof.Machine
end

-- ==== Proofs of family 01: power comes and goes, settled ====
section
/-! What each clause of O60 says, from the parts of the assertion and the deassertion, and the two supplies. -/

namespace Sys2Proof.Machine

/-! ### The assertion and the input (R182) -/

section
variable {s : State}

theorem State.captureCount_none (h : ∀ b : BridgeNo, (s.bridge b).capture = none) : s.captureCount = 0 := by
  simp [State.captureCount, h]

/-- An assertion in service (R54, R182). -/
theorem powerFailAssert_cancels (hp : s.powered = true) (hf : s.failing = false) :
    ∃ t, exec .powerFailAssert s = .next t ∧ t.powerFail = { asserted := true, filter := none } ∧
      t.pins = { s.pins with powerFail := true } ∧
      (∀ b : BridgeNo, t.bridge b = { s.bridge b with capture := none }) ∧
      (∀ l : LaneNo, (∀ b : BridgeNo, ∀ k : Capture, (s.bridge b).capture = some k → k.lane ≠ l) →
        t.lane l = s.lane l) ∧
      (∀ (b : BridgeNo) (k : Capture), (s.bridge b).capture = some k → (s.lane k.lane).state = .weighing →
        (t.lane k.lane).state = .captureFailed ∧ (t.lane k.lane).lastReason = some (.cancelled .powerFail)) ∧
      (∀ (b : BridgeNo) (k : Capture) (v : Visit), (s.bridge b).capture = some k → s.visitOf k.visit = some v →
        (v.state = .weighingIn → t.visitOf k.visit = some { v with state := .admitted }) ∧
          (v.state = .weighingOut → t.visitOf k.visit = some { v with state := .onSite })) ∧
      ((∀ b : BridgeNo, (s.bridge b).capture = none) → s.link.reports.length < 32 →
        t.voiced = s.voiced ++ [.powerFail s.ret.clock 0]) ∧
      SameBut [.pins, .powerFail, .bridges, .visits, .lanes, .reports, .checkWord] s t := by
  have hsame := s.powerLost.failCaptures_same
  have hfin := (((State.seal_same s.powerLost.failCaptures).mono (qs := [.checkWord, .reports]) (by decide)).then
    (State.report_same _ (.powerFail s.powerLost.failCaptures.ret.clock s.captureCount))).transmit
  refine ⟨_, exec_powerFailAssert hp hf, ?_, ?_, fun b => ?_, fun l hl => ?_, fun b k hk hw => ?_, fun b k v hk hv => ?_,
    fun hc hr => ?_, (((s.powerLost_same.mono (by decide)).then hsame).then hfin)⟩
  · rw [show _ = _ from hfin .powerFail (by decide), show _ = _ from hsame .powerFail (by decide)]
    rfl
  · rw [show _ = _ from hfin .pins (by decide), show _ = _ from hsame .pins (by decide)]
    rfl
  · rw [hfin.bridge b, State.failCaptures_bridge]
    rfl
  · rw [hfin.lane l, State.failCaptures_lane_free (by exact hl)]
    rfl
  · rw [hfin.lane k.lane]
    exact State.failCaptures_lane_weighing (by exact hk) (by exact hw)
  · have hvisit : v.state.returned.returned = v.state.returned →
        s.powerLost.failCaptures.visitOf k.visit = some { v with state := v.state.returned } := fun h =>
      State.failCaptures_visit (by exact hk) (by exact hv) h
    rw [hfin.visitOf k.visit]
    refine ⟨fun hs => ?_, fun hs => ?_⟩
    · rw [hvisit (by rw [hs]; rfl), hs]
      rfl
    · rw [hvisit (by rw [hs]; rfl), hs]
      rfl
  · rw [State.transmit_voiced, State.failCaptures_none (s := s.powerLost) (by exact hc), State.captureCount_none hc,
      State.report_voiced _ _ (by exact hr)]
    rfl

theorem powerFailAssert_again (hp : s.powered = true) (hf : s.failing = true) :
    ∃ t, exec .powerFailAssert s = .next t ∧ t.powerFail = { asserted := true, filter := none } ∧
      SameBut [.pins, .powerFail] s t :=
  ⟨_, exec_powerFailAssert_again hp hf, by rw [State.transmit_powerFail]; rfl, s.powerLost_same.transmit⟩

theorem powerFailInputInactive_filters (hp : s.powered = true) (hf : s.failing = true) :
    ∃ t, exec .powerFailInputInactive s = .next t ∧ t.pins = { s.pins with powerFail := false } ∧
      (s.powerFail.filter = none → t.powerFail = { asserted := true, filter := some 100 }) ∧
      (s.powerFail.filter ≠ none → t.powerFail = s.powerFail) ∧ SameBut [.pins, .powerFail] s t := by
  have ha : s.powerFail.asserted = true := hf
  refine ⟨_, exec_powerFailInputInactive hp, by rw [State.transmit_pins]; rfl, fun hn => ?_, fun hn => ?_,
    (((s.onPins_same _).mono (by decide)).then (State.powerFail_same _ s.powerFail.inputInactive)).transmit⟩
  · rw [State.transmit_powerFail, PowerFail.inputInactive, if_pos ⟨ha, hn⟩, ha]
  · rw [State.transmit_powerFail, PowerFail.inputInactive, if_neg (fun h => hn h.2)]

/-- A deassertion at which nothing was missed. -/
theorem powerFailDeassert_quiet (hp : s.powered = true) (hf : s.powerFail.filter ≠ none)
    (hl : ∀ l : LaneNo, (s.lane l).state = .manual ∧ (s.slot l).state ≠ .active)
    (hw : ∀ b : BridgeNo, (s.grant b).waiting = []) (ho : s.ret.visits.order = []) :
    ∃ t, exec .powerFailDeassert s = .next t ∧ t.powerFail = { asserted := false, filter := none } ∧
      SameBut [.powerFail, .checkWord] s t := by
  have hu := State.LanesUnmoved.of_manual hl
  have hx : exec .powerFailDeassert s = .next s.deasserted.seal.transmit := by
    rw [exec_powerFailDeassert hp hf, hu.retests,
      State.NothingLeft.restores (s := s.deasserted) ⟨hw, hu.slots, ho⟩]
  exact ⟨_, hx, by rw [State.transmit_powerFail]; rfl, (State.deassert_frame (.refl s.deasserted [])).mono (by decide)⟩

end

/-! ### What one lane missed (R99) -/

section
variable {s : State} {l : LaneNo}

/-- A lane that the deassertion sends to another state: it has the items `n` with the change of state made. -/
theorem State.OnlyLane.moves (hp : s.powered = true) (hf : s.powerFail.filter ≠ none) (ho : s.OnlyLane l)
    (hs : (s.slot l).state ≠ .active) {f : Lane → Lane} {st : LaneState}
    (hx : s.deasserted.retest l = (s.deasserted.onLane l f).enterState l st none) (hst : (f (s.lane l)).state ≠ st) :
    ∃ t, exec .powerFailDeassert s = .next t ∧ t.lane l = (f (s.lane l)).entering st s.identityTime ∧
      SameBut [.powerFail, .lanes, .reports, .checkWord] s t := by
  have hlane : (s.deasserted.onLane l f).lane l = f (s.lane l) := s.deasserted.onLane_lane l f
  have hsame : SameBut [.lanes, .reports] s.deasserted (s.deasserted.retest l) := by
    rw [hx]
    exact ((s.deasserted.onLane_same l f).mono (by decide)).then (State.enterState_same _ l st none)
  have hfin := (State.seal_same (s.deasserted.retest l)).transmit
  refine ⟨_, ho.deassert_same hp hf hs hsame (fun m hne => ?_), ?_, (State.deassert_frame hsame).mono (by decide)⟩
  · rw [hx, State.enterState_others _ hne, State.onLane_lane_ne _ _ (Ne.symm hne)]
    rfl
  · rw [hfin.lane l, hx, State.enterState_lane (by rw [hlane]; exact hst), hlane]
    rfl

theorem State.onLane_id (s : State) (l : LaneNo) : s.onLane l (fun n => n) = s := by
  simp [State.onLane, State.lane]

/-- The identity timer expired under power fail. -/
theorem State.OnlyLane.identityExpired (hp : s.powered = true) (hf : s.powerFail.filter ≠ none) (ho : s.OnlyLane l)
    (hs : (s.slot l).state ≠ .active) (hl : (s.lane l).state = .awaitId) (ht : (s.lane l).identityTimer = .expired)
    (ha : s.approachOccupied l = true) :
    ∃ t, exec .powerFailDeassert s = .next t ∧
      t.lane l = { s.lane l with state := .noId, signal := .red, identityTimer := .stopped } ∧
      SameBut [.powerFail, .lanes, .reports, .checkWord] s t := by
  have hx : s.deasserted.retest l = (s.deasserted.onLane l (fun n => n)).enterState l .noId none := by
    rw [State.onLane_id]
    exact State.retest_identityExpired hl ht ha
  obtain ⟨t, hexec, hlane, hsame⟩ := ho.moves hp hf hs hx (by rw [hl]; decide)
  refine ⟨t, hexec, hlane.trans ?_, hsame⟩
  simp [Lane.entering, signalFor, hl]

/-- The vehicle before entry has left. -/
theorem State.OnlyLane.left (hp : s.powered = true) (hf : s.powerFail.filter ≠ none) (ho : s.OnlyLane l)
    (hs : (s.slot l).state ≠ .active) (hl : (s.lane l).state = .noId ∨ (s.lane l).state = .refused)
    (ha : s.approachOccupied l = false) :
    ∃ t, exec .powerFailDeassert s = .next t ∧
      t.lane l = { s.lane l with state := .idle, signal := .red, identity := none, visit := none } ∧
      SameBut [.powerFail, .lanes, .reports, .checkWord] s t := by
  have hidle : (s.lane l).state ≠ .idle ∧ (s.lane l).state ≠ .awaitId := by
    rcases hl with h | h
    · rw [h]
      decide
    · rw [h]
      decide
  obtain ⟨t, hexec, hlane, hsame⟩ := ho.moves hp hf hs (State.retest_left (s := s.deasserted) hl ha) hidle.1
  refine ⟨t, hexec, hlane.trans ?_, hsame⟩
  simp [Lane.entering, signalFor, hidle.2]

/-- A vehicle has come to an IDLE lane. -/
theorem State.OnlyLane.arrived (hp : s.powered = true) (hf : s.powerFail.filter ≠ none) (ho : s.OnlyLane l)
    (hs : (s.slot l).state ≠ .active) (hl : (s.lane l).state = .idle) (hr : (s.config l).role ≠ .none)
    (ha : s.approachOccupied l = true) :
    ∃ t, exec .powerFailDeassert s = .next t ∧
      t.lane l =
        { s.lane l with
          state := .awaitId, signal := .red, identityTimer := .running (s.timers.identity * 1000) } ∧
      SameBut [.powerFail, .lanes, .reports, .checkWord] s t := by
  have hx : s.deasserted.retest l = (s.deasserted.onLane l (fun n => n)).enterState l .awaitId none := by
    rw [State.onLane_id]
    exact State.retest_arrived hl hr ha
  obtain ⟨t, hexec, hlane, hsame⟩ := ho.moves hp hf hs hx (by rw [hl]; decide)
  refine ⟨t, hexec, hlane.trans ?_, hsame⟩
  simp [Lane.entering, signalFor, State.identityTime]

/-- A grant that the lane held in AWAIT_BRIDGE. -/
theorem State.OnlyLane.enters (hp : s.powered = true) (hf : s.powerFail.filter ≠ none) (ho : s.OnlyLane l)
    (hs : (s.slot l).state ≠ .active) {b : BridgeNo} {f : BarrierNo} (hl : (s.lane l).state = .awaitBridge)
    (ha : s.approachOccupied l = true) (hfr : (s.config l).front = some f) (hg : (s.grant b).holder = some l) :
    ∃ t, exec .powerFailDeassert s = .next t ∧
      t.lane l =
        { s.lane l with
          state := .entering, signal := .green, entered := false, entryTimer := .running (s.timers.entry * 1000),
          frontMark := if (s.barrier f).occupied then .seen else .none } ∧
      t.barrier f = (s.barrier f).raise s.motionTime ∧ (∀ o : BarrierNo, o ≠ f → t.barrier o = s.barrier o) ∧
      SameBut [.powerFail, .lanes, .barriers, .reports, .checkWord] s t := by
  have hx : s.deasserted.retest l = s.deasserted.enterEntering l := by
    rw [State.retest_awaitBridge (by exact hl) (by exact ha),
      if_pos (State.holdsGrant_iff (s := s.deasserted).mpr ⟨b, hg⟩)]
  have hsame : SameBut [.barriers, .lanes, .reports] s.deasserted (s.deasserted.retest l) := by
    rw [hx]
    exact s.deasserted.enterEntering_same l
  have heq := State.enterEntering_eq (s := s.deasserted) (l := l) (f := f) hfr hl
  have hfin := (State.seal_same (s.deasserted.retest l)).transmit
  rw [← hx] at heq
  refine ⟨_, ho.deassert_same hp hf hs hsame (fun m hne => ?_), ?_, ?_, fun o hne => ?_,
    (State.deassert_frame hsame).mono (by decide)⟩
  · rw [heq, (State.report_same _ _).lane m, State.onLane_lane_ne _ _ (Ne.symm hne)]
    rfl
  · rw [hfin.lane l, heq, (State.report_same _ _).lane l, State.onLane_lane]
    rfl
  · rw [hfin.barrier f, heq, (State.report_same _ _).barrier f, (State.onLane_same _ l _).barrier f]
    exact s.deasserted.onBarrier_barrier f _
  · rw [hfin.barrier o, heq, (State.report_same _ _).barrier o, (State.onLane_same _ l _).barrier o]
    exact s.deasserted.onBarrier_barrier_ne _ (Ne.symm hne)

/-- The entry timer expired under power fail, with the bridge neither loaded nor empty. -/
theorem State.OnlyLane.entryExpired (hp : s.powered = true) (hf : s.powerFail.filter ≠ none) (ho : s.OnlyLane l)
    (hs : (s.slot l).state ≠ .active) (hl : (s.lane l).state = .entering) (hn : (s.lane l).entered = false)
    (ht : (s.lane l).entryTimer = .expired) (hb : s.ownBridgeLoaded l = false) (he : s.ownBridgeEmpty l = false) :
    ∃ t, exec .powerFailDeassert s = .next t ∧
      t.lane l = { s.lane l with entryTimer := .running (s.timers.entry * 1000) } ∧
      SameBut [.powerFail, .lanes, .checkWord] s t := by
  have hx : s.deasserted.retest l =
      s.deasserted.onLane l (fun n => { n with entryTimer := .running s.deasserted.entryTime }) :=
    State.retest_entryExpired hl hn ht hb he
  have hsame : SameBut [.lanes] s.deasserted (s.deasserted.retest l) := by
    rw [hx]
    exact State.onLane_same _ l _
  have hfin := (State.seal_same (s.deasserted.retest l)).transmit
  refine ⟨_, ho.deassert_same hp hf hs hsame (fun m hne => ?_), ?_, (State.deassert_frame hsame).mono (by decide)⟩
  · rw [hx, State.onLane_lane_ne _ _ (Ne.symm hne)]
    rfl
  · rw [hfin.lane l, hx, State.onLane_lane]
    rfl

/-- The vehicle passed the rear barrier under power fail. -/
theorem State.OnlyLane.rearPassed (hp : s.powered = true) (hf : s.powerFail.filter ≠ none) (ho : s.OnlyLane l)
    (hs : (s.slot l).state ≠ .active) {r : BarrierNo} (hl : (s.lane l).state = .leaving)
    (hm : (s.lane l).rearMark = .passed) (hr : (s.config l).rear = some r) (hu : (s.barrier r).state = .up)
    (hc : (s.barrier r).occupied = false) (hv : (s.lane l).visit = none) :
    ∃ t, exec .powerFailDeassert s = .next t ∧ t.lane l = { s.lane l with identity := none } ∧
      t.barrier r =
        { s.barrier r with
          state := .lowering, pendingLower := false, motionTimer := some (s.timers.motion * 1000) } ∧
      (∀ o : BarrierNo, o ≠ r → t.barrier o = s.barrier o) ∧
      SameBut [.powerFail, .lanes, .barriers, .checkWord] s t := by
  have hx : s.deasserted.retest l = (s.deasserted.commandLower r).clearVehicle l :=
    State.retest_rearPassed (by exact hl) hm hr hu hc hv
  have hlower : SameBut [.barriers] s.deasserted (s.deasserted.commandLower r) := s.deasserted.onBarrier_same r _
  have hclear : SameBut [.lanes] (s.deasserted.commandLower r) ((s.deasserted.commandLower r).clearVehicle l) :=
    State.onLane_same _ l _
  have hsame : SameBut [.lanes, .barriers] s.deasserted (s.deasserted.retest l) := by
    rw [hx]
    exact (hlower.mono (by decide)).then hclear
  have hfin := (State.seal_same (s.deasserted.retest l)).transmit
  refine ⟨_, ho.deassert_same hp hf hs hsame (fun m hne => ?_), ?_, ?_, fun o hne => ?_,
    (State.deassert_frame hsame).mono (by decide)⟩
  · rw [hx, State.clearVehicle, State.onLane_lane_ne _ _ (Ne.symm hne), hlower.lane m]
    rfl
  · rw [hfin.lane l, hx, State.clearVehicle, State.onLane_lane, hlower.lane l,
      show s.deasserted.lane l = s.lane l from rfl, hv.symm]
  · rw [hfin.barrier r, hx, hclear.barrier r,
      show (s.deasserted.commandLower r).barrier r = (s.barrier r).lower s.motionTime from
        s.deasserted.onBarrier_barrier r _]
    simp [Barrier.lower, hu, hc, Barrier.startLowering, State.motionTime]
  · rw [hfin.barrier o, hx, hclear.barrier o]
    exact s.deasserted.onBarrier_barrier_ne _ (Ne.symm hne)

/-- A takeover that waited for the end of power fail. -/
theorem State.OnlyLane.takenOver (hp : s.powered = true) (hf : s.powerFail.filter ≠ none) (ho : s.OnlyLane l)
    (hs : (s.slot l).state ≠ .active) (hl : (s.lane l).state = .takeoverPending) (hm : s.laneMoving l = false) :
    ∃ t, exec .powerFailDeassert s = .next t ∧ (t.lane l).state = .manual ∧ (t.lane l).visit = none ∧
      (t.lane l).identity = none ∧ (t.lane l).signal = .red := by
  have hx : s.deasserted.retest l = s.deasserted.enterManual l := State.retest_takeoverPending (by exact hl) rfl hm
  obtain ⟨hn, hothers, n, hlane⟩ := State.enterManual_alone (l := l)
    ((ho.nothingLeft hs).of_same s.deasserted_same) (by exact ho.list)
  have hfin := (State.seal_same (s.deasserted.enterManual l)).transmit
  refine ⟨_, ho.deassert hp hf hx (fun m hne => ?_) hn, ?_⟩
  · rw [hothers m hne]
    exact (ho.others m hne).1
  · rw [hfin.lane l, hlane]
    exact ⟨rfl, rfl, rfl, rfl⟩

end

/-! ### The clock and the supplies (R181, R183, R185) -/

section
variable (s : State)

theorem clockTick_advances :
    ∃ t, exec .clockTick s = .next t ∧
      t.ret.clock = (if 4294967295 ≤ s.ret.clock then 0 else s.ret.clock + 1) ∧ t.ret.clockUnset = s.ret.clockUnset ∧
      SameBut [.clock] s t := by
  refine ⟨s.onRet (fun r => { r with clock := succClock r.clock }), rfl, rfl, rfl, ?_⟩
  intro p hp
  cases p <;> simp [Part.same, State.voiced] at hp ⊢

/-- A check word that is the complement of the computed one disagrees with it. -/
theorem Retained.spoiled_intact (r : Retained) : r.spoiled.intact = false := by
  have hc : r.spoiled.computedCheck = r.computedCheck := rfl
  have hw : r.spoiled.checkWord = ~~~ r.computedCheck := rfl
  have hne : r.computedCheck ≠ ~~~ r.computedCheck := fun h => by
    have hbit := congrArg (fun w => w.getLsbD 0) h
    simp at hbit
  rw [Retained.intact, hc, hw]
  exact beq_eq_false_iff_ne.mpr hne

theorem State.spoiled_same : SameBut [.checkWord] s (s.onRet Retained.spoiled) := by
  intro p hp
  cases p <;> simp [Part.same, State.voiced, Retained.spoiled] at hp ⊢

theorem supplies_fail :
    (s.powered = true →
      ∃ t, exec .mainPowerLoss s = .next t ∧ t.powered = false ∧ t.ret = s.ret ∧ t.pins = s.pins ∧
        t.pending = s.pending) ∧
    (s.powered = false → exec .mainPowerLoss s = .next s) ∧
    (s.powered = true → exec .backupSupplyFailure s = .next s) ∧
    (s.powered = false →
      ∃ t, exec .backupSupplyFailure s = .next t ∧ t.ret.intact = false ∧ SameBut [.checkWord] s t ∧
        ∀ h : Bool, ∃ u, exec (.resetInput h) t = .next u ∧ u.ret = Retained.lost) := by
  have hmain : exec .mainPowerLoss s = .next (if s.powered then s.dark else s) := rfl
  have hbackup : exec .backupSupplyFailure s = .next (if s.powered then s else s.onRet Retained.spoiled) := rfl
  have hi : (s.onRet Retained.spoiled).ret.intact = false := s.ret.spoiled_intact
  refine ⟨fun h => ⟨s.dark, by rw [hmain, if_pos h], rfl, rfl, rfl, rfl⟩, fun h => ?_, fun h => ?_, fun h =>
    ⟨_, ?_, hi, s.spoiled_same, fun k => ⟨_, exec_resetInput _ k, State.reset_lost hi⟩⟩⟩
  · rw [hmain, h, if_neg Bool.false_ne_true]
  · rw [hbackup, if_pos h]
  · rw [hbackup, h, if_neg Bool.false_ne_true]

end

end Sys2Proof.Machine

open Sys2Proof Sys2Proof.Machine

/-- Settles O60, from what the assertion, the deassertion and the supplies do clause by clause. -/
theorem powerComesAndGoes : Obligations.PowerComesAndGoes := by
  refine ⟨fun s hp hf => powerFailAssert_cancels hp hf, fun s hp hf => ⟨powerFailAssert_again hp hf,
    powerFailInputInactive_filters hp hf, fun hn hl hw ho => powerFailDeassert_quiet hp hn hl hw ho⟩,
    fun s l hp _ hn ho hs => ⟨ho.identityExpired hp hn hs, ho.left hp hn hs, ho.arrived hp hn hs,
      fun b f => ho.enters hp hn hs, ho.entryExpired hp hn hs, fun r => ho.rearPassed hp hn hs, ho.takenOver hp hn hs⟩,
    fun s l hp _ hn ho hl hs ha => ⟨fun hh => ?unknown, fun hh hd hr => ?timeout, fun hh hd => ?running⟩,
    fun s l p hp _ hn ho hl hs ha hh => ⟨fun why h => ?refused, fun hst hk hc hv => ⟨fun hr => ?full, fun hr => ?admitted⟩⟩,
    fun s b l f hp _ hn hl hg ho hw hs hfr hc => ?grants,
    fun s m v body hp _ hn hl hw ho hv hb hh hj => State.LanesUnmoved.issues hp hn hl hw ho hv hb hh hj,
    fun s hp hn => ⟨_, exec_powerFailDeassert_idle hp hn, (SameBut.refl s _).transmit⟩, clockTick_advances, supplies_fail⟩
  case unknown =>
    obtain ⟨t, hx, hstate, hreason, hquery, hslot, hsame⟩ := ho.refuses hp hn hl ha (f := fun _ => .vacant)
      (by rw [State.takeUpSlot_answer (by exact hs) (by exact hh)]; exact State.decideByAnswer_unknown _ l)
    exact ⟨t, hx, hstate, hreason, hquery, congrArg QuerySlot.state hslot, hsame⟩
  case timeout =>
    exact ho.refuses hp hn hl ha (f := QuerySlot.timedOut)
      (by rw [State.takeUpSlot_expired (by exact hs) (by exact hh) (by exact hd)]; exact State.queryTimedOut_refused hr)
  case running =>
    exact ⟨_, ho.takesUp hp hn hl ha (State.takeUpSlot_running (by exact hh) (by exact hd)) (fun _ _ => rfl) ho.order,
      (State.deassert_frame (.refl s.deasserted [])).mono (by decide)⟩
  case refused =>
    refine ho.refusesByPermit hp hn hl hs ha hh ?_
    rcases h with h | h | h | ⟨hst, hk, hc, hv, rfl⟩
    · exact .inl (p.refuses_some _ _ why (.inl h))
    · exact .inl (p.refuses_some _ _ why (.inr (.inl h)))
    · exact .inl (p.refuses_some _ _ why (.inr (.inr h)))
    · exact .inr ⟨Permit.refuses_none hst hk hc, hv, rfl⟩
  case full => exact ho.joinsSiteFull hp hn hl hs ha hh (Permit.refuses_none hst hk hc) hv hr
  case admitted =>
    obtain ⟨t, hx, hmem, hslot, ⟨hvisit, hquery⟩, hstate, hsame⟩ :=
      ho.admits hp hn hl hs ha hh (Permit.refuses_none hst hk hc) hv hr
    exact ⟨t, _, hx, hmem, rfl, rfl, rfl, rfl, rfl, rfl, rfl, hslot, hquery, hvisit, hstate, hsame⟩
  case grants =>
    have hu : s.LanesUnmoved := ⟨hl, hg⟩
    exact ⟨hu.grants hp hn ho hw hs hfr hc, fun hk => hu.withholds hp hn ho hw (.inl hk)⟩
end

-- ==== Proofs of family 02: zeros and backlogs in their ranges ====
section
/-! Every change of a command keeps the working zeros in their ranges (R26) and the backlogs within 15 (R27, R33). -/

namespace Sys2Proof.Machine

/-- A property that each change and each special change keeps is kept by every command. -/
theorem Shape.keep {P : State → Prop} (hC : ∀ {s t}, Change s t → P s → P t) (hS : ∀ {s t}, Special s t → P s → P t)
    {s t : State} (h : Shape s t) (hs : P s) : P t := by
  obtain ⟨_, _, before, special, after⟩ := h
  exact after.keep hC (hS special (before.keep hC hs))

/-! ### The working zero (R26) -/

/-- The working zero of one bridge lies in its range. -/
def State.ZeroIn (s : State) (b : BridgeNo) : Prop := (s.bridgeCal b).zeroInRange (s.bridge b).zb = true

theorem BridgeCal.zeroInRange_z0 (k : BridgeCal) : k.zeroInRange k.z0 = true := by simp [BridgeCal.zeroInRange]

theorem State.LegalBridge.zeroIn {s : State} {b : BridgeNo} {y : Bridge} (h : s.LegalBridge b y) (hs : s.ZeroIn b) :
    (s.bridgeCal b).zeroInRange y.zb = true := by
  rcases h.1 with hzb | hrange
  · rw [hzb]
    exact hs
  · exact hrange

theorem Move.zeroIn {s t : State} (h : Move s t) {o : BridgeNo} (hs : s.ZeroIn o) : t.ZeroIn o := by
  cases h with
  | bridge b f h =>
    unfold State.ZeroIn
    rw [State.onBridge_bridge_at]
    split
    · next hbo =>
      subst hbo
      exact h.zeroIn hs
    · exact hs
  | _ => exact hs

theorem Change.zeroIn {s t : State} (h : Change s t) {o : BridgeNo} (hs : s.ZeroIn o) : t.ZeroIn o := by
  cases h with
  | move h => exact h.zeroIn hs
  | bridges x h => exact (h o).zeroIn hs
  | retained f h =>
    unfold State.ZeroIn State.bridgeCal
    rw [show (s.onRet f).ret.cal.bridges = s.ret.cal.bridges from h.bridges]
    exact hs
  | _ => exact hs

theorem State.onBridgeCal_others (s : State) {b o : BridgeNo} (h : o ≠ b) (f : BridgeCal → BridgeCal) :
    (s.onBridgeCal b f).bridgeCal o = s.bridgeCal o :=
  Table.read_write_other _ _ (Ne.symm h)

/-- A calibration of a bridge puts its zero at the reference, and moves no other bridge's range. -/
theorem State.ZeroHeld.recalibrate {s u : State} {b : BridgeNo} {f : BridgeCal → BridgeCal} (hs : s.ZeroHeld)
    (h : Changes (s.onBridgeCal b f) u) : (u.zeroToReference b).ZeroHeld := by
  intro o
  change (u.bridgeCal o).zeroInRange ((u.zeroToReference b).bridge o).zb = true
  by_cases ho : o = b
  · subst ho
    rw [State.zeroToReference_bridge]
    exact BridgeCal.zeroInRange_z0 _
  · rw [State.zeroToReference_others _ ho]
    have hcal : (s.onBridgeCal b f).ZeroIn o := by
      unfold State.ZeroIn
      rw [State.onBridgeCal_others _ ho]
      exact hs o
    exact h.keep (P := fun s => s.ZeroIn o) (fun m => m.zeroIn) hcal

theorem Special.zeroHeld {s t : State} (h : Special s t) (hs : s.ZeroHeld) : t.ZeroHeld := by
  refine h.keep (P := State.ZeroHeld) (fun m hs o => m.zeroIn (hs o)) ?_ ?_ ?_ ?_ hs
  case refine_1 => exact fun _ _ hs => hs
  case refine_2 => exact fun _ _ _ _ hs _ hc => hs.recalibrate hc
  case refine_3 => exact fun _ _ hs => hs
  case refine_4 =>
    intro s r _ _ powered o
    change (r.cal.bridges.read o).zeroInRange ((s.bare r).bridge o).zb = true
    rw [State.bare_bridge]
    exact BridgeCal.zeroInRange_z0 _

theorem Shape.zeroHeld {s t : State} (h : Shape s t) (hs : s.ZeroHeld) : t.ZeroHeld :=
  h.keep (P := State.ZeroHeld) (fun m hs o => m.zeroIn (hs o)) (fun m => m.zeroHeld) hs

/-! ### The backlog (R27, R33) -/

theorem Move.backlogHeld {s t : State} (h : Move s t) (hs : s.BacklogHeld) : t.BacklogHeld := by
  cases h with
  | bridge b f h =>
    intro o
    rw [State.onBridge_bridge_at]
    split
    · next hbo =>
      subst hbo
      exact ⟨h.2.1 (hs b).1, (hs b).2⟩
    · exact hs o
  | _ => exact hs

theorem Change.backlogHeld {s t : State} (h : Change s t) (hs : s.BacklogHeld) : t.BacklogHeld := by
  cases h with
  | move h => exact h.backlogHeld hs
  | bridges x h => exact fun o => ⟨(h o).2.1 (hs o).1, (hs o).2⟩
  | retained f h => exact fun o => ⟨(hs o).1, h.urgent (fun o => (hs o).2) o⟩
  | _ => exact hs

theorem Changes.backlogHeld {s t : State} (h : Changes s t) (hs : s.BacklogHeld) : t.BacklogHeld :=
  h.keep (P := State.BacklogHeld) (fun m => m.backlogHeld) hs

theorem State.zeroToReference_backlog (s : State) (b o : BridgeNo) :
    ((s.zeroToReference b).bridge o).backlog = (s.bridge o).backlog := by
  unfold State.zeroToReference
  rw [State.onBridge_bridge_at]
  split
  · rfl
  · rfl

/-- The start-up check keeps the thresholds U or puts them at their default (R33, R183, R184). -/
theorem Retained.checked_urgent (r : Retained) (o : BridgeNo) :
    (r.checked.site.timing.read o).urgent = (r.site.timing.read o).urgent ∨
      (r.checked.site.timing.read o).urgent = 4 := by
  cases h : r.intact with
  | true =>
    rw [Retained.checked_intact h]
    exact .inl rfl
  | false =>
    rw [Retained.checked_lost h]
    exact .inr (congrArg BridgeTiming.urgent (Table.read_all _ o))

theorem Special.backlogHeld {s t : State} (h : Special s t) (hs : s.BacklogHeld) : t.BacklogHeld := by
  refine h.keep (P := State.BacklogHeld) (fun m => m.backlogHeld) ?_ ?_ ?_ ?_ hs
  case refine_1 => exact fun _ _ hs => hs
  case refine_2 =>
    intro s u b f hs _ hc o
    rw [State.zeroToReference_backlog]
    exact hc.backlogHeld hs o
  case refine_3 => exact fun _ _ hs => hs
  case refine_4 =>
    intro s r hs hr powered o
    have hu : (r.site.timing.read o).urgent ≤ 15 := by
      rcases hr with rfl | rfl
      · exact (hs o).2
      · rcases s.ret.checked_urgent o with h | h
        · rw [h]
          exact (hs o).2
        · omega
    refine ⟨?_, hu⟩
    change ((s.bare r).bridge o).backlog ≤ 15
    rw [State.bare_bridge]
    exact hu

theorem Shape.backlogHeld {s t : State} (h : Shape s t) (hs : s.BacklogHeld) : t.BacklogHeld :=
  h.keep (P := State.BacklogHeld) (fun m => m.backlogHeld) (fun m => m.backlogHeld) hs

end Sys2Proof.Machine
end

-- ==== Proofs of family 02: what leaves the working zeros alone ====
section
/-! Captures, takeovers, faults, the events of the field lines and the timers change no bridge but for the capture on it,
and so take no zero. -/

namespace Sys2Proof.Machine

/-- A bridge without the capture on it. -/
def Bridge.uncaptured (x : Bridge) : Bridge := { x with capture := none }

/-- Every bridge stays, but for the capture on it. -/
def BridgesStay (s t : State) : Prop := ∀ b : BridgeNo, (t.bridge b).uncaptured = (s.bridge b).uncaptured

theorem BridgesStay.refl (s : State) : BridgesStay s s := fun _ => rfl

theorem BridgesStay.trans {s t u : State} (h : BridgesStay s t) (k : BridgesStay t u) : BridgesStay s u :=
  fun b => (k b).trans (h b)

theorem BridgesStay.of_same {ps : List Part} {s t : State} (h : SameBut ps s t)
    (hp : Part.bridges ∉ ps := by decide) : BridgesStay s t := fun b => by rw [h.bridge b hp]

theorem InYard.bridgesStay {s t : State} (h : InYard s t) : BridgesStay s t := .of_same h

theorem BridgesStay.ite {c : Prop} [Decidable c] {s t u : State} (h : BridgesStay s t) (k : BridgesStay s u) :
    BridgesStay s (if c then t else u) := by
  split
  · exact h
  · exact k

theorem BridgesStay.forEach {α : Type} {f : α → State → State} (h : ∀ x s, BridgesStay s (f x s)) (xs : List α)
    (s : State) : BridgesStay s (forEach xs f s) := by
  induction xs generalizing s with
  | nil => exact .refl s
  | cons x xs ih => exact (h x s).trans (ih (f x s))

section
variable (s : State)

theorem BridgesStay.onBridge (b : BridgeNo) (f : Bridge → Bridge) (h : ∀ x, (f x).uncaptured = x.uncaptured) :
    BridgesStay s (s.onBridge b f) := by
  intro o
  rw [State.onBridge_bridge_at]
  split
  · exact h _
  · rfl

theorem BridgesStay.onBarrier (b : BarrierNo) (f : Barrier → Barrier) : BridgesStay s (s.onBarrier b f) := fun _ => rfl

/-! ### Captures (R42 to R54) -/

theorem BridgesStay.dropCapture (b : BridgeNo) : BridgesStay s (s.dropCapture b) := .onBridge s b _ (fun _ => rfl)

theorem BridgesStay.startCapture (l : LaneNo) (b : BridgeNo) (n : Nat) : BridgesStay s (s.startCapture l b n) := by
  unfold State.startCapture
  refine .ite (BridgesStay.trans ?_ (InYard.onVisit _ n _).bridgesStay) (.refl s)
  exact .onBridge s b _ (fun _ => rfl)

theorem BridgesStay.startOwnCapture (l : LaneNo) : BridgesStay s (s.startOwnCapture l) := by
  unfold State.startOwnCapture
  split
  · exact .startCapture s l _ _
  · exact .refl s

theorem BridgesStay.cancelCaptureOn (b : BridgeNo) (w : Cancellation) : BridgesStay s (s.cancelCaptureOn b w) := by
  unfold State.cancelCaptureOn
  split
  · exact .refl s
  · next c _ =>
    have h := (BridgesStay.dropCapture s b).trans
      (InYard.onLane _ c.lane (fun n => { n with lastReason := some (.cancelled w) })).bridgesStay
    exact .ite h (h.trans (InYard.onVisit _ _ _).bridgesStay)

theorem BridgesStay.cancelCaptureOf (l : LaneNo) (w : Cancellation) : BridgesStay s (s.cancelCaptureOf l w) := by
  unfold State.cancelCaptureOf
  split
  · exact .refl s
  · exact .cancelCaptureOn s _ w

theorem BridgesStay.completeCapture (b : BridgeNo) (c : Capture) : BridgesStay s (s.completeCapture b c) := by
  have hr := InYard.report (s.dropCapture b)
    (.captureDone { bridge := b, lane := c.lane, visit := c.visit, start := c.start, record := s.weighingRecord b })
  have h := (BridgesStay.dropCapture s b).trans hr.bridgesStay
  unfold State.completeCapture
  simp only
  split
  · exact h
  · exact h.trans (InYard.settleWeighing _ _ _ _).bridgesStay

theorem BridgesStay.testCapture (b : BridgeNo) : BridgesStay s (s.testCapture b) := by
  unfold State.testCapture
  split
  · exact .refl s
  · split
    · exact .onBridge s b _ (fun _ => rfl)
    · exact .completeCapture s b _

theorem BridgesStay.captureFailedAt (l : LaneNo) (w : Blocking) : BridgesStay s (s.captureFailedAt l w) :=
  .ite ((InYard.onLane s l _).trans (.enterState _ l _ _)).bridgesStay (InYard.onLane s l _).bridgesStay

theorem BridgesStay.captureExpired (b : BridgeNo) : BridgesStay s (s.captureExpired b) := by
  unfold State.captureExpired
  split
  · exact .refl s
  · refine BridgesStay.trans ?_ ((BridgesStay.captureFailedAt _ _ _).trans (InYard.seal _).bridgesStay)
    exact (BridgesStay.dropCapture s b).trans ((InYard.onVisit _ _ _).trans (.report _ _)).bridgesStay

theorem BridgesStay.failCapture (b : BridgeNo) : BridgesStay s (s.failCapture b) := by
  unfold State.failCapture
  split
  · exact .refl s
  · exact .ite ((BridgesStay.cancelCaptureOn s b _).trans (InYard.enterState _ _ _ _).bridgesStay)
      (.cancelCaptureOn s b _)

/-! ### Takeover, lane tests, faults (chapter 5) -/

theorem InYard.treatTakenOver (n : Nat) : InYard s (s.treatTakenOver n) := by
  unfold State.treatTakenOver
  split
  · exact .refl s
  · split
    · exact .removeVisit s n
    · exact .onVisit s n _

theorem InYard.stopSequence (l : LaneNo) : InYard s (s.stopSequence l) := by
  have h : ∀ t : State, InYard s t → InYard s (if (t.lane l).state = .siteFull then t.leaveSiteFull l else t) :=
    fun t k => .ite (k.trans (.leaveSiteFull t l)) k
  have i : ∀ t : State, InYard s t → InYard s (if (t.lane l).state = .awaitBridge then t.withdrawRequest l else t) :=
    fun t k => .ite (k.trans (.withdrawRequest t l)) k
  unfold State.stopSequence
  simp only
  exact InYard.trans (i _ (h _ (.ite (.abandonQuery s l) (.refl s)))) (.onLane _ l _)

theorem BridgesStay.enterManual (l : LaneNo) : BridgesStay s (s.enterManual l) := by
  obtain ⟨r, h⟩ := s.enterManual_eq l
  rw [h]
  refine BridgesStay.trans ?_ (((InYard.releaseGrant _ l).trans (.onLane _ l _)).trans (.report _ r)).bridgesStay
  unfold State.servedNoMore
  split
  · exact .cancelCaptureOf s l _
  · exact (BridgesStay.cancelCaptureOf s l _).trans (InYard.treatTakenOver _ _).bridgesStay

theorem BridgesStay.takeOver (l : LaneNo) : BridgesStay s (s.takeOver l) := by
  have h := ((InYard.stopSequence s l).trans (.onLane _ l (fun n => { n with takeoverFrom := some n.state }))).bridgesStay
  exact .ite (.refl s) (.ite (h.trans (InYard.enterState _ l _ _).bridgesStay) (h.trans (.enterManual _ l)))

theorem BridgesStay.testTakeover (l : LaneNo) : BridgesStay s (s.testTakeover l) := .ite (.enterManual s l) (.refl s)

theorem BridgesStay.completeEntry (l : LaneNo) : BridgesStay s (s.completeEntry l) := by
  unfold State.completeEntry
  simp only
  refine BridgesStay.trans
    ((InYard.onLane s l (fun n => { n with entryTimer := .stopped })).trans (.lowerFront _ l)).bridgesStay ?_
  split
  · exact .refl _
  · exact .ite (InYard.onLane _ l _).bridgesStay
      ((BridgesStay.startOwnCapture _ l).trans (InYard.enterState _ l _ _).bridgesStay)

theorem BridgesStay.testLane (l : LaneNo) : BridgesStay s (s.testLane l) := by
  unfold State.testLane
  split
  · exact .refl s
  · split
    · exact .ite (.ite (InYard.enterLeaving s l).bridgesStay (.refl s)) (.ite (.completeEntry s l) (.refl s))
    · exact .ite (InYard.endLeaving s l).bridgesStay (.refl s)
    · exact .ite (InYard.endBackout s l).bridgesStay (.refl s)
    · exact .ite (InYard.endPassing s l).bridgesStay (.refl s)
    · exact .refl s

theorem InYard.entryExpired (l : LaneNo) : InYard s (s.entryExpired l) := by
  refine .ite ?_ (.onLane s l _)
  exact (((((InYard.lowerFront s l).trans (.onLane _ l _)).trans (.releaseGrant _ l)).trans (.giveUpVisit _ l)).trans
    (.clearVehicle _ l)).trans (.enterState _ l _ _)

theorem InYard.leaveBeforeEntry (l : LaneNo) : InYard s (s.leaveBeforeEntry l) := by
  unfold State.leaveBeforeEntry
  split
  · exact (InYard.clearVehicle s l).trans (.enterState _ l _ _)
  · exact (InYard.clearVehicle s l).trans (.enterState _ l _ _)
  · exact (InYard.clearVehicle s l).trans (.enterState _ l _ _)
  · exact ((InYard.abandonQuery s l).trans (.clearVehicle _ l)).trans (.enterState _ l _ _)
  · exact ((InYard.leaveSiteFull s l).trans (.clearVehicle _ l)).trans (.enterState _ l _ _)
  · exact ((((InYard.withdrawRequest s l).trans (.releaseGrant _ l)).trans (.giveUpVisit _ l)).trans
      (.clearVehicle _ l)).trans (.enterState _ l _ _)
  · exact .refl s

theorem BridgesStay.faultLane (l : LaneNo) : BridgesStay s (s.faultLane l) := by
  unfold State.faultLane
  split
  · exact .refl s
  · exact .cancelCaptureOf s l _
  · exact (BridgesStay.cancelCaptureOf s l _).trans
      (((InYard.stopSequence _ l).trans (.onLane _ l _)).trans (.enterState _ l _ _)).bridgesStay

theorem BridgesStay.faultBarrier (b : BarrierNo) (r : FaultReason) : BridgesStay s (s.faultBarrier b r) := by
  unfold State.faultBarrier
  refine BridgesStay.trans ?_ (.forEach (fun l s => .testTakeover s l) _ _)
  exact ((BridgesStay.onBarrier s b _).trans (InYard.report _ _).bridgesStay).trans
    (.forEach (fun l s => .faultLane s l) _ _)

theorem BridgesStay.barrierSettled (b : BarrierNo) : BridgesStay s (s.barrierSettled b) :=
  .forEach (fun l s => (BridgesStay.testLane s l).trans (.testTakeover _ l)) _ s

/-! ### The events of timers and field lines -/

theorem BridgesStay.setReceiver (c : ChannelNo) (r : CellReceiver) : BridgesStay s (s.setReceiver c r) := fun _ => rfl

theorem BridgesStay.stallExpired (c : ChannelNo) : BridgesStay s (s.stallExpired c) := by
  have h : ∀ f, BridgesStay s (s.onChannel c f) := fun f => .of_same (s.onChannel_same c f)
  exact .ite (.ite (h _) ((h _).trans (InYard.report _ _).bridgesStay)) (.refl s)

theorem BridgesStay.motionExpired (b : BarrierNo) : BridgesStay s (s.motionExpired b) :=
  .ite ((BridgesStay.faultBarrier s b _).trans (InYard.seal _).bridgesStay) (.refl s)

theorem BridgesStay.switchChanged (b : BarrierNo) (e : SwitchEffect) : BridgesStay s (s.switchChanged b e) := by
  cases e with
  | nothing => exact .refl s
  | arriveUp => exact ((BridgesStay.onBarrier s b _).trans (.barrierSettled _ b)).trans (InYard.seal _).bridgesStay
  | arriveDown => exact ((BridgesStay.onBarrier s b _).trans (.barrierSettled _ b)).trans (InYard.seal _).bridgesStay
  | fault r => exact (BridgesStay.faultBarrier s b r).trans (InYard.seal _).bridgesStay

theorem BridgesStay.switchHeld (b : BarrierNo) (w : EndSwitch) : BridgesStay s (s.switchHeld b w) :=
  .ite ((BridgesStay.onBarrier s b _).trans (.switchChanged _ b _)) (.refl s)

theorem InYard.moveMark (l : LaneNo) (b : BarrierNo) (f : CrossingMark → CrossingMark) : InYard s (s.moveMark l b f) :=
  .ite (.onLane s l _) (.refl s)

theorem BridgesStay.safetyActive (b : BarrierNo) : BridgesStay s (s.safetyActive b) :=
  .ite (.onBarrier s b _)
    ((BridgesStay.onBarrier s b _).trans (.forEach (fun l s => (InYard.moveMark s l b _).bridgesStay) _ _))

theorem BridgesStay.laneClear (l : LaneNo) (b : BarrierNo) : BridgesStay s (s.laneClear l b) := by
  have h := InYard.moveMark s l b .loopClear
  unfold State.laneClear
  exact (InYard.ite (h.trans (.passRear _ l)) h).bridgesStay.trans (.testLane _ l)

theorem BridgesStay.safetyClear (b : BarrierNo) : BridgesStay s (s.safetyClear b) :=
  .ite (((BridgesStay.onBarrier s b _).trans (.forEach (fun l s => .laneClear s l b) _ _)).trans
    (InYard.seal _).bridgesStay)
    (.refl s)

theorem BridgesStay.onLoop (a : LoopNo) (f : ApproachLoop → ApproachLoop) : BridgesStay s (s.onLoop a f) := fun _ => rfl

theorem BridgesStay.approachActive (a : LoopNo) : BridgesStay s (s.approachActive a) :=
  .ite (.onLoop s a _)
    ((BridgesStay.onLoop s a _).trans (.forEach (fun l s => .ite (InYard.comeToIdle s l).bridgesStay (.refl s)) _ _))

theorem BridgesStay.approachClear (a : LoopNo) : BridgesStay s (s.approachClear a) := by
  have h : ∀ (l : LaneNo) (s : State), BridgesStay s (s.approachLeft l) := fun l s =>
    .ite (.refl s) ((InYard.leaveBeforeEntry s l).bridgesStay.trans (.testLane _ l))
  exact .ite (((BridgesStay.onLoop s a _).trans (.forEach h _ _)).trans (InYard.seal _).bridgesStay) (.refl s)

theorem BridgesStay.identityExpired (l : LaneNo) : BridgesStay s (s.identityExpired l) :=
  InYard.bridgesStay (.ite (.ite (.onLane s l _) (.ite (.enterState s l _ _) (.refl s))) (.refl s))

theorem BridgesStay.entryTimerExpired (l : LaneNo) : BridgesStay s (s.entryTimerExpired l) :=
  InYard.bridgesStay
    (.ite (.ite (.onLane s l _) (.ite ((InYard.entryExpired s l).trans (.seal _)) (.refl s))) (.refl s))

theorem InYard.fallBack (l : LaneNo) (q : QuerySlot) : InYard s (s.fallBack l q) := by
  unfold State.fallBack
  split
  · exact .refuseVehicle s l _ _
  · exact (InYard.createVisit s l _).trans (.onSlot _ l _)

theorem InYard.queryTimedOut (l : LaneNo) : InYard s (s.queryTimedOut l) := by
  refine InYard.trans ?_ (.fallBack _ l _)
  exact (InYard.onSlot s l _).trans (.onLane _ l _)

theorem BridgesStay.deadlineExpired (l : LaneNo) : BridgesStay s (s.deadlineExpired l) :=
  InYard.bridgesStay (.ite (.ite (.onSlot s l _) ((InYard.queryTimedOut s l).trans (.seal _))) (.refl s))

/-! ### Power (R99, R182) -/

theorem BridgesStay.powerFailing : BridgesStay s s.powerFailing := by
  refine .ite (.refl s) ?_
  refine BridgesStay.trans (t := { s with powerFail := { asserted := true, filter := none } }) (.refl s) ?_
  exact (BridgesStay.forEach (fun b s => .failCapture s b) allFour _).trans
    ((InYard.seal _).trans (.report _ _)).bridgesStay

theorem BridgesStay.retest (l : LaneNo) : BridgesStay s (s.retest l) := by
  unfold State.retest
  refine .ite (InYard.leaveBeforeEntry s l).bridgesStay ?_
  split
  · exact InYard.bridgesStay (.ite (.enterEntering s l) (.refl s))
  · exact InYard.bridgesStay (.ite (.enterState s l _ _) (.refl s))
  · exact .ite (InYard.entryExpired s l).bridgesStay (.testLane s l)
  · exact .ite ((InYard.passRear s l).bridgesStay.trans (.testLane _ l)) (.refl s)
  · exact .testTakeover s l
  · exact (InYard.comeToIdle s l).bridgesStay
  · exact .testLane s l

theorem InYard.decideByAnswer (l : LaneNo) (a : Answer) : InYard s (s.decideByAnswer l a).1 := by
  have h : InYard s ((s.onSlot l (fun _ => .vacant)).onLane l (fun n => { n with query := none })) :=
    (InYard.onSlot s l _).trans (.onLane _ l _)
  cases a with
  | unknownTag => exact h.trans (.refuseVehicle _ l _ _)
  | entry p => exact h.trans (.decideByPermit _ l _ _ p)

theorem InYard.takeUpSlot (l : LaneNo) : InYard s (s.takeUpSlot l) := by
  refine .ite ?_ (.refl s)
  split
  · exact .decideByAnswer s l _
  · exact .ite (.queryTimedOut s l) (.refl s)

theorem BridgesStay.powerRestored : BridgesStay s s.powerRestored := by
  refine BridgesStay.trans (t := { s with powerFail := { asserted := false, filter := none } }) (.refl s) ?_
  refine (BridgesStay.forEach (fun l s => .retest s l) allFour _).trans ?_
  exact (((InYard.forEach (fun b s => .decideGrant s b) allFour _).trans
    (.forEach (fun l s => .takeUpSlot s l) allFour _)).trans (.drain _)).trans (.seal _) |>.bridgesStay

end

/-! ### The working zeros -/

/-- The working zero of every bridge stays. -/
def ZerosStay (s t : State) : Prop := ∀ b : BridgeNo, (t.bridge b).zb = (s.bridge b).zb

theorem BridgesStay.zerosStay {s t : State} (h : BridgesStay s t) : ZerosStay s t := fun b =>
  (congrArg Bridge.zb (h b) :)

theorem InYard.zerosStay {s t : State} (h : InYard s t) : ZerosStay s t := h.bridgesStay.zerosStay

theorem ZerosStay.refl (s : State) : ZerosStay s s := fun _ => rfl

theorem ZerosStay.trans {s t u : State} (h : ZerosStay s t) (k : ZerosStay t u) : ZerosStay s u :=
  fun b => (k b).trans (h b)

theorem ZerosStay.of_same {ps : List Part} {s t : State} (h : SameBut ps s t)
    (hp : Part.bridges ∉ ps := by decide) : ZerosStay s t := (BridgesStay.of_same h hp).zerosStay

theorem ZerosStay.onBridge (s : State) (b : BridgeNo) (f : Bridge → Bridge) (h : ∀ x, (f x).zb = x.zb) :
    ZerosStay s (s.onBridge b f) := by
  intro o
  rw [State.onBridge_bridge_at]
  split
  · exact h _
  · rfl

theorem ZerosStay.zeroTimerExpired (s : State) (b : BridgeNo) : ZerosStay s (s.zeroTimerExpired b) := by
  have h : ZerosStay s (s.onBridge b (fun x => { x with zeroTimer := s.zeroTime b, backlog := countTo 15 x.backlog })) :=
    .onBridge s b _ (fun _ => rfl)
  unfold State.zeroTimerExpired
  simp only
  split
  · exact h.trans (InYard.report _ _).zerosStay
  · exact h

end Sys2Proof.Machine
end

-- ==== Proofs of family 02: the grant guards the working zero ====
section
/-! While a lane holds the grant of a bridge, no evaluation and no request takes a zero there (R29, R31); only a calibration
returns it to its reference (R36). -/

namespace Sys2Proof.Machine

/-- The working zero of every bridge held by a lane stays. -/
def HeldZerosStay (s t : State) : Prop :=
  ∀ b : BridgeNo, (s.grant b).holder.isSome = true → (t.bridge b).zb = (s.bridge b).zb

theorem ZerosStay.held {s t : State} (h : ZerosStay s t) : HeldZerosStay s t := fun b _ => h b

theorem HeldZerosStay.refl (s : State) : HeldZerosStay s s := fun _ _ => rfl

theorem HeldZerosStay.then {s t u : State} (h : HeldZerosStay s t) (k : ZerosStay t u) : HeldZerosStay s u :=
  fun b hb => (k b).trans (h b hb)

/-- A change that moves no grant and no zero may come first. -/
theorem HeldZerosStay.after {s t u : State} (h : ZerosStay s t) (hg : t.grants = s.grants) (k : HeldZerosStay t u) :
    HeldZerosStay s u := by
  intro b hb
  refine (k b ?_).trans (h b)
  unfold State.grant
  rw [hg]
  exact hb

/-! ### An evaluation (R29, R108) -/

section
variable {s : State} {b : BridgeNo}

theorem State.attemptZero_held (h : (s.grant b).holder.isSome = true) : s.attemptZero b = s := by
  have hn : s.zeroAttempted b = false := by
    cases hh : (s.grant b).holder with
    | none => simp [hh] at h
    | some l => simp [State.zeroAttempted, hh]
  simp [State.attemptZero, hn]

theorem State.decideGrant_held (h : (s.grant b).holder.isSome = true) : s.decideGrant b = s :=
  State.decideGrant_withheld (.inl (fun hg => by simp [hg.free] at h))

/-- On a held bridge an evaluation takes no zero and grants nothing, in either order. -/
theorem State.zeroAndGrant_held (h : (s.grant b).holder.isSome = true) : s.zeroAndGrant b = s.evaluationCounted := by
  have hz : s.evaluationCounted.attemptZero b = s.evaluationCounted := State.attemptZero_held h
  have hg : s.evaluationCounted.decideGrant b = s.evaluationCounted := State.decideGrant_held h
  rw [State.zeroAndGrant_decides hz (by rw [hg, hz]), hg]

theorem State.attemptZero_others {o : BridgeNo} (h : o ≠ b) : (s.attemptZero b).bridge o = s.bridge o := by
  have hb : ∀ f : Bridge → Bridge, (s.onBridge b f).bridge o = s.bridge o := fun f =>
    s.onBridge_bridge_ne f (Ne.symm h)
  unfold State.attemptZero
  split
  · simp only
    split
    · rw [(State.report_same _ _).bridge o, hb]
    · split
      · rfl
      · rw [(State.report_same _ _).bridge o, hb]
  · rfl

/-- The zero capture and the grant decision of a bridge move the zero of no other bridge. -/
theorem State.zeroAndGrant_others {o : BridgeNo} (h : o ≠ b) : (s.zeroAndGrant b).bridge o = s.bridge o := by
  have hx : s.zeroAndGrant b =
      if Config.grantFirst s.evaluations then (s.evaluationCounted.decideGrant b).attemptZero b
      else (s.evaluationCounted.attemptZero b).decideGrant b := rfl
  rw [hx]
  split
  · rw [State.attemptZero_others h, State.decideGrant_bridge]
    rfl
  · rw [State.decideGrant_bridge, State.attemptZero_others h]
    rfl

end

section
variable (s : State)

theorem HeldZerosStay.zeroAndGrant (b : BridgeNo) : HeldZerosStay s (s.zeroAndGrant b) := by
  intro o ho
  by_cases h : o = b
  · subst h
    rw [State.zeroAndGrant_held ho]
    rfl
  · rw [State.zeroAndGrant_others h]

/-- What follows zero capture and grant decision in an evaluation: the capture test and the lanes. -/
def State.afterDecision (b : BridgeNo) : State :=
  forEach ((s.testCapture b).listing b) (fun l s => s.testLane l) (s.testCapture b)

theorem State.applyEvaluation_afterDecision (b : BridgeNo) (e : Evaluation) :
    s.applyEvaluation b e = ((s.onBridge b (fun x => x.evaluated e)).zeroAndGrant b).afterDecision b := rfl

theorem BridgesStay.afterDecision (b : BridgeNo) : BridgesStay s (s.afterDecision b) :=
  (BridgesStay.testCapture s b).trans (BridgesStay.forEach (fun l s => .testLane s l) _ _)

theorem HeldZerosStay.applyEvaluation (b : BridgeNo) (e : Evaluation) : HeldZerosStay s (s.applyEvaluation b e) := by
  rw [State.applyEvaluation_afterDecision]
  refine .after (ZerosStay.onBridge s b (fun x => x.evaluated e) (fun _ => rfl)) rfl ?_
  exact (HeldZerosStay.zeroAndGrant _ b).then (BridgesStay.afterDecision _ b).zerosStay

theorem HeldZerosStay.evaluateDeck (d : DeckNo) : HeldZerosStay s (s.evaluateDeck d) := by
  cases h : s.bridgeOfDeck d with
  | none =>
    rw [State.evaluateDeck_none h]
    exact .refl s
  | some b =>
    rw [State.evaluateDeck_some h]
    exact .applyEvaluation s b _

theorem HeldZerosStay.sampleArrives (c : ChannelNo) (n : Int) (st : SampleStatus) :
    HeldZerosStay s (s.sampleArrives c n st) := by
  cases hd : s.deckOf c with
  | none =>
    rw [State.sampleArrives_unused hd]
    exact (ZerosStay.of_same (s.onChannel_same c _)).held
  | some d =>
    have h := s.sampleTaken_same c d n st
    have hs : ZerosStay s (s.sampleTaken c d n st) := .of_same h
    rw [State.sampleArrives_assigned hd]
    split
    · refine .after (t := (s.sampleTaken c d n st).deckArrival d) ?_ (h .grants (by decide)) ?_
      · exact hs.trans (.of_same (State.onDeck_same _ d _))
      · exact (HeldZerosStay.evaluateDeck _ d).then (InYard.seal _).zerosStay
    · exact hs.held

theorem HeldZerosStay.cellByte (c : ChannelNo) (b : Byte) (e : Bool) : HeldZerosStay s (s.cellByte c b e) := by
  unfold State.cellByte State.collectCell
  repeat' split
  all_goals first
    | exact .refl s
    | exact (BridgesStay.setReceiver s c _).zerosStay.held
    | exact .after (BridgesStay.setReceiver s c _).zerosStay rfl (.sampleArrives _ c _ _)

theorem HeldZerosStay.freshnessExpired (d : DeckNo) : HeldZerosStay s (s.freshnessExpired d) := by
  have h : ∀ (s : State) f, ZerosStay s (s.onDeck d f) := fun s f => .of_same (s.onDeck_same d f)
  unfold State.freshnessExpired
  split
  · simp only
    split
    · exact (h s _).held
    · refine .after ((h s (fun k => { k with freshness := none })).trans (h _ (fun k => k.cleared .stale))) rfl ?_
      exact (HeldZerosStay.evaluateDeck _ d).then (InYard.seal _).zerosStay
  · exact .refl s

/-- A held bridge takes no zero by request (R31). -/
theorem HeldZerosStay.actZeroNow (x : Byte) : HeldZerosStay s (actZeroNow x s).state := by
  cases hb : ofByte 4 x with
  | none =>
    simp only [Machine.actZeroNow, hb]
    exact .refl s
  | some b =>
    cases hr : s.zeroNowRefusal b with
    | some why =>
      rw [actZeroNow_refused hb hr]
      exact .refl s
    | none =>
      simp only [Machine.actZeroNow, hb, hr]
      intro o ho
      have hne : o ≠ b := by
        rintro rfl
        simp [State.zeroNowRefusal_held ho] at hr
      rw [State.accepted_state, State.decideGrant_bridge, State.onBridge_bridge_ne _ _ (Ne.symm hne)]

end

/-! ### Calibrations (R34 to R36) -/

/-- The zero of each bridge stays or is at its reference. -/
def ZerosStayOrReturn (s t : State) : Prop :=
  ∀ b : BridgeNo, (t.bridge b).zb = (s.bridge b).zb ∨ (t.bridge b).zb = (t.bridgeCal b).z0

theorem ZerosStay.orReturn {s t : State} (h : ZerosStay s t) : ZerosStayOrReturn s t := fun b => .inl (h b)

theorem ZerosStayOrReturn.after {s t u : State} (h : ZerosStay s t) (k : ZerosStayOrReturn t u) :
    ZerosStayOrReturn s u := fun b => (k b).imp_left (fun e => e.trans (h b))

/-- A change that keeps the calibration of the bridges keeps a zero at its reference. -/
theorem ZerosStayOrReturn.trans {s t u : State} (h : ZerosStayOrReturn s t) (k : ZerosStayOrReturn t u)
    (hc : u.ret.cal.bridges = t.ret.cal.bridges) : ZerosStayOrReturn s u := by
  intro b
  rcases k b with e | e
  · refine (h b).imp (fun f => e.trans f) (fun f => ?_)
    rw [e, f]
    unfold State.bridgeCal
    rw [hc]
  · exact .inr e

section
variable (s : State)

theorem ZerosStayOrReturn.zeroToReference (b : BridgeNo) : ZerosStayOrReturn s (s.zeroToReference b) := by
  intro o
  by_cases h : o = b
  · subst h
    exact .inr (by rw [State.zeroToReference_bridge]; rfl)
  · exact .inl (by rw [State.zeroToReference_others _ h])

theorem ZerosStay.zeroAndGrant_unstable {b : BridgeNo} (h : (s.bridge b).state ≠ .stable) :
    ZerosStay s (s.zeroAndGrant b) := by
  have hz : s.evaluationCounted.attemptZero b = s.evaluationCounted := State.attemptZero_unstable h
  have hg : (s.evaluationCounted.decideGrant b).attemptZero b = s.evaluationCounted.decideGrant b :=
    State.attemptZero_unstable (by
      rw [State.decideGrant_bridge]
      exact h)
  rw [State.zeroAndGrant_decides hz hg]
  exact (InYard.decideGrant s.evaluationCounted b).zerosStay

/-- The evaluation that follows a cleared window finds the bridge NOT_READY and takes no zero (R29, R36). -/
theorem ZerosStay.afterClearing (b : BridgeNo) : ZerosStay s (s.applyEvaluation b .afterCalibration) := by
  rw [State.applyEvaluation_afterDecision]
  refine (ZerosStay.onBridge s b (fun x => x.evaluated .afterCalibration) (fun _ => rfl)).trans ?_
  refine ZerosStay.trans ?_ (BridgesStay.afterDecision _ b).zerosStay
  refine ZerosStay.zeroAndGrant_unstable _ ?_
  rw [State.onBridge_bridge]
  exact (by decide : BridgeState.notReady ≠ .stable)

theorem ZerosStayOrReturn.clearBridge (b : BridgeNo) : ZerosStayOrReturn s (s.clearBridge b) := by
  refine (ZerosStayOrReturn.zeroToReference s b).trans (ZerosStay.orReturn ?_)
    (congrArg Calibration.bridges (Moves.clearBridge s b).kept.cal)
  unfold State.clearBridge
  simp only
  split
  · exact .onBridge _ b _ (fun _ => rfl)
  · exact .afterClearing _ b

theorem ZerosStayOrReturn.clearBridges (bs : List BridgeNo) :
    ZerosStayOrReturn s (forEach bs (fun b s => s.clearBridge b) s) := by
  induction bs generalizing s with
  | nil => exact (ZerosStay.refl s).orReturn
  | cons b bs ih =>
    refine (ZerosStayOrReturn.clearBridge s b).trans (ih _) ?_
    exact SameBut.forEach (fun b u => u.clearBridge_same b) bs _ .cal (by decide) |> congrArg Calibration.bridges

end

end Sys2Proof.Machine
end

-- ==== Proofs of family 02: the working zeros under every request ====
section
/-! What each request makes of the working zeros: those of held bridges stay, but for a calibration. -/

namespace Sys2Proof.Machine

/-- The calibration of a bridge is written, and the filters of the decks that were or are its members are emptied (R34,
R36). -/
def State.recalibrated (s : State) (b : BridgeNo) (k : BridgeCal) : State :=
  forEach ((s.bridgeCal b).members ++ k.members) (fun d s => s.onDeck d Deck.emptied) (s.onBridgeCal b (fun _ => k))

theorem State.recalibrated_same (s : State) (b : BridgeNo) (k : BridgeCal) :
    SameBut [.cal, .decks] s (s.recalibrated b k) :=
  ((s.onBridgeCal_same b _).mono (by decide)).then (SameBut.forEach (fun d u => u.onDeck_same d _) _ _)

theorem State.takeBridgeCal_eq (s : State) (b : BridgeNo) (k : BridgeCal) :
    s.takeBridgeCal b k = (((s.recalibrated b k).calibrated 0x12 (some b.val)).clearBridge b).seal := rfl

/-! ### The calibration requests (R9, R12, R34, R35) -/

/-- While a lane holds the grant of a bridge its zero stays, or a calibration, with the switch CLOSED, has returned it to
its reference. -/
def GrantGuardsZeros (s t : State) : Prop :=
  ∀ b : BridgeNo, (s.grant b).holder.isSome = true →
    (t.bridge b).zb = (s.bridge b).zb ∨ (s.metrology.closed = true ∧ (t.bridge b).zb = (t.bridgeCal b).z0)

theorem HeldZerosStay.guards {s t : State} (h : HeldZerosStay s t) : GrantGuardsZeros s t := fun b hb => .inl (h b hb)

theorem ZerosStay.guards {s t : State} (h : ZerosStay s t) : GrantGuardsZeros s t := h.held.guards

theorem BridgesStay.guards {s t : State} (h : BridgesStay s t) : GrantGuardsZeros s t := h.zerosStay.guards

theorem ZerosStayOrReturn.guards {s t : State} (hc : s.metrology.closed = true) (h : ZerosStayOrReturn s t) :
    GrantGuardsZeros s t := fun b _ => (h b).imp_right (fun e => ⟨hc, e⟩)

section
variable (s : State)

theorem ZerosStayOrReturn.takeDeckMap (map : Table 16 (Option DeckNo)) : ZerosStayOrReturn s (s.takeDeckMap map) := by
  rw [State.takeDeckMap_eq]
  refine .after (.of_same (s.remapped_same map)) ?_
  exact (ZerosStayOrReturn.clearBridges _ _).trans (InYard.seal _).zerosStay.orReturn rfl

theorem ZerosStayOrReturn.takeCell (c : ChannelNo) (z : Int) (n : Nat) : ZerosStayOrReturn s (s.takeCell c z n) := by
  rw [State.takeCell_eq]
  refine .after (.of_same (s.writeChannelCal_same c { zero := z, span := n, calibrated := true })) ?_
  refine ZerosStayOrReturn.trans ?_ (ZerosStay.of_same (State.calibrated_same _ _ _)).orReturn
    (congrArg Calibration.bridges (State.calibrated_cal _ _ _))
  cases s.bridgeOfChannel c with
  | none => exact (ZerosStay.refl _).orReturn
  | some b => exact .zeroToReference _ b

theorem ZerosStayOrReturn.takeBridgeCal (b : BridgeNo) (k : BridgeCal) : ZerosStayOrReturn s (s.takeBridgeCal b k) := by
  rw [State.takeBridgeCal_eq]
  refine .after ((ZerosStay.of_same (s.recalibrated_same b k)).trans
    (.of_same (State.calibrated_same _ 0x12 (some b.val)))) ?_
  exact (ZerosStayOrReturn.clearBridge _ b).trans (InYard.seal _).zerosStay.orReturn rfl

theorem ZerosStayOrReturn.takeReferenceZero (b : BridgeNo) (z : Int) :
    ZerosStayOrReturn s (s.takeReferenceZero b z) := by
  refine .after (.of_same (s.onBridgeCal_same b (fun k => { k with z0 := z }))) ?_
  exact (ZerosStayOrReturn.zeroToReference _ b).trans (ZerosStay.of_same (State.calibrated_same _ _ _)).orReturn
    (congrArg Calibration.bridges (State.calibrated_cal _ _ _))

theorem GrantGuardsZeros.actCalDeckMap (d : Table 16 Byte) : GrantGuardsZeros s (actCalDeckMap d s).state := by
  unfold Machine.actCalDeckMap
  split
  · exact (ZerosStay.refl s).guards
  · next h =>
    repeat' split
    all_goals first
      | exact (ZerosStay.refl s).guards
      | exact (ZerosStayOrReturn.takeDeckMap s _).guards (State.calibrationGate_closed h)

theorem GrantGuardsZeros.actCalCell (f : CalCellFields) : GrantGuardsZeros s (actCalCell f s).state := by
  unfold Machine.actCalCell
  split
  · exact (ZerosStay.refl s).guards
  · next h =>
    repeat' split
    all_goals first
      | exact (ZerosStay.refl s).guards
      | exact (ZerosStayOrReturn.takeCell s _ _ _).guards (State.calibrationGate_closed h)

theorem GrantGuardsZeros.actCalBridge (f : CalBridgeFields) : GrantGuardsZeros s (actCalBridge f s).state := by
  unfold Machine.actCalBridge
  split
  · exact (ZerosStay.refl s).guards
  · next h =>
    repeat' split
    all_goals first
      | exact (ZerosStay.refl s).guards
      | exact (ZerosStayOrReturn.takeBridgeCal s _ _).guards (State.calibrationGate_closed h)

theorem GrantGuardsZeros.actCalReferenceZero (f : CalZeroFields) :
    GrantGuardsZeros s (actCalReferenceZero f s).state := by
  unfold Machine.actCalReferenceZero
  split
  · exact (ZerosStay.refl s).guards
  · next h =>
    repeat' split
    all_goals first
      | exact (ZerosStay.refl s).guards
      | exact (ZerosStayOrReturn.takeReferenceZero s _ _).guards (State.calibrationGate_closed h)

/-! ### The other requests -/

theorem InYard.leaveListing (l : LaneNo) (k : LaneConfig) : InYard s (s.leaveListing l k) := by
  unfold State.leaveListing
  split
  · exact .refl s
  · exact .ite (.refl s) (.onGrant s _ _)

theorem BridgesStay.onSite (f : SiteSettings → SiteSettings) : BridgesStay s (s.onSite f) := fun _ => rfl

theorem BridgesStay.actConfigLane (f : ConfigLaneFields) : BridgesStay s (actConfigLane f s).state := by
  unfold Machine.actConfigLane
  split
  · next l k _ _ =>
    have h : BridgesStay s (((s.leaveListing l k).onSite (fun t => { t with lanes := t.lanes.write l k })).seal) :=
      ((InYard.leaveListing s l k).bridgesStay.trans (.onSite _ _)).trans (InYard.seal _).bridgesStay
    repeat' split
    all_goals first
      | exact .refl s
      | exact .ite (h.trans (InYard.comeToIdle _ l).bridgesStay) h
  · exact .refl s

theorem ZerosStay.retimed (b : BridgeNo) (f : BridgeTimingFields) : ZerosStay s (s.retimed b f) := by
  intro o
  by_cases h : o = b
  · subst h
    rw [State.retimed_bridge]
  · rw [State.retimed_bridge_other s b f h]

theorem ZerosStay.actConfigBridgeTiming (f : BridgeTimingFields) : ZerosStay s (actConfigBridgeTiming f s).state := by
  cases hb : ofByte 4 f.bridge with
  | none =>
    simp only [Machine.actConfigBridgeTiming, hb]
    exact .refl s
  | some b =>
    cases hp : s.failing with
    | true =>
      rw [actConfigBridgeTiming_failing hp hb]
      exact .refl s
    | false =>
      rw [actConfigBridgeTiming_accepted hb hp]
      exact ((ZerosStay.retimed s b f).trans (.of_same (s.retimedReported_units b f))).trans
        (InYard.decideGrant _ b).zerosStay

theorem BridgesStay.actConfigStream (f : ConfigStreamFields) : BridgesStay s (actConfigStream f s).state := by
  unfold Machine.actConfigStream
  repeat' split
  all_goals exact fun _ => rfl

theorem BridgesStay.actConfigTimers (f : ConfigTimersFields) : BridgesStay s (actConfigTimers f s).state := by
  unfold Machine.actConfigTimers
  split
  · exact .refl s
  · exact (BridgesStay.onSite s _).trans (((InYard.seal _).trans (.onAdm _ _)).trans (.testHigh _)).bridgesStay

theorem BridgesStay.actTimeSet (v : Word) : BridgesStay s (actTimeSet v s).state := by
  unfold Machine.actTimeSet
  split
  · exact .refl s
  · exact fun _ => rfl

theorem InYard.raiseFront (l : LaneNo) : InYard s (s.raiseFront l) := .of (s.raiseFront_same l)

theorem InYard.takeArrival (l : LaneNo) (tag : Word) (k : StreamNo) : InYard s (s.takeArrival l tag k) := by
  have h : InYard s (s.onLane l (fun n =>
      { n with identityTimer := .stopped, identity := some { tag := tag, stream := k } })) := .onLane s l _
  have refuse : ∀ (v : State) r, InYard v (v.refuseVehicle l tag r) := fun v r => .refuseVehicle v l tag r
  unfold State.takeArrival
  simp only
  split
  · exact h
  · refine h.trans ?_
    unfold State.decideAdmission
    repeat' split
    · exact refuse _ _
    · exact .joinSiteFull _ l
    · exact .streamStep _ l tag k
  · refine h.trans ?_
    unfold State.arriveOutbound
    split
    · exact refuse _ _
    · exact (InYard.onVisit _ _ _).trans (.enterAwaitBridge _ l _)
  · refine h.trans ?_
    unfold State.arriveBypass
    split
    · exact refuse _ _
    · exact ((((InYard.onVisit _ _ _).trans (.onVisit _ _ _)).trans (.onLane _ l _)).trans (.raiseFront _ l)).trans
        (.enterState _ l _ _)

theorem BridgesStay.actArrival (l : Byte) (tag : Word) (k : Byte) : BridgesStay s (actArrival l tag k s).state := by
  unfold Machine.actArrival
  repeat' split
  all_goals first
    | exact .refl s
    | exact ((InYard.takeArrival s _ tag _).trans (.seal _)).bridgesStay

theorem BridgesStay.actLaneTakeover (l : Byte) : BridgesStay s (actLaneTakeover l s).state := by
  unfold Machine.actLaneTakeover
  repeat' split
  all_goals first
    | exact .refl s
    | exact (BridgesStay.takeOver s _).trans (InYard.seal _).bridgesStay

theorem BridgesStay.actLaneRelease (l : Byte) : BridgesStay s (actLaneRelease l s).state := by
  unfold Machine.actLaneRelease
  repeat' split
  all_goals first
    | exact .refl s
    | exact ((InYard.forEach (fun b s => .commandLower s b) _ s).trans
        (.ite (.enterState _ _ _ _) (.comeToIdle _ _))).bridgesStay

theorem BridgesStay.actLaneRetry (l : Byte) : BridgesStay s (actLaneRetry l s).state := by
  unfold Machine.actLaneRetry
  repeat' split
  all_goals first
    | exact .refl s
    | exact (BridgesStay.startOwnCapture s _).trans ((InYard.enterState _ _ _ _).trans (.seal _)).bridgesStay

theorem BridgesStay.actLaneBackout (l : Byte) : BridgesStay s (actLaneBackout l s).state := by
  unfold Machine.actLaneBackout
  repeat' split
  all_goals first
    | exact .refl s
    | exact ((InYard.raiseFront s _).trans (.enterState _ _ _ _)).bridgesStay

theorem BridgesStay.barrierCommandOf {c : Byte} {g : State → BarrierNo → State} (h : barrierCommandOf c = some g)
    (b : BarrierNo) : BridgesStay s (g s b) := by
  unfold Machine.barrierCommandOf at h
  repeat' split at h
  all_goals simp only [Option.some.injEq, reduceCtorEq] at h
  all_goals
    subst h
    exact fun _ => rfl

theorem BridgesStay.actBarrierCommand (l b c : Byte) : BridgesStay s (actBarrierCommand l b c s).state := by
  unfold Machine.actBarrierCommand
  split
  · next hg =>
    repeat' split
    all_goals first
      | exact .refl s
      | exact .barrierCommandOf s hg _
  · exact .refl s

theorem BridgesStay.resetBarrier (b : BarrierNo) : BridgesStay s (s.resetBarrier b) := by
  have h : BridgesStay s (s.onBarrier b Barrier.reset) := .onBarrier s b _
  unfold State.resetBarrier
  exact .ite (.ite h ((h.trans (.barrierSettled _ b)).trans (InYard.seal _).bridgesStay)) (.refl s)

theorem BridgesStay.actBarrierReset (b : Byte) : BridgesStay s (actBarrierReset b s).state := by
  unfold Machine.actBarrierReset
  split
  · exact .refl s
  · exact .resetBarrier s _

theorem ZerosStay.actZeroWaive (b : Byte) : ZerosStay s (actZeroWaive b s).state := by
  cases hb : ofByte 4 b with
  | none =>
    simp only [Machine.actZeroWaive, hb]
    exact .refl s
  | some b =>
    rw [actZeroWaive_waives hb]
    have h : ZerosStay s (s.waived b) := .onBridge s b _ (fun _ => rfl)
    exact h.trans (InYard.decideGrant _ b).zerosStay

theorem BridgesStay.actChannelClear (x : Selector) : BridgesStay s (actChannelClear x s).state := by
  unfold Machine.actChannelClear
  split
  · exact .refl s
  · exact .of_same (s.clearStalls_same _)
  · exact .of_same (s.clearStalls_same _)

theorem InYard.installAnswer (n : Bool) (a : Answer) : InYard s (s.installAnswer n a) := by
  cases a with
  | unknownTag => exact .refl s
  | entry p => exact .ite (.refl s) (.onAdm s _)

theorem InYard.takeAnswer (l : LaneNo) (a : Answer) : InYard s (s.takeAnswer l a).state := by
  unfold State.takeAnswer
  split
  · unfold State.timelyAnswer
    simp only
    split
    · exact (InYard.installAnswer s _ a).trans (.onSlot _ l _)
    · exact ((InYard.installAnswer s _ a).trans (.decideByAnswer _ l a)).trans (.seal _)
  · split
    · exact .refl s
    · have h : ∀ v, InYard s ((s.installAnswer (s.slot l).noInstall a).takeAccount v a) := fun v => by
        refine (InYard.installAnswer s (s.slot l).noInstall a).trans ?_
        cases a with
        | unknownTag => exact .refl _
        | entry p => exact (InYard.onVisit _ _ _).trans (.seal _)
      unfold State.lateAnswer
      simp only
      split
      · exact .installAnswer s _ a
      · split
        · exact h _
        · exact (h _).trans (.report _ _)

theorem BridgesStay.actPermitAnswer (f : PermitAnswerFields) : BridgesStay s (actPermitAnswer f s).state := by
  unfold Machine.actPermitAnswer
  repeat' split
  all_goals first
    | exact .refl s
    | exact (InYard.takeAnswer s _ _).bridgesStay

theorem BridgesStay.actInvalidate (c : Byte) (a : Half) (t : Word) : BridgesStay s (actInvalidate c a t s).state := by
  unfold Machine.actInvalidate State.invalidate
  repeat' split
  all_goals exact fun _ => rfl

theorem BridgesStay.actCreditSet (a : Half) (c : Word) (x : Byte) : BridgesStay s (actCreditSet a c x s).state := by
  unfold Machine.actCreditSet
  split
  · exact .refl s
  · exact fun _ => rfl

theorem BridgesStay.actRefusalClear (r o : Byte) : BridgesStay s (actRefusalClear r o s).state := by
  unfold Machine.actRefusalClear
  split
  · exact .refl s
  · exact InYard.bridgesStay (.ite ((InYard.onAdm s _).trans (.onAdm _ _)) (.onAdm s _))

theorem BridgesStay.actRefusalMask (x : Byte) : BridgesStay s (actRefusalMask x s).state := by
  have h : InYard s s.unmask :=
    .ite (((InYard.onAdm s _).trans (.report _ _)).trans (.onAdm _ _)) (.onAdm s _)
  unfold Machine.actRefusalMask
  repeat' split
  · exact (InYard.onAdm s _).bridgesStay
  · exact h.bridgesStay
  · exact .refl s

theorem BridgesStay.visitTakenAway (l : LaneNo) : BridgesStay s (s.visitTakenAway l) := by
  have clear : InYard s (s.clearLaneVisit l) := .onLane s l _
  unfold State.visitTakenAway
  split
  · exact ((((InYard.withdrawRequest s l).trans (.releaseGrant _ l)).trans (.clearVehicle _ l)).trans
      (.enterState _ l _ _)).bridgesStay
  · exact clear.bridgesStay.trans (.takeOver _ l)
  · exact clear.bridgesStay.trans (.takeOver _ l)
  · exact clear.bridgesStay.trans (.takeOver _ l)
  · exact clear.bridgesStay
  · exact clear.bridgesStay
  · exact clear.bridgesStay
  · exact clear.bridgesStay
  · exact .refl s

theorem BridgesStay.cancelFound (v : Option Visit) : BridgesStay s (s.cancelFound v).state := by
  have h : ∀ v : Visit, BridgesStay s (s.cancelVisit v) := fun v => by
    unfold State.cancelVisit
    refine BridgesStay.trans ?_ (InYard.serveFreed _).bridgesStay
    split
    · exact (InYard.onVisits s _).bridgesStay
    · exact (InYard.onVisits s _).bridgesStay.trans (.visitTakenAway _ _)
  unfold State.cancelFound
  repeat' split
  all_goals first
    | exact .refl s
    | exact (h _).trans (InYard.seal _).bridgesStay

theorem BridgesStay.actVisitCancel (k : Byte) (o : Word) : BridgesStay s (actVisitCancel k o s).state := by
  unfold Machine.actVisitCancel
  split
  · exact .cancelFound s _
  · exact .cancelFound s _
  · exact .refl s
  · exact .refl s

theorem BridgesStay.actTareWrite (f : TareWriteFields) : BridgesStay s (actTareWrite f s).state := by
  unfold Machine.actTareWrite
  repeat' split
  all_goals exact fun _ => rfl

theorem BridgesStay.actTareDelete (tag : Word) : BridgesStay s (actTareDelete tag s).state := by
  unfold Machine.actTareDelete
  repeat' split
  all_goals exact fun _ => rfl

theorem BridgesStay.actTicketCollect (n : Word) : BridgesStay s (actTicketCollect n s).state := by
  have h : InYard s (s.collectTickets n.toNat) := by
    have hj : InYard s (s.onJournal (fun j => j.collect n.toNat)) := .onJournal s _
    unfold State.collectTickets
    exact ((InYard.ite (hj.trans (.of (State.marks_same _ _))) hj).trans (.testHigh _)).trans (.drain _)
  unfold Machine.actTicketCollect
  repeat' split
  all_goals first
    | exact .refl s
    | exact (h.trans (.seal _)).bridgesStay

theorem BridgesStay.actTicketBase (n : Word) : BridgesStay s (actTicketBase n s).state := by
  unfold Machine.actTicketBase
  repeat' split
  all_goals first
    | exact .refl s
    | exact (((InYard.onJournal s _).trans (.drain _)).trans (.seal _)).bridgesStay

/-- What a request that only reads leaves. -/
theorem BridgesStay.of_eq {s t : State} (h : t = s) : BridgesStay s t := h ▸ .refl s

theorem GrantGuardsZeros.act (r : Request) : GrantGuardsZeros s (act r s).state := by
  cases r
  case zeroNow b => exact (HeldZerosStay.actZeroNow s b).guards
  case calDeckMap d => exact .actCalDeckMap s d
  case calCell f => exact .actCalCell s f
  case calBridge f => exact .actCalBridge s f
  case calReferenceZero f => exact .actCalReferenceZero s f
  case configBridgeTiming f => exact (ZerosStay.actConfigBridgeTiming s f).guards
  case zeroWaive b => exact (ZerosStay.actZeroWaive s b).guards
  all_goals apply BridgesStay.guards
  case identify | statusRead | reset | cacheRead | refusalRead => exact .refl s
  case configLane f => exact .actConfigLane s f
  case configStream f => exact .actConfigStream s f
  case configTimers f => exact .actConfigTimers s f
  case timeSet v => exact .actTimeSet s v
  case arrival l t k => exact .actArrival s l t k
  case laneTakeover l => exact .actLaneTakeover s l
  case laneRelease l => exact .actLaneRelease s l
  case laneRetry l => exact .actLaneRetry s l
  case laneBackout l => exact .actLaneBackout s l
  case barrierCommand l b c => exact .actBarrierCommand s l b c
  case barrierReset b => exact .actBarrierReset s b
  case weightRead x => exact .of_eq (act_weightRead x s)
  case channelRead x => exact .of_eq (act_channelRead x s)
  case channelClear x => exact .actChannelClear s x
  case permitAnswer f => exact .actPermitAnswer s f
  case invalidate c a t => exact .actInvalidate s c a t
  case creditSet a c x => exact .actCreditSet s a c x
  case refusalClear r o => exact .actRefusalClear s r o
  case refusalMask x => exact .actRefusalMask s x
  case visitRead k o => exact .of_eq (act_visitRead k o s)
  case visitCancel k o => exact .actVisitCancel s k o
  case tareWrite f => exact .actTareWrite s f
  case tareDelete t => exact .actTareDelete s t
  case tareRead k o => exact .of_eq (act_tareRead k o s)
  case ticketRead n => exact .of_eq (act_ticketRead n s)
  case ticketCollect n => exact .actTicketCollect s n
  case ticketBase n => exact .actTicketBase s n

end

end Sys2Proof.Machine
end

-- ==== Proofs of family 02: the working zeros under every command, settled ====
section
/-! What the link unit does comes to the carrying out of at most one request (R188); every command but a reset and the loss
of main power guards the zero of a held bridge (O7). -/

namespace Sys2Proof.Machine

/-! ### The one request of a command of the link (R186 to R191) -/

/-- The link unit alone changes, or one request is carried out between two changes of the link unit. -/
def TakesOne (s t : State) : Prop :=
  (∃ f, t = s.onLink f) ∨ ∃ r f g, t = (act r (s.onLink f)).state.onLink g

theorem TakesOne.onLink (s : State) (f : Link → Link) : TakesOne s (s.onLink f) := .inl ⟨f, rfl⟩

theorem TakesOne.refl (s : State) : TakesOne s s := .onLink s (fun k => k)

theorem TakesOne.after {s t : State} (f : Link → Link) (h : TakesOne (s.onLink f) t) : TakesOne s t := by
  rcases h with ⟨g, rfl⟩ | ⟨r, g, k, rfl⟩
  · exact .inl ⟨fun x => g (f x), rfl⟩
  · exact .inr ⟨r, fun x => g (f x), k, rfl⟩

section
variable (s : State)

theorem TakesOne.takeFrame (f : LinkFrame) : TakesOne s (s.takeFrame f) := by
  unfold State.takeFrame State.setReply
  cases f with
  | request r => exact .inr ⟨r, fun k => k, _, rfl⟩
  | unknownKind k => exact .onLink s _
  | badLength k => exact .onLink s _

theorem TakesOne.takeNext : TakesOne s s.takeNext := by
  unfold State.takeNext
  split
  · exact .refl s
  · split
    · exact .refl s
    · next f rest _ => exact .after (fun k => { k with queue := rest }) (.takeFrame _ f)

theorem TakesOne.frameArrives (f : LinkFrame) : TakesOne s (s.frameArrives f) := by
  unfold State.frameArrives State.queueFrame
  refine .after (fun k => { k with receiver := .hunting }) ?_
  split
  · exact .after (fun k => { k with queue := k.queue ++ [f] }) (.takeNext _)
  · split
    · exact .onLink _ _
    · exact .refl _

theorem TakesOne.judgeFrame (bytes : List Byte) (n : Nat) : TakesOne s (s.judgeFrame bytes n) := by
  unfold State.judgeFrame
  simp only
  split
  · split
    · exact .frameArrives s _
    · exact .onLink s _
  · exact .onLink s _

theorem TakesOne.hostByte (b : Byte) (e : Bool) : TakesOne s (s.hostByte b e) := by
  unfold State.hostByte State.collectByte
  repeat' split
  all_goals first
    | exact .refl s
    | exact .onLink s _
    | exact .judgeFrame s _ _

/-- The end of a frame that is not the reply to RESET. -/
theorem TakesOne.endTransmission (h : s.resetsAt .transmitFrameEnd = false) : TakesOne s s.endTransmission := by
  unfold State.endTransmission
  split
  · exact .refl s
  · next f hf =>
    refine .after (fun k => { k with sending := none }) ?_
    unfold State.frameSent
    cases f with
    | reply r =>
      have hb : r.body ≠ .resetAccepted := by simpa [State.resetsAt, hf] using h
      unfold State.replySent
      simp only
      exact .after (fun k => { k with current := none }) (.takeNext _)
    | busy r => exact TakesOne.onLink _ _
    | query q => exact TakesOne.onLink _ _
    | report r => exact .refl _

end

theorem GrantGuardsZeros.of_takesOne {s t : State} (h : TakesOne s t) : GrantGuardsZeros s t := by
  rcases h with ⟨f, rfl⟩ | ⟨r, f, g, rfl⟩
  · exact BridgesStay.guards (fun _ => rfl)
  · exact GrantGuardsZeros.act (s.onLink f) r

/-! ### Every command -/

theorem BridgesStay.transmit (s : State) : BridgesStay s s.transmit := fun b => by rw [State.transmit_bridge]

/-- The end of an event looks at the link unit alone. -/
theorem GrantGuardsZeros.run {s t : State} {f : State → State} (h : s.run f = .next t)
    (hf : GrantGuardsZeros s (f s)) : GrantGuardsZeros s t := by
  obtain rfl : _ = t := by simpa [State.run] using h
  split
  · intro b hb
    have hc : (f s).transmit.bridgeCal b = (f s).bridgeCal b := by simp [State.bridgeCal]
    rw [State.transmit_bridge, hc]
    exact hf b hb
  · exact (BridgesStay.refl s).guards

theorem BridgesStay.run {s t : State} {f : State → State} (h : s.run f = .next t) (hf : BridgesStay s (f s)) :
    GrantGuardsZeros s t := .run h hf.guards

/-- The same for an event that also moves the inputs. -/
theorem BridgesStay.runPins {s t : State} {p : Pins → Pins} {f : State → State} (h : s.runPins p f = .next t)
    (hf : ∀ s, BridgesStay s (f s)) : GrantGuardsZeros s t := by
  obtain rfl : _ = t := by simpa [State.runPins] using h
  apply BridgesStay.guards
  have hp : BridgesStay s (s.onPins p) := fun _ => rfl
  split
  · exact hp.trans ((hf _).trans (.transmit _))
  · exact hp

theorem GrantGuardsZeros.receive (s : State) {t : State} (r : Request) (h : s.receive r = .next t) :
    GrantGuardsZeros s t := .run h (.of_takesOne (.frameArrives s _))

/-- Every command but a reset and the loss of main power guards the zero of a held bridge. -/
theorem GrantGuardsZeros.exec {c : Instr} {s t : State} (hr : s.resetsAt c = false) (hl : c ≠ .mainPowerLoss)
    (h : Machine.exec c s = .next t) : GrantGuardsZeros s t := by
  cases c
  case identify | statusRead | reset | configLane | configBridgeTiming | configStream | configTimers | calDeckMap |
      calCell | calBridge | calReferenceZero | timeSet | arrival | laneTakeover | laneRelease | laneRetry |
      laneBackout | barrierCommand | barrierReset | weightRead | zeroNow | zeroWaive | channelRead | channelClear |
      permitAnswer | invalidate | creditSet | cacheRead | refusalRead | refusalClear | refusalMask | visitRead |
      visitCancel | tareWrite | tareDelete | tareRead | ticketRead | ticketCollect | ticketBase =>
    exact .receive s _ h
  all_goals
    simp only [Machine.exec, execHostFrameReceived, execHostFrameGapTimeout, execTransmitFrameEnd, execSampleArrival,
      execCellFrameGapTimeout, execStallTimerExpiry, execFreshnessExpiry, execZeroTimerExpiry,
      execCaptureDeadlineExpiry, execMotionTimerExpiry, execIdentityTimerExpiry, execEntryTimerExpiry,
      execAgingTimerExpiry, execQueryDeadlineExpiry, execClockTick, execMetrologyInputChange,
      execMetrologySwitchChange, execEndSwitchInputChange, execEndSwitchChange, execSafetyLoopOccupied,
      execSafetyLoopInputInactive, execSafetyLoopClear, execApproachLoopOccupied, execApproachLoopInputInactive,
      execApproachLoopClear, execBeamBroken, execBeamInputClear, execBeamClear, execPowerFailAssert,
      execPowerFailInputInactive, execPowerFailDeassert, execLoadCellByteReceived, execHostLinkByteReceived,
      execMainPowerLoss, execBackupSupplyFailure] at h
  case hostFrameReceived k p =>
    refine .run h (.of_takesOne ?_)
    split
    · exact .frameArrives s _
    · exact .onLink s _
  case hostFrameGapTimeout => exact BridgesStay.run h (fun _ => rfl)
  case transmitFrameEnd => exact .run h (.of_takesOne (.endTransmission s hr))
  case hostLinkByteReceived b e => exact .run h (.of_takesOne (.hostByte s b e))
  case loadCellByteReceived c b e => exact .run h (HeldZerosStay.cellByte s c b e).guards
  case sampleArrival c n st => exact .run h (HeldZerosStay.sampleArrives s c _ st).guards
  case freshnessExpiry d => exact .run h (HeldZerosStay.freshnessExpired s d).guards
  case cellFrameGapTimeout c => exact BridgesStay.run h (.setReceiver s c _)
  case stallTimerExpiry c => exact BridgesStay.run h (.stallExpired s c)
  case zeroTimerExpiry b => exact .run h (ZerosStay.zeroTimerExpired s b).guards
  case captureDeadlineExpiry b => exact BridgesStay.run h (.captureExpired s b)
  case motionTimerExpiry b => exact BridgesStay.run h (.motionExpired s b)
  case identityTimerExpiry l => exact BridgesStay.run h (.identityExpired s l)
  case entryTimerExpiry l => exact BridgesStay.run h (.entryTimerExpired s l)
  case agingTimerExpiry => exact BridgesStay.run h (fun _ => rfl)
  case queryDeadlineExpiry l => exact BridgesStay.run h (.deadlineExpired s l)
  case metrologySwitchChange => exact BridgesStay.run h (fun _ => rfl)
  case endSwitchChange b w => exact BridgesStay.run h (.switchHeld s b w)
  case safetyLoopClear b => exact BridgesStay.run h (.safetyClear s b)
  case approachLoopClear a => exact BridgesStay.run h (.approachClear s a)
  case beamClear m => exact BridgesStay.run h (fun _ => rfl)
  case powerFailDeassert => exact BridgesStay.run h (.ite (.powerRestored s) (.refl s))
  case metrologyInputChange b => exact BridgesStay.runPins h (fun u => .ite (.refl u) (fun _ => rfl))
  case endSwitchInputChange b w a => exact BridgesStay.runPins h (fun u => .ite (.refl u) (fun _ => rfl))
  case safetyLoopOccupied b i => exact BridgesStay.runPins h (fun u => .safetyActive u b)
  case safetyLoopInputInactive b => exact BridgesStay.runPins h (fun u _ => rfl)
  case approachLoopOccupied a i => exact BridgesStay.runPins h (fun u => .approachActive u a)
  case approachLoopInputInactive a => exact BridgesStay.runPins h (fun u _ => rfl)
  case beamBroken m => exact BridgesStay.runPins h (fun u _ => rfl)
  case beamInputClear m => exact BridgesStay.runPins h (fun u _ => rfl)
  case powerFailAssert => exact BridgesStay.runPins h (fun u => .powerFailing u)
  case powerFailInputInactive => exact BridgesStay.runPins h (fun u _ => rfl)
  case resetInput x => exact absurd hr (by simp [State.resetsAt])
  case mainPowerLoss => exact absurd rfl hl
  case clockTick =>
    injection h with h
    subst h
    exact BridgesStay.guards (fun _ => rfl)
  case backupSupplyFailure =>
    injection h with h
    subst h
    exact BridgesStay.guards (.ite (.refl s) (fun _ => rfl))

end Sys2Proof.Machine

open Sys2Proof Sys2Proof.Machine

/-- Settles O7: each change of a step keeps the two ranges, and no change under a held grant takes a zero. -/
theorem zeroAndBacklogStayInTheirRanges : Obligations.ZeroAndBacklogStayInTheirRanges := by
  unfold Obligations.ZeroAndBacklogStayInTheirRanges
  refine ⟨fun s t hs h => (Shape.step s t h).zeroHeld hs, fun s t hs h => (Shape.step s t h).backlogHeld hs,
    fun c s t b l h hr hl hg => ?_⟩
  exact GrantGuardsZeros.exec hr hl h b (by rw [hg]; rfl)

end

-- ==== Proofs of family 02: the timers of decks and bridges ====
section
/-! The freshness timer of a deck, the zero timer and the capture deadline of a bridge (O53). -/

namespace Sys2Proof.Machine

variable {s : State} {b : BridgeNo} {d : DeckNo}

@[simp] theorem State.seal_voiced (s : State) : s.seal.voiced = s.voiced := rfl

/-! ### The freshness timer (R20) -/

/-- The deck of an expired freshness timer that was not STALE: no history, no F and no timer. -/
def State.madeStale (s : State) (d : DeckNo) : State :=
  s.onDeck d (fun k => { k with condition := .stale, history := [], filtered := none, freshness := none })

@[simp] theorem State.madeStale_deck :
    (s.madeStale d).deck d = { condition := .stale, history := [], filtered := none, freshness := none } := by
  simp [State.madeStale]

theorem State.madeStale_others {e : DeckNo} (h : e ≠ d) : (s.madeStale d).deck e = s.deck e :=
  s.onDeck_deck_ne _ (Ne.symm h)

theorem State.madeStale_same (s : State) (d : DeckNo) : SameBut [.decks] s (s.madeStale d) := s.onDeck_same d _

@[simp] theorem State.madeStale_bridgeOfDeck (e : DeckNo) : (s.madeStale d).bridgeOfDeck e = s.bridgeOfDeck e := rfl

theorem State.freshnessExpired_stopped (h : (s.deck d).freshness = none) : s.freshnessExpired d = s := by
  simp [State.freshnessExpired, h]

theorem State.freshnessExpired_again (h : (s.deck d).freshness.isSome = true) (hc : (s.deck d).condition = .stale) :
    s.freshnessExpired d = s.onDeck d (fun k => { k with freshness := none }) := by
  simp [State.freshnessExpired, h, hc]

theorem State.freshnessExpired_fresh (h : (s.deck d).freshness.isSome = true) (hc : (s.deck d).condition ≠ .stale) :
    s.freshnessExpired d = ((s.madeStale d).evaluateDeck d).seal := by
  have hd : (s.onDeck d (fun k => { k with freshness := none })).onDeck d (fun k => k.cleared .stale) =
      s.madeStale d := by
    simp [State.madeStale, State.onDeck, State.deck, Deck.cleared, Table.write_write]
  simp [State.freshnessExpired, h, hc, hd]

/-- With a member deck STALE the evaluation finds NOT_READY and no window (R18, R20, R22). -/
theorem State.evaluateDeck_stale (h : s.bridgeOfDeck d = some b) (hc : (s.deck d).condition = .stale) :
    ((s.evaluateDeck d).bridge b).state = .notReady ∧ ((s.evaluateDeck d).bridge b).gross = none ∧
      ((s.evaluateDeck d).bridge b).window = [] ∧ ((s.evaluateDeck d).bridge b).run = 0 := by
  have hd := State.bridgeOfDeck_member h
  have hr := s.applyEvaluation_results b (s.evaluation b)
  obtain ⟨hst, hrun⟩ := State.evaluation_notReady (s := s) (b := b) (.inr ⟨d, hd, .inr (.inr hc)⟩)
  obtain ⟨-, hg, -, hw⟩ := State.evaluation_unformed (s := s) (b := b) ⟨d, hd, by simp [hc]⟩
  rw [State.evaluateDeck_some h]
  exact ⟨(congrArg Evaluation.state hr).trans hst, (congrArg Evaluation.gross hr).trans hg,
    (congrArg Evaluation.window hr).trans hw, (congrArg Evaluation.run hr).trans hrun⟩

theorem exec_freshnessExpiry (h : s.powered = true) :
    exec (.freshnessExpiry d) s = .next (s.freshnessExpired d).transmit :=
  State.run_powered h (fun s => s.freshnessExpired d)

/-- A freshness timer that expires on a deck with a condition other than STALE. -/
theorem freshnessExpiry_makes_stale (hp : s.powered = true) (h : (s.deck d).freshness.isSome = true)
    (hc : (s.deck d).condition ≠ .stale) :
    ∃ t, exec (.freshnessExpiry d) s = .next t ∧
      t.deck d = { condition := .stale, history := [], filtered := none, freshness := none } ∧
      (∀ e : DeckNo, e ≠ d → t.deck e = s.deck e) ∧ t.channels = s.channels ∧
      (s.bridgeOfDeck d = none → SameBut [.decks, .checkWord] s t) ∧
      (∀ b : BridgeNo, s.bridgeOfDeck d = some b →
        (t.bridge b).state = .notReady ∧ (t.bridge b).gross = none ∧ (t.bridge b).window = [] ∧
          (t.bridge b).run = 0) := by
  have hv := (s.madeStale d).evaluateDeck_same d
  have hd : ∀ e, ((s.madeStale d).evaluateDeck d).deck e = (s.madeStale d).deck e := fun e => hv.deck e
  have hc' : ((s.madeStale d).evaluateDeck d).channels = s.channels := hv .channels (by decide)
  refine ⟨_, exec_freshnessExpiry hp, ?_⟩
  rw [State.freshnessExpired_fresh h hc]
  refine ⟨?_, fun e he => ?_, ?_, fun hb => ?_, fun b hb => ?_⟩
  · simp [hd]
  · simp [hd, State.madeStale_others he]
  · simpa using hc'
  · rw [State.evaluateDeck_none (by simpa using hb)]
    exact (((s.madeStale_same d).mono (by decide)).then (State.seal_same _)).transmit
  · simpa using State.evaluateDeck_stale (s := s.madeStale d) (by simpa using hb) (by simp)

/-! ### The zero timer (R27, R28) -/

/-- The bridge after its zero timer: the timer restarted and the backlog one higher, up to 15. -/
def State.zeroRestarted (s : State) (b : BridgeNo) : State :=
  s.onBridge b (fun x =>
    { x with
      zeroTimer := (s.timing b).zeroInterval * 1000
      backlog := if x.backlog < 15 then x.backlog + 1 else x.backlog })

theorem State.zeroRestarted_eq (s : State) (b : BridgeNo) :
    s.onBridge b (fun x => { x with zeroTimer := s.zeroTime b, backlog := countTo 15 x.backlog }) =
      s.zeroRestarted b := by
  have hc : ∀ n, countTo 15 n = if n < 15 then n + 1 else n := fun n => by
    unfold countTo
    split <;> split <;> omega
  simp [State.zeroRestarted, State.zeroTime, hc]

@[simp] theorem State.zeroRestarted_bridge :
    (s.zeroRestarted b).bridge b =
      { s.bridge b with
        zeroTimer := (s.timing b).zeroInterval * 1000,
        backlog := if (s.bridge b).backlog < 15 then (s.bridge b).backlog + 1 else (s.bridge b).backlog } := by
  simp [State.zeroRestarted]

theorem State.zeroRestarted_same (s : State) (b : BridgeNo) : SameBut [.bridges] s (s.zeroRestarted b) :=
  s.onBridge_same b _

/-- The passage into urgency is the passage of the backlog to U. -/
theorem State.zeroRestarted_urgent :
    (s.urgent b = false ∧ (s.zeroRestarted b).urgent b = true) ↔
      (s.timing b).urgent = (s.bridge b).backlog + 1 ∧ (s.bridge b).backlog < 15 := by
  have ht : (s.zeroRestarted b).timing b = s.timing b := rfl
  simp only [State.urgent, ht, State.zeroRestarted_bridge, decide_eq_true_eq, decide_eq_false_iff_not]
  split <;> omega

theorem State.zeroTimerExpired_urgent (hu : (s.timing b).urgent = (s.bridge b).backlog + 1)
    (hb : (s.bridge b).backlog < 15) :
    s.zeroTimerExpired b = (s.zeroRestarted b).report ((s.zeroRestarted b).zeroReport b .urgent none none) := by
  simp only [State.zeroTimerExpired, State.zeroRestarted_eq]
  exact if_pos (State.zeroRestarted_urgent.mpr ⟨hu, hb⟩)

theorem State.zeroTimerExpired_calm
    (h : (s.timing b).urgent ≠ (s.bridge b).backlog + 1 ∨ 15 ≤ (s.bridge b).backlog) :
    s.zeroTimerExpired b = s.zeroRestarted b := by
  simp only [State.zeroTimerExpired, State.zeroRestarted_eq]
  refine if_neg (fun hu => ?_)
  have := State.zeroRestarted_urgent.mp hu
  omega

theorem State.zeroTimerExpired_same (s : State) (b : BridgeNo) :
    SameBut [.bridges, .reports] s (s.zeroTimerExpired b) := by
  simp only [State.zeroTimerExpired, State.zeroRestarted_eq]
  have h := (s.zeroRestarted_same b).mono (qs := [.bridges, .reports]) (by decide)
  split
  · exact h.then (State.report_same _ _)
  · exact h

theorem State.zeroTimerExpired_bridges (s : State) (b : BridgeNo) :
    (s.zeroTimerExpired b).bridges = (s.zeroRestarted b).bridges := by
  simp only [State.zeroTimerExpired, State.zeroRestarted_eq]
  split
  · exact State.report_bridges _ _
  · rfl

theorem exec_zeroTimerExpiry (h : s.powered = true) :
    exec (.zeroTimerExpiry b) s = .next (s.zeroTimerExpired b).transmit :=
  State.run_powered h (fun s => s.zeroTimerExpired b)

theorem zeroTimerExpiry_raises_backlog (hp : s.powered = true) :
    ∃ t, exec (.zeroTimerExpiry b) s = .next t ∧
      t.bridge b =
        { s.bridge b with
          zeroTimer := (s.timing b).zeroInterval * 1000,
          backlog := if (s.bridge b).backlog < 15 then (s.bridge b).backlog + 1 else (s.bridge b).backlog } ∧
      (∀ o : BridgeNo, o ≠ b → t.bridge o = s.bridge o) ∧ SameBut [.bridges, .reports] s t ∧
      ((s.timing b).urgent ≠ (s.bridge b).backlog + 1 ∨ 15 ≤ (s.bridge b).backlog → SameBut [.bridges] s t) ∧
      ((s.timing b).urgent = (s.bridge b).backlog + 1 → (s.bridge b).backlog < 15 → s.link.reports.length < 32 →
        t.voiced = s.voiced ++ [.zeroEvent
          { bridge := b, event := .urgent, z0 := (s.bridgeCal b).z0, zb := (s.bridge b).zb,
            backlog := (s.bridge b).backlog + 1, waived := (s.bridge b).waived, clock := s.ret.clock,
            candidate := none, before := none }]) := by
  have hread : ∀ o, (s.zeroTimerExpired b).transmit.bridge o = (s.zeroRestarted b).bridge o := fun o => by
    simp [State.bridge, s.zeroTimerExpired_bridges b]
  refine ⟨_, exec_zeroTimerExpiry hp, ?_, fun o ho => ?_, (s.zeroTimerExpired_same b).transmit, fun hu => ?_,
    fun hu hb hq => ?_⟩
  · rw [hread, State.zeroRestarted_bridge]
  · rw [hread]
    exact s.onBridge_bridge_ne _ (Ne.symm ho)
  · rw [State.zeroTimerExpired_calm hu]
    exact (s.zeroRestarted_same b).transmit
  · rw [State.transmit_voiced, State.zeroTimerExpired_urgent hu hb,
      State.report_voiced (s.zeroRestarted b) _ hq]
    simp only [State.zeroReport, State.zeroRestarted_bridge, if_pos hb]
    rfl

/-! ### The capture deadline (R50, R51, R88) -/

/-- The report of a capture whose deadline expired (R50). -/
def State.deadlineReport (s : State) (b : BridgeNo) (k : Capture) : Report :=
  .captureFailed
    { bridge := b, lane := k.lane, visit := k.visit, reason := k.blocking, start := k.start, clock := s.ret.clock,
      state := (s.bridge b).state, gross := (s.bridge b).gross.filter inInt32, weight := (s.bridge b).weight }

/-- The capture ended and its visit returned, before the lane is told. -/
def State.captureEnded (s : State) (b : BridgeNo) (k : Capture) : State :=
  ((s.dropCapture b).returnVisit k.visit).report (s.deadlineReport b k)

theorem State.captureExpired_none (h : (s.bridge b).capture = none) : s.captureExpired b = s := by
  simp [State.captureExpired, h]

theorem State.captureExpired_some {k : Capture} (h : (s.bridge b).capture = some k) :
    s.captureExpired b = ((s.captureEnded b k).captureFailedAt k.lane k.blocking).seal := by
  simp [State.captureExpired, h, State.captureEnded, State.deadlineReport, State.dropCapture, State.returnVisit]

theorem State.captureEnded_same (s : State) (b : BridgeNo) (k : Capture) :
    SameBut [.bridges, .visits, .reports] s (s.captureEnded b k) :=
  (((s.onBridge_same b _).mono (by decide)).then (State.onVisits_same _ _)).then (State.report_same _ _)

/-- A lane in WEIGHING goes to CAPTURE_FAILED. -/
theorem State.captureFailedAt_weighing {l : LaneNo} (h : (s.lane l).state = .weighing) (why : Blocking) :
    s.captureFailedAt l why =
      (s.onLane l (fun n => { n with lastReason := some (.capture why) })).enterState l .captureFailed
        (some (.capture why)) := by
  simp [State.captureFailedAt, h]

theorem State.captureFailedAt_lane {l : LaneNo} (h : (s.lane l).state = .weighing) (why : Blocking) :
    (s.captureFailedAt l why).lane l =
      { s.lane l with state := .captureFailed, signal := .red, lastReason := some (.capture why) } := by
  rw [State.captureFailedAt_weighing h, State.enterState_lane (by simp [h])]
  simp [Lane.entering, h, signalFor]

theorem State.captureFailedAt_others {l m : LaneNo} (hm : m ≠ l) (why : Blocking) :
    (s.captureFailedAt l why).lane m = s.lane m := by
  have ho : (s.onLane l (fun n => { n with lastReason := some (.capture why) })).lane m = s.lane m :=
    s.onLane_lane_ne _ (Ne.symm hm)
  simp only [State.captureFailedAt]
  split
  · rw [State.enterState_others _ hm, ho]
  · exact ho

theorem State.captureFailedAt_same (s : State) (l : LaneNo) (why : Blocking) :
    SameBut [.lanes, .reports] s (s.captureFailedAt l why) := by
  have h : SameBut [.lanes, .reports] s (s.onLane l (fun n => { n with lastReason := some (.capture why) })) :=
    (s.onLane_same l _).mono (by decide)
  simp only [State.captureFailedAt]
  split
  · exact h.then (State.enterState_same _ _ _ _)
  · exact h

/-- The lane's change of state is the one report after the capture's own. -/
theorem State.captureFailedAt_voiced {r : Report} {l : LaneNo} (h : (s.lane l).state = .weighing) (why : Blocking)
    (hq : s.link.reports.length < 32) (hr : r ∈ s.voiced) : r ∈ (s.captureFailedAt l why).voiced := by
  rw [State.captureFailedAt_weighing h, State.enterState_moves (by simp [h]),
    State.report_voiced (State.onLane (s.onLane l _) l _) _ hq]
  exact List.mem_append_left _ hr

theorem exec_captureDeadlineExpiry (h : s.powered = true) :
    exec (.captureDeadlineExpiry b) s = .next (s.captureExpired b).transmit :=
  State.run_powered h (fun s => s.captureExpired b)

theorem captureDeadlineExpiry_fails_capture {k : Capture} (hp : s.powered = true)
    (hk : (s.bridge b).capture = some k) (hl : (s.lane k.lane).state = .weighing) :
    ∃ t, exec (.captureDeadlineExpiry b) s = .next t ∧ t.bridge b = { s.bridge b with capture := none } ∧
      (∀ o : BridgeNo, o ≠ b → t.bridge o = s.bridge o) ∧
      t.lane k.lane =
        { s.lane k.lane with
          state := .captureFailed, signal := .red, lastReason := some (.capture k.blocking) } ∧
      (∀ m : LaneNo, m ≠ k.lane → t.lane m = s.lane m) ∧
      (∀ v : Visit, s.visitOf k.visit = some v →
        (v.state = .weighingIn → t.visitOf k.visit = some { v with state := .admitted }) ∧
          (v.state = .weighingOut → t.visitOf k.visit = some { v with state := .onSite })) ∧
      (s.link.reports.length < 31 →
        .captureFailed
          { bridge := b, lane := k.lane, visit := k.visit, reason := k.blocking, start := k.start,
            clock := s.ret.clock, state := (s.bridge b).state,
            gross := (s.bridge b).gross.filter inInt32, weight := (s.bridge b).weight } ∈ t.voiced) ∧
      SameBut [.bridges, .lanes, .visits, .reports, .checkWord] s t := by
  have hend := s.captureEnded_same b k
  have hfail := (s.captureEnded b k).captureFailedAt_same k.lane k.blocking
  have hlane : ∀ m, (s.captureEnded b k).lane m = s.lane m := fun m => hend.lane m
  have hw : ((s.captureEnded b k).lane k.lane).state = .weighing := by rw [hlane, hl]
  have hbridge : ∀ o, ((s.captureEnded b k).captureFailedAt k.lane k.blocking).bridge o = (s.dropCapture b).bridge o :=
    fun o => (hfail.bridge o).trans (by simp [State.captureEnded, State.returnVisit])
  have hvisit : ((s.captureEnded b k).captureFailedAt k.lane k.blocking).visitOf k.visit =
      (s.returnVisit k.visit).visitOf k.visit := by
    have hr : ((s.captureEnded b k).captureFailedAt k.lane k.blocking).ret.visits = (s.captureEnded b k).ret.visits :=
      hfail .visits (by decide)
    simp only [State.visitOf, hr]
    rfl
  refine ⟨_, exec_captureDeadlineExpiry hp, ?_⟩
  rw [State.captureExpired_some hk]
  refine ⟨?_, fun o ho => ?_, ?_, fun m hm => ?_, fun v hv => ?_, fun hq => ?_, ?_⟩
  · simp [hbridge, State.dropCapture]
  · simp [hbridge, State.dropCapture, State.onBridge_bridge_ne, Ne.symm ho]
  · simp [State.captureFailedAt_lane hw, hlane]
  · simp [State.captureFailedAt_others hm, hlane]
  · have hr : (s.returnVisit k.visit).visitOf k.visit = some { v with state := v.state.returned } :=
      State.onVisit_visitOf (fun _ => rfl) hv
    constructor <;> intro hs <;> simp [hvisit, hr, hs, VisitState.returned]
  · have hv : (s.captureEnded b k).voiced = s.voiced ++ [s.deadlineReport b k] :=
      State.report_voiced _ _ (by simpa [State.dropCapture, State.returnVisit] using Nat.lt_succ_of_lt hq)
    have hroom : (s.captureEnded b k).link.reports.length < 32 := by
      have hq' : s.link.reports.length < 32 := Nat.lt_succ_of_lt hq
      simpa [State.captureEnded, State.dropCapture, State.returnVisit, State.report, Link.queueReport, hq'] using
        Nat.succ_lt_succ hq
    have hr : s.deadlineReport b k ∈ (s.captureEnded b k).voiced := by simp [hv]
    rw [State.transmit_voiced, State.seal_voiced]
    exact State.captureFailedAt_voiced hw k.blocking hroom hr
  · exact (((hend.mono (by decide)).then hfail).then (State.seal_same _)).transmit

end Sys2Proof.Machine

open Sys2Proof Sys2Proof.Machine

/-- Settles O53: each expiry is one change of a deck or a bridge, followed by what that change brings. -/
theorem deckAndBridgeTimersExpire : Obligations.DeckAndBridgeTimersExpire := by
  unfold Obligations.DeckAndBridgeTimersExpire
  refine ⟨fun d s hp => ⟨fun hf => ?_, fun hf hc => ?_, fun hf hc => freshnessExpiry_makes_stale hp hf hc⟩,
    fun b s hp => zeroTimerExpiry_raises_backlog hp,
    fun b s hp => ⟨fun hk => ?_, fun k hk hl => captureDeadlineExpiry_fails_capture hp hk hl⟩⟩
  · refine ⟨_, exec_freshnessExpiry hp, ?_⟩
    rw [State.freshnessExpired_stopped hf]
    exact (SameBut.refl s _).transmit
  · refine ⟨_, exec_freshnessExpiry hp, ?_⟩
    rw [State.freshnessExpired_again hf hc]
    exact ⟨by simp, fun e he => by simp [State.onDeck_deck_ne, Ne.symm he], (s.onDeck_same d _).transmit⟩
  · refine ⟨_, exec_captureDeadlineExpiry hp, ?_⟩
    rw [State.captureExpired_none hk]
    exact (SameBut.refl s _).transmit

end

-- ==== Proofs of family 02: the zero capture of an evaluation ====
section
/-! When an evaluation takes a zero, when it turns one away at the limit, and what then stays to the end of its event
(O49). -/

namespace Sys2Proof.Machine

/-! ### What follows the zero capture -/

/-- The reports not yet sent stay: others may only join them. -/
def ReportsStay (s t : State) : Prop := ∀ r ∈ s.voiced, r ∈ t.voiced

theorem ReportsStay.trans {s t u : State} (h : ReportsStay s t) (k : ReportsStay t u) : ReportsStay s u :=
  fun r hr => k r (h r hr)

theorem ReportsStay.report (s : State) (r : Report) : ReportsStay s (s.report r) := by
  intro x hx
  by_cases h : s.link.reports.length < 32
  · rw [State.report_voiced s r h]
    exact List.mem_append_left _ hx
  · have hq : s.link.queueReport r = { s.link with reportsLost := true } := if_neg h
    unfold State.voiced at hx ⊢
    rw [State.report_link, hq]
    exact hx

theorem Move.reportsStay {s t : State} (h : Move s t) : ReportsStay s t := by
  cases h with
  | report r => exact .report s r
  | _ => exact fun _ hr => hr

theorem Moves.reportsStay {s t : State} (h : Moves s t) : ReportsStay s t := by
  induction h with
  | refl => exact fun _ hr => hr
  | step _ m ih => exact ih.trans m.reportsStay

/-- What an evaluation and the requests for a zero may change of a bridge (R27 to R32). -/
def Bridge.zeroItems (x : Bridge) : Int × Nat × Bool × Bool × Nat :=
  (x.zb, x.backlog, x.waived, x.limitReported, x.zeroTimer)

theorem BridgesStay.zeroItems {s t : State} (h : BridgesStay s t) (b : BridgeNo) :
    (t.bridge b).zeroItems = (s.bridge b).zeroItems := (congrArg Bridge.zeroItems (h b) :)

theorem Moves.afterDecision (s : State) (b : BridgeNo) : Moves s (s.afterDecision b) :=
  (Moves.testCapture s b).trans (Moves.forEach (fun l s => .testLane s l) _ _)

/-! ### The capture and its two outcomes (R29, R30) -/

/-- The conditions of R29 hold, with the gross weight `g`. -/
structure State.ZeroTried (s : State) (b : BridgeNo) (g : Int) : Prop where
  backlog : 0 < (s.bridge b).backlog
  free    : (s.grant b).holder = none
  stable  : (s.bridge b).state = .stable
  run     : (s.timing b).hold ≤ (s.bridge b).run
  gross   : (s.bridge b).gross = some g
  empty   : g.natAbs ≤ (s.timing b).empty * (s.bridgeCal b).interval

/-- The bridge with the zero taken. -/
def State.withZero (s : State) (b : BridgeNo) (g : Int) : State :=
  s.onBridge b (fun x => x.zeroTaken (x.zb + g) (s.zeroTime b))

/-- The bridge in a limit episode. -/
def State.atLimit (s : State) (b : BridgeNo) : State := s.onBridge b (fun x => { x with limitReported := true })

section
variable {s : State} {b : BridgeNo} {g : Int}

theorem State.ZeroTried.attempted (h : s.ZeroTried b g) : s.zeroAttempted b = true := by
  have he : g.natAbs ≤ s.emptyBand b := h.empty
  simp [State.zeroAttempted, State.bridgeEmpty, h.backlog, h.free, h.stable, h.run, h.gross, he]

theorem State.ZeroTried.captured (h : s.ZeroTried b g)
    (hr : ((s.bridge b).zb + g - (s.bridgeCal b).z0).natAbs ≤ (s.bridgeCal b).zr * (s.bridgeCal b).interval) :
    s.attemptZero b =
      (s.withZero b g).report ((s.withZero b g).zeroReport b .captured none (some (s.bridge b).zb)) := by
  have hin : (s.bridgeCal b).zeroInRange ((s.bridge b).zb + g) = true := decide_eq_true hr
  have hw : s.onBridge b (fun x => x.zeroTaken ((s.bridge b).zb + g) (s.zeroTime b)) = s.withZero b g := rfl
  simp only [State.attemptZero, h.attempted, h.gross, Option.getD_some, hin, if_true, hw]

theorem State.ZeroTried.turnedAway (h : s.ZeroTried b g)
    (hr : (s.bridgeCal b).zr * (s.bridgeCal b).interval < ((s.bridge b).zb + g - (s.bridgeCal b).z0).natAbs) :
    s.attemptZero b =
      if (s.bridge b).limitReported then s
      else (s.atLimit b).report ((s.atLimit b).zeroReport b .limit (some ((s.bridge b).zb + g)) none) := by
  have hin : (s.bridgeCal b).zeroInRange ((s.bridge b).zb + g) = false := decide_eq_false (by omega)
  have hw : s.onBridge b (fun x => { x with limitReported := true }) = s.atLimit b := rfl
  simp only [State.attemptZero, h.attempted, h.gross, Option.getD_some, hin, if_true, hw]
  rfl

theorem State.ZeroTried.captured_bridge (h : s.ZeroTried b g)
    (hr : ((s.bridge b).zb + g - (s.bridgeCal b).z0).natAbs ≤ (s.bridgeCal b).zr * (s.bridgeCal b).interval) :
    (s.attemptZero b).bridge b = (s.bridge b).zeroTaken ((s.bridge b).zb + g) (s.zeroTime b) := by
  rw [h.captured hr, (State.report_same _ _).bridge b, State.withZero, State.onBridge_bridge]

theorem State.ZeroTried.turnedAway_bridge (h : s.ZeroTried b g)
    (hr : (s.bridgeCal b).zr * (s.bridgeCal b).interval < ((s.bridge b).zb + g - (s.bridgeCal b).z0).natAbs) :
    (s.attemptZero b).bridge b = { s.bridge b with limitReported := true } := by
  rw [h.turnedAway hr]
  split
  · next hl => rw [← hl]
  · rw [(State.report_same _ _).bridge b, State.atLimit, State.onBridge_bridge]

theorem State.ZeroTried.captured_voiced (h : s.ZeroTried b g)
    (hr : ((s.bridge b).zb + g - (s.bridgeCal b).z0).natAbs ≤ (s.bridgeCal b).zr * (s.bridgeCal b).interval)
    (hq : s.link.reports.length < 32) :
    (s.attemptZero b).voiced = s.voiced ++ [.zeroEvent
      { bridge := b, event := .captured, z0 := (s.bridgeCal b).z0, zb := (s.bridge b).zb + g, backlog := 0,
        waived := false, clock := s.ret.clock, candidate := none, before := some (s.bridge b).zb }] := by
  rw [h.captured hr, State.report_voiced (s.withZero b g) _ hq]
  simp only [State.zeroReport, State.withZero, State.onBridge_bridge, Bridge.zeroTaken]
  rfl

theorem State.ZeroTried.turnedAway_voiced (h : s.ZeroTried b g)
    (hr : (s.bridgeCal b).zr * (s.bridgeCal b).interval < ((s.bridge b).zb + g - (s.bridgeCal b).z0).natAbs)
    (hl : (s.bridge b).limitReported = false) (hq : s.link.reports.length < 32) :
    (s.attemptZero b).voiced = s.voiced ++ [.zeroEvent
      { bridge := b, event := .limit, z0 := (s.bridgeCal b).z0, zb := (s.bridge b).zb, backlog := (s.bridge b).backlog,
        waived := (s.bridge b).waived, clock := s.ret.clock, candidate := some ((s.bridge b).zb + g),
        before := none }] := by
  rw [h.turnedAway hr, hl, if_neg Bool.false_ne_true, State.report_voiced (s.atLimit b) _ hq]
  simp only [State.zeroReport, State.atLimit, State.onBridge_bridge]
  rfl

theorem State.attemptZero_same (s : State) (b : BridgeNo) : SameBut [.bridges, .reports] s (s.attemptZero b) := by
  have h : ∀ (f : Bridge → Bridge) r, SameBut [.bridges, .reports] s ((s.onBridge b f).report r) := fun f r =>
    ((s.onBridge_same b f).mono (by decide)).then (State.report_same _ r)
  unfold State.attemptZero
  split
  · simp only
    split
    · exact h _ _
    · split
      · exact .refl s _
      · exact h _ _
  · exact .refl s _

theorem State.attemptZero_capture (s : State) (b : BridgeNo) :
    ((s.attemptZero b).bridge b).capture = (s.bridge b).capture := by
  have h : ∀ (f : Bridge → Bridge) r, (f (s.bridge b)).capture = (s.bridge b).capture →
      (((s.onBridge b f).report r).bridge b).capture = (s.bridge b).capture := fun f r hf => by
    rw [(State.report_same _ r).bridge b, State.onBridge_bridge, hf]
  unfold State.attemptZero
  split
  · simp only
    split
    · exact h _ _ rfl
    · split
      · rfl
      · exact h _ _ rfl
  · rfl

/-- A zero urgent bridge, or one for which no lane waits, is not granted (R104). -/
theorem State.decideGrant_unasked
    (h : (s.grant b).waiting = [] ∨ (s.timing b).urgent ≤ (s.bridge b).backlog) : s.decideGrant b = s := by
  rcases h with h | h
  · exact State.decideGrant_withheld (.inr h)
  · exact State.decideGrant_withheld (.inl (fun hg => absurd hg.urgent (Nat.not_lt.mpr h)))

/-- Where no grant can come first, the zero capture does, in either order. -/
theorem State.zeroAndGrant_attempts (h : s.evaluationCounted.decideGrant b = s.evaluationCounted) :
    s.zeroAndGrant b = s.evaluationCounted.attemptZero b ∨
      s.zeroAndGrant b = (s.evaluationCounted.attemptZero b).decideGrant b := by
  have hx : s.zeroAndGrant b =
      if Config.grantFirst s.evaluations then (s.evaluationCounted.decideGrant b).attemptZero b
      else (s.evaluationCounted.attemptZero b).decideGrant b := rfl
  rw [hx, h]
  split
  · exact .inl rfl
  · exact .inr rfl

end

/-! ### The event of the evaluation -/

section
variable {s u : State} {c : ChannelNo} {counts : BitVec 24} {d : DeckNo} {b : BridgeNo} {e : Evaluation}

theorem State.EvaluatedBy.valued (hu : s.EvaluatedBy u c counts d b) : SameBut [.channels, .decks] s u := by
  have h : u = s.valued c d counts.toInt .ok := hu.arrived
  exact h ▸ State.valued_same _ _

theorem State.EvaluatedBy.exec (hu : s.EvaluatedBy u c counts d b) :
    Machine.exec (.sampleArrival c counts .ok) s =
      .next ((u.applyEvaluation b (u.evaluation b)).seal).transmit := by
  have h : u = s.valued c d counts.toInt .ok := hu.arrived
  rw [exec_leadArrival hu.powered hu.deck hu.lead, State.sampleTaken_quiet (.inl (by decide)), h]
  rw [State.evaluateDeck_some (by exact hu.bridge)]
  rfl

theorem State.EvaluatedBy.alone_same (hu : s.EvaluatedBy u c counts d b) :
    SameBut [.channels, .decks, .bridges, .evaluations] s (u.evaluatedAlone b e) :=
  (hu.valued.mono (by decide)).then (u.evaluatedAlone_same b e)

theorem State.EvaluatedBy.alone_bridge (hu : s.EvaluatedBy u c counts d b) :
    (u.evaluatedAlone b e).bridge b = (s.bridge b).evaluated e := by
  rw [State.evaluatedAlone_bridge, hu.valued.bridge b]

theorem State.EvaluatedBy.alone_link (hu : s.EvaluatedBy u c counts d b) : (u.evaluatedAlone b e).link = s.link := by
  have h : u.link = s.link := hu.arrived ▸ rfl
  exact h

/-- Where no grant can come first, the bridge keeps to the end of the event what the zero capture left, and the capture's
report stands. -/
theorem State.applyEvaluation_attempts
    (h : (u.evaluatedAlone b e).decideGrant b = u.evaluatedAlone b e) :
    BridgesStay ((u.evaluatedAlone b e).attemptZero b) ((u.applyEvaluation b e).seal).transmit ∧
      ReportsStay ((u.evaluatedAlone b e).attemptZero b) ((u.applyEvaluation b e).seal).transmit := by
  rw [State.applyEvaluation_afterDecision]
  have hend : ∀ x : State, BridgesStay x ((x.afterDecision b).seal).transmit ∧
      ReportsStay x ((x.afterDecision b).seal).transmit := fun x =>
    ⟨((BridgesStay.afterDecision x b).trans (InYard.seal _).bridgesStay).trans (.transmit _), fun r hr => by
      rw [State.transmit_voiced, State.seal_voiced]
      exact (Moves.afterDecision x b).reportsStay r hr⟩
  rcases State.zeroAndGrant_attempts (s := u.onBridge b (fun x => x.evaluated e)) h with hz | hz
  · rw [hz]
    exact hend _
  · rw [hz]
    obtain ⟨hb, hr⟩ := hend (((u.evaluatedAlone b e).attemptZero b).decideGrant b)
    exact ⟨(InYard.decideGrant _ b).bridgesStay.trans hb, (Moves.decideGrant _ b).reportsStay.trans hr⟩

/-- With no lane waiting, no capture and no lane at the end of a movement, the zero capture is all that follows. -/
theorem State.applyEvaluation_attemptsAlone (hw : (u.grant b).waiting = []) (hk : (u.bridge b).capture = none)
    (hn : u.NoCrossing b) : u.applyEvaluation b e = (u.evaluatedAlone b e).attemptZero b := by
  have hsame := (u.evaluatedAlone b e).attemptZero_same b
  have hzg : (u.onBridge b (fun x => x.evaluated e)).zeroAndGrant b = (u.evaluatedAlone b e).attemptZero b := by
    have hgrant : ((u.evaluatedAlone b e).attemptZero b).decideGrant b = (u.evaluatedAlone b e).attemptZero b :=
      State.decideGrant_unasked (.inl (by rw [hsame.grant b]; exact hw))
    rcases State.zeroAndGrant_attempts (s := u.onBridge b (fun x => x.evaluated e))
      (State.decideGrant_unasked (.inl (by exact hw))) with hz | hz
    · exact hz
    · exact hz.trans hgrant
  have hc : (((u.evaluatedAlone b e).attemptZero b).bridge b).capture = none := by
    rw [State.attemptZero_capture, State.evaluatedAlone_bridge]
    exact hk
  rw [State.applyEvaluation_afterDecision, hzg, State.afterDecision, State.testCapture_none hc]
  exact State.testLanes_resting (State.NoCrossing.of_same ((u.evaluatedAlone_same b e).trans hsame) hn)

/-- With one of the conditions of R29 missing, an evaluation takes no zero in either order. -/
theorem State.zeroAndGrant_untried
    (h : (s.bridge b).backlog = 0 ∨ (s.grant b).holder.isSome = true ∨ (s.bridge b).state ≠ .stable ∨
      (s.bridge b).run < (s.timing b).hold ∨
      ∀ g : Int, (s.bridge b).gross = some g → (s.timing b).empty * (s.bridgeCal b).interval < g.natAbs) :
    BridgesStay s (s.zeroAndGrant b) := by
  by_cases hh : (s.grant b).holder.isSome = true
  · rw [State.zeroAndGrant_held hh]
    exact .refl s
  · have hw : ∀ x : State, x.bridge b = s.bridge b → x.timing b = s.timing b → x.bridgeCal b = s.bridgeCal b →
        x.attemptZero b = x := fun x hb ht hk =>
      State.attemptZero_withheld (by
        rw [hb, ht, hk]
        exact h.imp_right (fun h => h.resolve_left hh))
    have hd := (InYard.decideGrant s.evaluationCounted b)
    rw [State.zeroAndGrant_decides (hw _ rfl rfl rfl) (hw _ (hd.bridge b) (hd.timing b) (hd.bridgeCal b))]
    exact hd.bridgesStay

/-- The event of an evaluation that finds one of the conditions of R29 missing. -/
theorem State.applyEvaluation_untried
    (h : (u.bridge b).backlog = 0 ∨ (u.grant b).holder.isSome = true ∨ e.state ≠ .stable ∨
      e.run < (u.timing b).hold ∨
      ∀ g : Int, e.gross = some g → (u.timing b).empty * (u.bridgeCal b).interval < g.natAbs) :
    (((u.applyEvaluation b e).seal.transmit).bridge b).zeroItems = (u.bridge b).zeroItems := by
  have hx : (u.onBridge b (fun x => x.evaluated e)).bridge b = (u.bridge b).evaluated e := u.onBridge_bridge b _
  have hz : BridgesStay (u.onBridge b (fun x => x.evaluated e))
      ((u.onBridge b (fun x => x.evaluated e)).zeroAndGrant b) :=
    State.zeroAndGrant_untried (by
      rw [hx]
      exact h)
  rw [State.applyEvaluation_afterDecision, State.transmit_bridge, State.seal_bridge',
    (hz.trans (.afterDecision _ b)).zeroItems b, hx]
  rfl

/-- The conditions of R29 at an evaluation of the bridge. -/
theorem State.EvaluatedBy.zeroTried {g : Int} (hu : s.EvaluatedBy u c counts d b) (hh : (s.grant b).holder = none)
    (hb : 0 < (s.bridge b).backlog) (hst : e.state = .stable) (hr : (s.timing b).hold ≤ e.run)
    (hg : e.gross = some g) (he : g.natAbs ≤ (s.timing b).empty * (s.bridgeCal b).interval) :
    (u.evaluatedAlone b e).ZeroTried b g := by
  have hsame := hu.alone_same (e := e)
  have hx := hu.alone_bridge (e := e)
  refine ⟨?_, ?_, ?_, ?_, ?_, ?_⟩
  · rw [hx]
    exact hb
  · rw [hsame.grant b, hh]
  · rw [hx]
    exact hst
  · rw [hx, hsame.timing b]
    exact hr
  · rw [hx]
    exact hg
  · rw [hsame.timing b, hsame.bridgeCal b]
    exact he

theorem Bridge.zeroItems_inj {x y : Bridge} (h : x.zeroItems = y.zeroItems) :
    x.zb = y.zb ∧ x.backlog = y.backlog ∧ x.waived = y.waived ∧ x.limitReported = y.limitReported ∧
      x.zeroTimer = y.zeroTimer := by
  simpa [Bridge.zeroItems] using h

end

end Sys2Proof.Machine

open Sys2Proof Sys2Proof.Machine

/-- Settles O49: where no grant can come first the zero capture acts on the bridge with its new results alone, and what
follows in the evaluation changes no bridge but for its capture. -/
theorem zeroCaptureOfAnEvaluation : Obligations.ZeroCaptureOfAnEvaluation := by
  unfold Obligations.ZeroCaptureOfAnEvaluation
  intro c counts d b e s u hu he
  have hx := he ▸ hu.exec
  have hsame := hu.alone_same (e := e)
  have halone := hu.alone_bridge (e := e)
  have hclock : (u.evaluatedAlone b e).ret.clock = s.ret.clock := (hsame .clock (by decide)).1
  refine ⟨fun g hh hw hb hst hr hg hle => ?tried, fun hn => ?untried⟩
  case untried =>
    refine ⟨_, hx, ?_⟩
    have h := State.applyEvaluation_untried (u := u) (b := b) (e := e) (by
      rw [hu.valued.bridge b, hu.valued.grant b, hu.valued.timing b, hu.valued.bridgeCal b]
      exact hn)
    rw [hu.valued.bridge b] at h
    exact Bridge.zeroItems_inj h
  case tried =>
    have htry := hu.zeroTried hh hb hst hr hg hle
    have hgrant : (u.evaluatedAlone b e).decideGrant b = u.evaluatedAlone b e := State.decideGrant_unasked (by
      rw [hsame.grant b, hsame.timing b, halone]
      exact hw)
    obtain ⟨hstay, hreports⟩ := State.applyEvaluation_attempts hgrant
    have hitems := hstay.zeroItems b
    have hrest : (s.grant b).waiting = [] → (s.bridge b).capture = none → s.NoCrossing b →
        u.applyEvaluation b e = (u.evaluatedAlone b e).attemptZero b := fun hw hk hn =>
      State.applyEvaluation_attemptsAlone (by rw [hu.valued.grant b, hw]) (by rw [hu.valued.bridge b, hk])
        (State.NoCrossing.of_same hu.valued hn)
    have hzb : ((u.evaluatedAlone b e).bridge b).zb = (s.bridge b).zb := by
      rw [halone]
      rfl
    have hroom : s.link.reports.length < 32 → (u.evaluatedAlone b e).link.reports.length < 32 := fun hq => by
      rw [hu.alone_link]
      exact hq
    refine ⟨fun hin => ⟨_, hx, ?_⟩, fun hout => ⟨_, hx, ?_⟩⟩
    · have hin' := hin
      rw [← hsame.bridgeCal b, ← hzb] at hin'
      have hbridge := htry.captured_bridge hin'
      have htime : (u.evaluatedAlone b e).zeroTime b = (s.timing b).zeroInterval * 1000 := by
        rw [State.zeroTime, hsame.timing b]
      rw [halone, htime] at hbridge
      rw [hbridge] at hitems
      obtain ⟨hzb', hback, hwaived, hlimit, htimer⟩ := Bridge.zeroItems_inj hitems
      refine ⟨hzb', hback, hwaived, hlimit, htimer, fun hq => hreports _ ?_, fun hw hk hn => ?_⟩
      · rw [htry.captured_voiced hin' (hroom hq), halone, hsame.bridgeCal b, hclock]
        exact List.mem_append_right _ (List.mem_singleton.mpr rfl)
      · rw [hrest hw hk hn]
        refine ⟨?_, (((hsame.mono (by decide)).then (State.attemptZero_same _ b)).then (State.seal_same _)).transmit⟩
        rw [State.transmit_bridge, State.seal_bridge', hbridge, ← hst]
        rfl
    · have hout' := hout
      rw [← hsame.bridgeCal b, ← hzb] at hout'
      rw [htry.turnedAway_bridge hout', halone] at hitems
      obtain ⟨hzb', hback, hwaived, hlimit, htimer⟩ := Bridge.zeroItems_inj hitems
      refine ⟨hzb', hback, hwaived, hlimit, htimer, fun hl hq => hreports _ ?_, fun hl hw hk hn => ?_⟩
      · rw [htry.turnedAway_voiced hout' (by rw [halone]; exact hl) (hroom hq), halone, hsame.bridgeCal b, hclock]
        exact List.mem_append_right _ (List.mem_singleton.mpr rfl)
      · rw [hrest hw hk hn, htry.turnedAway hout', halone, if_pos (by exact hl)]
        exact ((hsame.mono (by decide)).then (State.seal_same _)).transmit

end

-- ==== Proofs of family 02: CAL_BRIDGE ====
section
/-! The checks of a CAL_BRIDGE, the settings it writes, the filters it empties and the bridge it clears (O30). -/

namespace Sys2Proof.Machine

/-! ### The checks of the request (R34) -/

theorem ofByte_val {n : Nat} {x : Byte} {i : Fin n} (h : ofByte n x = some i) : x.toNat = i.val := by
  unfold ofByte at h
  split at h
  · obtain rfl := Option.some.inj h
    rfl
  · cases h

/-- What a byte names that may be none (R189). -/
theorem optByte_eq_some {x : Byte} {m : Option DeckNo} (h : optByte 4 x = some m) :
    (x = 0xFF ∧ m = none) ∨ ∃ d : DeckNo, x.toNat = d.val ∧ m = some d := by
  by_cases hx : x = 0xFF
  · subst hx
    exact .inl ⟨rfl, (Option.some.inj h).symm⟩
  · rw [optByte_named hx, Option.map_eq_some_iff] at h
    obtain ⟨d, hd, rfl⟩ := h
    exact .inr ⟨d, ofByte_val hd, rfl⟩

theorem membersOf_of_listed {x y : Byte} {ds : List DeckNo} (h : ListedDecks x y ds) : membersOf x y = some ds := by
  rcases h with ⟨hx, hy, rfl⟩ | ⟨d, hx, hy, rfl⟩ | ⟨d, hx, hy, rfl⟩ | ⟨d, e, hx, hy, hne, rfl⟩
  · simp [membersOf, optByte_of x none (.inl ⟨hx, rfl⟩), optByte_of y none (.inl ⟨hy, rfl⟩)]
  · simp [membersOf, optByte_of x (some d) (.inr ⟨d, hx, rfl⟩), optByte_of y none (.inl ⟨hy, rfl⟩)]
  · simp [membersOf, optByte_of x none (.inl ⟨hx, rfl⟩), optByte_of y (some d) (.inr ⟨d, hy, rfl⟩)]
  · simp [membersOf, optByte_of x (some d) (.inr ⟨d, hx, rfl⟩), optByte_of y (some e) (.inr ⟨e, hy, rfl⟩), hne]

theorem listed_of_membersOf {x y : Byte} {ds : List DeckNo} (h : membersOf x y = some ds) : ListedDecks x y ds := by
  unfold membersOf at h
  split at h
  · next a b ha hb =>
    rcases optByte_eq_some ha with ⟨hx, rfl⟩ | ⟨d, hx, rfl⟩
    · rcases optByte_eq_some hb with ⟨hy, rfl⟩ | ⟨e, hy, rfl⟩
      · exact .inl ⟨hx, hy, (Option.some.inj h).symm⟩
      · exact .inr (.inr (.inl ⟨e, hx, hy, (Option.some.inj h).symm⟩))
    · rcases optByte_eq_some hb with ⟨hy, rfl⟩ | ⟨e, hy, rfl⟩
      · exact .inr (.inl ⟨d, hx, hy, (Option.some.inj h).symm⟩)
      · have hne : d ≠ e := by
          rintro rfl
          simp at h
        exact .inr (.inr (.inr ⟨d, e, hx, hy, hne, by simpa [hne] using h.symm⟩))
  · cases h

/-- A byte that names a deck puts it among the members. -/
theorem ListedDecks.mem {x y : Byte} {ds : List DeckNo} (h : ListedDecks x y ds) {d : DeckNo}
    (hd : x.toNat = d.val ∨ y.toNat = d.val) : d ∈ ds := by
  have hnone : ∀ {z : Byte}, z = 0xFF → z.toNat ≠ d.val := by
    rintro z rfl hz
    have := d.isLt
    simp at hz
    omega
  have hsame : ∀ {z : Byte} {e : DeckNo}, z.toNat = e.val → z.toNat = d.val → d = e := fun he hz =>
    Fin.ext (hz.symm.trans he)
  rcases h with ⟨hx, hy, rfl⟩ | ⟨e, hx, hy, rfl⟩ | ⟨e, hx, hy, rfl⟩ | ⟨e, o, hx, hy, -, rfl⟩
  · exact absurd hd (not_or.mpr ⟨hnone hx, hnone hy⟩)
  · exact List.mem_singleton.mpr (hsame hx (hd.resolve_right (hnone hy)))
  · exact List.mem_singleton.mpr (hsame hy (hd.resolve_left (hnone hx)))
  · rcases hd with hd | hd
    · simp [hsame hx hd]
    · simp [hsame hy hd]

/-- The bytes of a member list name decks or none, and no deck twice. -/
theorem ListedDecks.bytes {x y : Byte} {ds : List DeckNo} (h : ListedDecks x y ds) :
    (x = 0xFF ∨ x.toNat < 4) ∧ (y = 0xFF ∨ y.toNat < 4) ∧ (x = 0xFF ∨ x ≠ y) := by
  have hlt : ∀ {z : Byte} {d : DeckNo}, z.toNat = d.val → z.toNat < 4 := fun {_ d} hz => hz ▸ d.isLt
  rcases h with ⟨hx, hy, -⟩ | ⟨d, hx, hy, -⟩ | ⟨d, hx, hy, -⟩ | ⟨d, e, hx, hy, hne, -⟩
  · exact ⟨.inl hx, .inl hy, .inl hx⟩
  · refine ⟨.inr (hlt hx), .inl hy, .inr ?_⟩
    rintro rfl
    have := hlt hx
    simp [hy] at this
  · exact ⟨.inl hx, .inr (hlt hy), .inl hx⟩
  · refine ⟨.inr (hlt hx), .inr (hlt hy), .inr ?_⟩
    rintro rfl
    exact hne (Fin.ext (hx.symm.trans hy))

theorem State.memberElsewhere_iff {s : State} {b : BridgeNo} {ds : List DeckNo} :
    s.memberElsewhere b ds = true ↔ ∃ d ∈ ds, ∃ o : BridgeNo, o ≠ b ∧ d ∈ (s.bridgeCal o).members := by
  simp [State.memberElsewhere, mem_allFour]

theorem calBridgeInRange_iff {f : CalBridgeFields} :
    calBridgeInRange f = true ↔
      SixIntervals f.interval.toNat ∧ f.maximum.toNat % f.interval.toNat = 0 ∧
        100 * f.interval.toNat ≤ f.maximum.toNat ∧ f.maximum.toNat ≤ 150000000 ∧
        (f.filter.toNat = 1 ∨ f.filter.toNat = 2 ∨ f.filter.toNat = 4 ∨ f.filter.toNat = 8 ∨ f.filter.toNat = 16) ∧
        2 ≤ f.window.toNat ∧ f.window.toNat ≤ 32 ∧ f.band.toNat ≤ 5 * f.interval.toNat ∧ f.zrForm.toNat ≤ 1 := by
  simp [calBridgeInRange, intervals, SixIntervals, and_assoc]

section
variable {f : CalBridgeFields} {s : State}

theorem actCalBridge_accepted {b : BridgeNo} {members : List DeckNo} (hg : s.calibrationGate = none)
    (hb : f.bridge.toNat = b.val) (hm : ListedDecks f.first f.second members)
    (he : ∀ d ∈ members, ∀ o : BridgeNo, o ≠ b → d ∉ (s.bridgeCal o).members) (hr : calBridgeInRange f = true) :
    actCalBridge f s =
      (s.takeBridgeCal b (bridgeCalOf f members (s.bridgeCal b).z0)).accepted
        (.bridgeCal (bridgeCalOf f members (s.bridgeCal b).z0)
          (s.takeBridgeCal b (bridgeCalOf f members (s.bridgeCal b).z0)).ret.calCounter) := by
  have hn : s.memberElsewhere b members = false := Bool.eq_false_iff.mpr (fun h => by
    obtain ⟨d, hd, o, ho, hmem⟩ := State.memberElsewhere_iff.mp h
    exact he d hd o ho hmem)
  simp [actCalBridge, hg, ofByte_some hb, membersOf_of_listed hm, hn, hr]

theorem actCalBridge_outOfRange (hg : s.calibrationGate = none)
    (h : ∀ (b : BridgeNo) (members : List DeckNo), f.bridge.toNat = b.val → ListedDecks f.first f.second members →
      (∀ d ∈ members, ∀ o : BridgeNo, o ≠ b → d ∉ (s.bridgeCal o).members) → calBridgeInRange f = false) :
    actCalBridge f s = s.refused .outOfRange := by
  simp only [actCalBridge, hg]
  split
  · next b members hb hm =>
    refine if_pos ?_
    rw [Bool.or_eq_true]
    by_cases he : s.memberElsewhere b members = true
    · exact .inl he
    · refine .inr ?_
      rw [h b members (ofByte_val hb) (listed_of_membersOf hm) (fun d hd o ho hmem =>
        he (State.memberElsewhere_iff.mpr ⟨d, hd, o, ho, hmem⟩))]
      rfl
  · rfl

end

/-! ### The zero range (R34) -/

/-- The whole divisions in a hundredth part. -/
theorem hundredth_floor (m : Nat) {d : Nat} (hd : 0 < d) :
    100 * (m / (100 * d) * d) ≤ m ∧ m < 100 * ((m / (100 * d) + 1) * d) := by
  have hlo := Nat.div_mul_le_self m (100 * d)
  have hhi := Nat.lt_mul_div_succ m (show 0 < 100 * d by omega)
  constructor
  · calc 100 * (m / (100 * d) * d) = m / (100 * d) * (100 * d) := by ring
      _ ≤ m := hlo
  · calc m < 100 * d * (m / (100 * d) + 1) := hhi
      _ = 100 * ((m / (100 * d) + 1) * d) := by ring

theorem zrTaken_given {n d m : Nat} (h : 100 * (n * d) ≤ 4 * m) : zrTaken 0 n d m = n := by
  simp [zrTaken, Nat.not_lt.mpr h]

theorem zrTaken_limited {n d m : Nat} (hd : 0 < d) (h : 4 * m < 100 * (n * d)) :
    100 * (zrTaken 0 n d m * d) ≤ 4 * m ∧ 4 * m < 100 * ((zrTaken 0 n d m + 1) * d) := by
  have hz : zrTaken 0 n d m = 4 * m / (100 * d) := by simp [zrTaken, h]
  rw [hz]
  exact hundredth_floor (4 * m) hd

/-- The 2% of DEFAULT lie within the 4% limit. -/
theorem zrTaken_default {form : Byte} {n d m : Nat} (hf : form ≠ 0) (hd : 0 < d) :
    100 * (zrTaken form n d m * d) ≤ 2 * m ∧ 2 * m < 100 * ((zrTaken form n d m + 1) * d) := by
  have hfloor := hundredth_floor (2 * m) hd
  have hz : zrTaken form n d m = 2 * m / (100 * d) := by
    have hn : ¬ 4 * m < 100 * (2 * m / (100 * d) * d) := by omega
    simp only [zrTaken, if_neg hf, if_neg hn]
  rw [hz]
  exact hfloor

/-! ### The filters emptied (R36) -/

theorem emptied_deck (ds : List DeckNo) (u : State) (d : DeckNo) :
    (forEach ds (fun d s => s.onDeck d Deck.emptied) u).deck d =
      if d ∈ ds then (u.deck d).emptied else u.deck d := by
  induction ds generalizing u with
  | nil => simp [forEach]
  | cons e ds ih =>
    have hrec : (forEach (e :: ds) (fun d s => s.onDeck d Deck.emptied) u).deck d = _ := ih (u.onDeck e Deck.emptied)
    rw [hrec]
    by_cases h : d = e
    · subst h
      simp [Deck.emptied]
    · simp [h, State.onDeck_deck_ne _ _ (Ne.symm h)]

section
variable (s : State) (b : BridgeNo) (k : BridgeCal)

theorem State.recalibrated_deck (d : DeckNo) :
    (s.recalibrated b k).deck d =
      if d ∈ (s.bridgeCal b).members ++ k.members then (s.deck d).emptied else s.deck d :=
  emptied_deck _ _ d

theorem State.recalibrated_cal : (s.recalibrated b k).ret.cal = (s.onBridgeCal b (fun _ => k)).ret.cal :=
  SameBut.forEach (ps := [.decks]) (fun d u => u.onDeck_same d _) _ _ .cal (by decide)

theorem State.recalibrated_link : (s.recalibrated b k).link = s.link :=
  forEach_keeps State.link (f := fun d s => s.onDeck d Deck.emptied) (fun _ _ => rfl) _ _

/-- The calibration written, the filters emptied, counter and CAL_CHANGED, before the bridge is cleared. -/
theorem State.recounted_same :
    SameBut [.cal, .decks, .calCounter, .checkWord, .reports] s
      ((s.recalibrated b k).calibrated 0x12 (some b.val)) :=
  ((s.recalibrated_same b k).mono (by decide)).then (State.calibrated_same _ _ _)

theorem State.takeBridgeCal_moves :
    SameBut (.bridges :: .evaluations :: yardParts) ((s.recalibrated b k).calibrated 0x12 (some b.val))
      (s.takeBridgeCal b k) :=
  (State.clearBridge_same _ b).then (State.seal_same _)

theorem State.takeBridgeCal_cal : (s.takeBridgeCal b k).ret.cal = (s.onBridgeCal b (fun _ => k)).ret.cal :=
  ((s.takeBridgeCal_moves b k .cal (by decide)).trans (State.calibrated_cal _ _ _)).trans (s.recalibrated_cal b k)

theorem State.takeBridgeCal_bridgeCal : (s.takeBridgeCal b k).bridgeCal b = k := by
  have h : (s.takeBridgeCal b k).bridgeCal b = (s.onBridgeCal b (fun _ => k)).bridgeCal b :=
    congrArg (fun x => x.bridges.read b) (s.takeBridgeCal_cal b k)
  rw [h]
  simp [State.bridgeCal, State.onBridgeCal]

theorem State.takeBridgeCal_others {o : BridgeNo} (ho : o ≠ b) : (s.takeBridgeCal b k).bridgeCal o = s.bridgeCal o :=
  (congrArg (fun x => x.bridges.read o) (s.takeBridgeCal_cal b k)).trans (s.onBridgeCal_others ho (fun _ => k))

theorem State.takeBridgeCal_channels : (s.takeBridgeCal b k).ret.cal.channels = s.ret.cal.channels :=
  (congrArg Calibration.channels (s.takeBridgeCal_cal b k)).trans rfl

theorem State.takeBridgeCal_calCounter : (s.takeBridgeCal b k).ret.calCounter = succSkipZero s.ret.calCounter := by
  have h : (s.recalibrated b k).ret.calCounter = s.ret.calCounter := s.recalibrated_same b k .calCounter (by decide)
  rw [show (s.takeBridgeCal b k).ret.calCounter = _ from s.takeBridgeCal_moves b k .calCounter (by decide),
    State.calibrated_calCounter, h]

theorem State.takeBridgeCal_deck (d : DeckNo) :
    (s.takeBridgeCal b k).deck d =
      if d ∈ (s.bridgeCal b).members ++ k.members then (s.deck d).emptied else s.deck d :=
  (((s.takeBridgeCal_moves b k).deck d).trans ((State.calibrated_same _ _ _).deck d)).trans (s.recalibrated_deck b k d)

end

/-! ### The bridge cleared (R36) -/

section
variable {s : State} {b : BridgeNo}

/-- A bridge without members is left as one with members is, but for a capture on it. -/
theorem State.clearBridge_left (hc : s.metrology.closed = true) (hn : s.NoCrossing b) :
    SameBut [.bridges, .evaluations] s (s.clearBridge b) ∧
      ((s.clearBridge b).bridge b).uncaptured = ((s.bridge b).afterClearing (s.bridgeCal b).z0).uncaptured ∧
      ∀ o : BridgeNo, o ≠ b → (s.clearBridge b).bridge o = s.bridge o := by
  by_cases hm : (s.bridgeCal b).members = []
  · have he : ((s.zeroToReference b).bridgeCal b).members.isEmpty = true := List.isEmpty_iff.mpr hm
    have hx : s.clearBridge b = (s.zeroToReference b).onBridge b (fun x => x.evaluated .afterCalibration) := by
      simp only [State.clearBridge, he, if_true]
    rw [hx]
    refine ⟨((SameBut.refl s _).then (s.zeroToReference_same b)).then (State.onBridge_same _ b _), ?_, fun o ho => ?_⟩
    · rw [State.onBridge_bridge, State.zeroToReference_bridge]
      rfl
    · rw [State.onBridge_bridge_ne _ _ (Ne.symm ho), State.zeroToReference_others _ ho]
  · obtain ⟨hsame, hself, hothers⟩ := State.clearBridge_alone hm hc hn
    exact ⟨hsame, congrArg Bridge.uncaptured hself, hothers⟩

/-- Where no lane of the bridge is at the end of a movement, only the bridge follows from the calibration. -/
theorem State.takeBridgeCal_resting {k : BridgeCal} (hc : s.metrology.closed = true) (hn : s.NoCrossing b) :
    SameBut [.bridges, .evaluations, .checkWord] ((s.recalibrated b k).calibrated 0x12 (some b.val))
        (s.takeBridgeCal b k) ∧
      ((s.takeBridgeCal b k).bridge b).uncaptured = ((s.bridge b).afterClearing k.z0).uncaptured ∧
      ∀ o : BridgeNo, o ≠ b → (s.takeBridgeCal b k).bridge o = s.bridge o := by
  have hsame := s.recounted_same b k
  have hclosed : ((s.recalibrated b k).calibrated 0x12 (some b.val)).metrology.closed = true := by
    rw [show _ = s.metrology from hsame .metrology (by decide)]
    exact hc
  have hz0 : (((s.recalibrated b k).calibrated 0x12 (some b.val)).bridgeCal b) = k :=
    (congrArg (fun x => x.bridges.read b) (s.takeBridgeCal_moves b k .cal (by decide))).symm.trans
      (s.takeBridgeCal_bridgeCal b k)
  obtain ⟨hclear, hself, hothers⟩ := State.clearBridge_left hclosed (State.NoCrossing.of_same hsame hn)
  rw [hz0, hsame.bridge b] at hself
  rw [State.takeBridgeCal_eq]
  refine ⟨(hclear.mono (by decide)).then (State.seal_same _), ?_, fun o ho => ?_⟩
  · rw [(State.seal_same _).bridge b, hself]
  · rw [(State.seal_same _).bridge o, hothers o ho, hsame.bridge o]

theorem State.takeBridgeCal_voiced {k : BridgeCal} (hc : s.metrology.closed = true) (hn : s.NoCrossing b)
    (h : s.link.reports.length < 32) :
    (s.takeBridgeCal b k).voiced = s.voiced ++ [.calChanged 0x12 (succSkipZero s.ret.calCounter) (some b.val)] := by
  rw [((State.takeBridgeCal_resting hc hn).1 .reports (by decide)).1,
    State.calibrated_voiced _ _ _ (by rw [s.recalibrated_link b k]; exact h),
    show (s.recalibrated b k).ret.calCounter = _ from s.recalibrated_same b k .calCounter (by decide),
    (s.recalibrated_same b k .reports (by decide)).1]

/-- What a cleared bridge shows, whatever becomes of a capture on it. -/
theorem Bridge.cleared_of_uncaptured {x y : Bridge} {z0 : Int} (h : x.uncaptured = (y.afterClearing z0).uncaptured) :
    x.state = .notReady ∧ x.window = [] ∧ x.run = 0 ∧ x.zb = z0 ∧ x.gross = none ∧ x.backlog = y.backlog :=
  ⟨(congrArg Bridge.state h :), (congrArg Bridge.window h :), (congrArg Bridge.run h :), (congrArg Bridge.zb h :),
    (congrArg Bridge.gross h :), (congrArg Bridge.backlog h :)⟩

end

end Sys2Proof.Machine

open Sys2Proof Sys2Proof.Machine

/-- Settles O30: the request is refused exactly for what its checks name; past them it writes the settings and empties the
filters, and the bridge is cleared as by every calibration. -/
theorem calBridgeCalibratesTheBridge : Obligations.CalBridgeCalibratesTheBridge := by
  unfold Obligations.CalBridgeCalibratesTheBridge
  refine ⟨fun f b members s hs hc hp hb hm he hsix hmod hlo hhi hfil hwlo hwhi hband hform => ?taken,
    fun f s hs hc hp hbad => ?range⟩
  all_goals have hg : s.hunting.calibrationGate = none := State.calibrationGate_none hc hp
  case range =>
    refine State.receive_turned hs (by simp) (actCalBridge_outOfRange hg (fun b members hb hm he => ?_))
    obtain ⟨hfirst, hsecond, htwice⟩ := hm.bytes
    refine Bool.eq_false_iff.mpr (fun hr => ?_)
    obtain ⟨hsix, hmod, hlo, hhi, hfil, hwlo, hwhi, hband, hform⟩ := calBridgeInRange_iff.mp hr
    rcases hbad with h | ⟨h, hne⟩ | ⟨h, hne⟩ | ⟨h, hne⟩ | ⟨b', o, d, hb', hd, ho, hmem⟩ | h | h | h | h | h | h | h |
      h | h
    · have := b.isLt
      omega
    · have := hfirst.resolve_left hne
      omega
    · have := hsecond.resolve_left hne
      omega
    · exact htwice.elim hne (fun hn => hn h)
    · obtain rfl : b' = b := Fin.ext (hb'.symm.trans hb)
      exact he d (hm.mem hd) o ho hmem
    · exact h hsix
    all_goals omega
  case taken =>
    have hr := calBridgeInRange_iff.mpr ⟨hsix, hmod, hlo, hhi, hfil, hwlo, hwhi, hband, hform⟩
    obtain ⟨t, hx, hans, rfl⟩ := State.receive_taken hs (r := .calBridge f) (by simp)
      (actCalBridge_accepted hg hb hm he hr)
    generalize hk : bridgeCalOf f members (s.hunting.bridgeCal b).z0 = k at hx hans ⊢
    have hret : ∀ r, (((s.hunting.takeBridgeCal b k).setReply r).transmit).ret = (s.hunting.takeBridgeCal b k).ret :=
      fun r => by rw [State.transmit_ret]; rfl
    have hcal : ∀ r o, (((s.hunting.takeBridgeCal b k).setReply r).transmit).bridgeCal o =
        (s.hunting.takeBridgeCal b k).bridgeCal o := fun r o => by
      rw [State.bridgeCal, hret]
      rfl
    have hdeck : ∀ r d, (((s.hunting.takeBridgeCal b k).setReply r).transmit).deck d =
        if d ∈ (s.bridgeCal b).members ++ members then (s.deck d).emptied else s.deck d := fun r d => by
      rw [State.transmit_deck, (State.setReply_same _ r).deck d, State.takeBridgeCal_deck, ← hk]
      rfl
    have hd : 0 < f.interval.toNat := by
      unfold SixIntervals at hsix
      omega
    refine ⟨_, hx, ?answer, ?_⟩
    case answer =>
      rw [hcal, hret, State.takeBridgeCal_bridgeCal]
      exact hans
    simp only [hcal, hret, hdeck, State.takeBridgeCal_bridgeCal, State.takeBridgeCal_calCounter]
    subst hk
    refine ⟨rfl, rfl, rfl, rfl, rfl, rfl, rfl, rfl, ?calibrated, fun h => ⟨fun hz => ?given, fun hz => ?limited⟩,
      fun h => ?default, fun o ho => ?others, ?channels, fun d hd => ?emptied, fun d hd => if_neg hd, fun hn => ?resting⟩
    case calibrated =>
      cases members <;> simp [bridgeCalOf]
    case given =>
      have h0 : f.zrForm = 0 := BitVec.eq_of_toNat_eq h
      simp only [bridgeCalOf, h0]
      exact zrTaken_given hz
    case limited =>
      have h0 : f.zrForm = 0 := BitVec.eq_of_toNat_eq h
      simp only [bridgeCalOf, h0]
      exact zrTaken_limited hd hz
    case default =>
      have h0 : f.zrForm ≠ 0 := fun hz => by simp [hz] at h
      exact zrTaken_default h0 hd
    case others => exact State.takeBridgeCal_others _ b _ ho
    case channels => exact State.takeBridgeCal_channels _ b _
    case emptied =>
      rw [if_pos hd]
      exact ⟨rfl, rfl, rfl⟩
    case resting =>
      obtain ⟨hsame, hself, hothers⟩ := State.takeBridgeCal_resting (s := s.hunting) (b := b)
        (k := bridgeCalOf f members (s.hunting.bridgeCal b).z0) hc hn
      obtain ⟨hstate, hwindow, hrun, hzb, hgross, hback⟩ := Bridge.cleared_of_uncaptured hself
      have hbridge : ∀ u r, ((State.setReply u r).transmit).bridge = u.bridge := fun u r => funext fun o => by
        rw [State.transmit_bridge, (State.setReply_same _ r).bridge o]
      rw [hbridge]
      refine ⟨hstate, hwindow, hrun, hzb, hgross, hback, hothers, fun hq => ?_, State.taken_same
        (SameBut.then (ps := [.cal, .calCounter, .checkWord, .decks, .bridges, .reports, .evaluations])
          ((s.hunting.recounted_same b _).mono (by decide)) hsame) _⟩
      rw [State.transmit_voiced, State.setReply_voiced]
      exact State.takeBridgeCal_voiced hc hn hq

end

-- ==== Proofs of family 03: captures under power fail ====
section
/-! No capture runs while the power-fail input is asserted (O14): no change starts one under power fail (R43), and the
assertion, the reset and the loss of main power leave none (R54). -/

namespace Sys2Proof.Machine

/-- A bridge that a rule may make holds no capture where power fail has left none. -/
theorem State.LegalBridge.stopped {s : State} {b : BridgeNo} {y : Bridge} (h : s.LegalBridge b y)
    (hs : s.CapturesStopped) (hf : s.failing = true) : y.capture = none := by
  obtain ⟨_, _, hstart⟩ := h
  by_contra hy
  rcases hstart (Option.isSome_iff_ne_none.mpr hy) with ran | calm
  · rw [hs hf b] at ran
    cases ran
  · rw [hf] at calm
    cases calm

theorem Move.capturesStopped {s t : State} (h : Move s t) (hs : s.CapturesStopped) : t.CapturesStopped := by
  cases h with
  | bridge b f h =>
    intro hf o
    rw [State.onBridge_bridge_at]
    split
    · next hbo => exact hbo ▸ h.stopped hs hf
    · exact hs hf o
  | _ => exact hs

theorem Change.capturesStopped {s t : State} (h : Change s t) (hs : s.CapturesStopped) : t.CapturesStopped := by
  cases h with
  | move h => exact h.capturesStopped hs
  | bridges x h => exact fun hf o => (h o).stopped hs hf
  | powerFail p h => exact fun hf => hs (h hf)
  | _ => exact hs

theorem Changes.capturesStopped {s t : State} (h : Changes s t) (hs : s.CapturesStopped) : t.CapturesStopped :=
  h.keep (P := State.CapturesStopped) (fun m => m.capturesStopped) hs

theorem State.zeroToReference_capture (s : State) (b o : BridgeNo) :
    ((s.zeroToReference b).bridge o).capture = (s.bridge o).capture := by
  unfold State.zeroToReference
  rw [State.onBridge_bridge_at]
  split
  · next h => rw [h]
  · rfl

theorem State.bare_capture (s : State) (r : Retained) (b : BridgeNo) : ((s.bare r).bridge b).capture = none := by
  rw [State.bare_bridge]
  rfl

/-- The assertion cancels every capture, and a reset and the loss of main power leave none. -/
theorem Special.capturesStopped {s t : State} (h : Special s t) (hs : s.CapturesStopped) : t.CapturesStopped := by
  cases h with
  | none => exact hs
  | switch m => exact hs
  | recalibrate b f _ h =>
    intro hf o
    rw [State.zeroToReference_capture]
    exact h.capturesStopped (s := s.onBridgeCal b f) hs hf o
  | halt _ hc => exact fun _ => hc
  | reset c => exact (Moves.started _ _ _).changes.capturesStopped (fun _ => s.bare_capture _)
  | dark => exact fun _ => s.bare_capture _

end Sys2Proof.Machine

open Sys2Proof Sys2Proof.Machine

/-- Settles O14: each change of a step, and each special one, keeps captures away under power fail. -/
theorem noCaptureRunsUnderPowerFail : Obligations.NoCaptureRunsUnderPowerFail := by
  unfold Obligations.NoCaptureRunsUnderPowerFail
  intro s t hs h
  exact (Shape.step s t h).keep (P := State.CapturesStopped) (fun m => m.capturesStopped) (fun m => m.capturesStopped) hs

end

-- ==== Proofs of family 03: what keeps captures and weighing visits ====
section
/-! The captures, the lanes they run for and the visits they weigh (O9): what a rule may do without disturbing them. -/

namespace Sys2Proof.Machine

/-- The visit and the lane of the capture on a bridge (R42). -/
def State.captured (s : State) (b : BridgeNo) : Option (Nat × LaneNo) :=
  (s.bridge b).capture.map (fun k => (k.visit, k.lane))

/-- The visit is in WEIGHING_IN or WEIGHING_OUT (R145). -/
def VisitState.onScale (st : VisitState) : Prop := st = .weighingIn ∨ st = .weighingOut

/-- A lane in this state may have a capture: WEIGHING, or on its way to MANUAL (R43, R95). -/
def LaneState.mayWeigh (st : LaneState) : Prop := st = .weighing ∨ st = .takeoverPending

/-- No capture runs for the lane. -/
def State.Unweighed (s : State) (l : LaneNo) : Prop := ∀ b n, s.captured b ≠ some (n, l)

/-- The lane neither waits in the SITE_FULL list nor has an ACTIVE query (R132, R153). -/
structure State.Silent (s : State) (l : LaneNo) : Prop where
  list : l ∉ s.siteFull
  slot : (s.slot l).state ≠ .active

/-- Nothing but the lane's own sequence hangs on its state. -/
structure State.Free (s : State) (l : LaneNo) : Prop extends s.Silent l where
  unweighed : s.Unweighed l

/-- What the rules rely on in the middle of an event: captures stand as R43 and R95 have them, and the lanes of the
SITE_FULL list and of the ACTIVE queries are in the states that go with them (R132, R153). -/
structure State.Ordered (s : State) : Prop where
  captures : ∀ b n l, s.captured b = some (n, l) →
    (s.config l).bridge = some b ∧ (s.grant b).holder = some l ∧ (s.lane l).state.mayWeigh
  nodup    : s.siteFull.Nodup
  listed   : ∀ l ∈ s.siteFull, (s.lane l).state = .siteFull
  asking   : ∀ l, (s.slot l).state = .active → (s.lane l).state = .admitting

/-- Every visit in a weighing state, but that of the number `x`, has a capture of the lane that serves it (R145). -/
def State.WeighedBut (s : State) (x : Option Nat) : Prop :=
  ∀ v ∈ s.ret.visits.records, v.state.onScale → x ≠ some v.number →
    ∃ b l, s.captured b = some (v.number, l) ∧ (s.lane l).visit = some v.number

/-- No visit of the number is in a weighing state. -/
def State.Settled (s : State) (n : Nat) : Prop := ∀ v ∈ s.ret.visits.records, v.number = n → ¬ v.state.onScale

/-- What a change may do to a lane for which a capture runs: the lane goes on being one that may weigh, with its visit,
its bridge and the grants it holds. -/
structure LaneServes (l : LaneNo) (s t : State) : Prop where
  bridge : (t.config l).bridge = (s.config l).bridge
  state  : (s.lane l).state.mayWeigh → (t.lane l).state.mayWeigh
  visit  : (t.lane l).visit = (s.lane l).visit
  holder : ∀ b, (s.grant b).holder = some l → (t.grant b).holder = some l

/-- A change that starts no capture, leaves the lanes of those that run serving, puts no visit into a weighing state, and
ends no capture but with the weighing of its visit. Of the lanes, those that meet `asks` may come to wait in the SITE_FULL
list or for an answer; the others that do stay in their state. -/
structure Eases (asks : LaneNo → Prop) (s t : State) : Prop where
  captured : ∀ b n l, t.captured b = some (n, l) → s.captured b = some (n, l) ∧ LaneServes l s t
  weighing : ∀ v ∈ t.ret.visits.records, v.state.onScale →
    (∃ w ∈ s.ret.visits.records, w.number = v.number ∧ w.state.onScale) ∧
      ∀ b l, s.captured b = some (v.number, l) → (s.lane l).visit = some v.number → t.captured b = some (v.number, l)
  nodup    : s.siteFull.Nodup → t.siteFull.Nodup
  listed   : ∀ l ∈ t.siteFull, (asks l ∧ (t.lane l).state = .siteFull) ∨
    (l ∈ s.siteFull ∧ (t.lane l).state = (s.lane l).state)
  asking   : ∀ l, (t.slot l).state = .active → (asks l ∧ (t.lane l).state = .admitting) ∨
    ((s.slot l).state = .active ∧ (t.lane l).state = (s.lane l).state)

variable {asks : LaneNo → Prop} {s t u : State} {l : LaneNo}

/-! ### What a state in order says of a lane -/

theorem State.Ordered.unweighed (hs : s.Ordered) (hl : ¬ (s.lane l).state.mayWeigh) : s.Unweighed l := by
  intro b n hc
  obtain ⟨_, _, hw⟩ := hs.captures b n l hc
  exact hl hw

theorem State.Ordered.silent (hs : s.Ordered) (hl : (s.lane l).state ≠ .siteFull)
    (ha : (s.lane l).state ≠ .admitting) : s.Silent l :=
  ⟨fun h => hl (hs.listed l h), fun h => ha (hs.asking l h)⟩

/-- A lane in none of the four states that something hangs on is free. -/
theorem State.Ordered.free (hs : s.Ordered) (hl : (s.lane l).state ≠ .siteFull) (ha : (s.lane l).state ≠ .admitting)
    (hw : (s.lane l).state ≠ .weighing) (ht : (s.lane l).state ≠ .takeoverPending) : s.Free l :=
  ⟨hs.silent hl ha, hs.unweighed (fun h => h.elim hw ht)⟩

/-- A lane weighs on its own bridge alone. -/
theorem State.Ordered.captured_unique (hs : s.Ordered) {b o : BridgeNo} {n m : Nat} (h : s.captured b = some (n, l))
    (k : s.captured o = some (m, l)) : b = o := by
  obtain ⟨hb, _, _⟩ := hs.captures b n l h
  obtain ⟨ho, _, _⟩ := hs.captures o m l k
  exact Option.some.inj (hb.symm.trans ho)

theorem State.Settled.weighed {n : Nat} (h : s.Settled n) (hw : s.WeighedBut (some n)) : s.WeighedBut none :=
  fun v hv ho _ => hw v hv ho (fun e => h v hv (Option.some.inj e).symm ho)

/-! ### What such a change keeps -/

theorem LaneServes.of_eq (hk : (t.config l).bridge = (s.config l).bridge) (hl : t.lane l = s.lane l)
    (hg : ∀ b, (s.grant b).holder = some l → (t.grant b).holder = some l) : LaneServes l s t :=
  ⟨hk, fun h => hl ▸ h, by rw [hl], hg⟩

theorem LaneServes.refl (l : LaneNo) (s : State) : LaneServes l s s := .of_eq rfl rfl (fun _ h => h)

theorem LaneServes.trans (h : LaneServes l s t) (k : LaneServes l t u) : LaneServes l s u :=
  ⟨k.bridge.trans h.bridge, fun hw => k.state (h.state hw), k.visit.trans h.visit,
    fun b hb => k.holder b (h.holder b hb)⟩

/-- A change that keeps every capture needs to say nothing of their ends. -/
theorem Eases.of_captured (hc : ∀ b, t.captured b = s.captured b) (hl : ∀ l, ¬ s.Unweighed l → LaneServes l s t)
    (hv : ∀ v ∈ t.ret.visits.records, v.state.onScale →
      ∃ w ∈ s.ret.visits.records, w.number = v.number ∧ w.state.onScale)
    (hn : s.siteFull.Nodup → t.siteFull.Nodup)
    (hf : ∀ l ∈ t.siteFull, (asks l ∧ (t.lane l).state = .siteFull) ∨
      (l ∈ s.siteFull ∧ (t.lane l).state = (s.lane l).state))
    (ha : ∀ l, (t.slot l).state = .active → (asks l ∧ (t.lane l).state = .admitting) ∨
      ((s.slot l).state = .active ∧ (t.lane l).state = (s.lane l).state)) : Eases asks s t where
  captured b n l h := ⟨hc b ▸ h, hl l (fun k => k b n (hc b ▸ h))⟩
  weighing v hm ho := ⟨hv v hm ho, fun b _ h _ => (hc b).trans h⟩
  nodup := hn
  listed := hf
  asking := ha

theorem Eases.refl (s : State) : Eases asks s s :=
  .of_captured (fun _ => rfl) (fun l _ => .refl l s) (fun v h ho => ⟨v, h, rfl, ho⟩) id (fun _ h => .inr ⟨h, rfl⟩)
    (fun _ h => .inr ⟨h, rfl⟩)

theorem Eases.trans (h : Eases asks s t) (k : Eases asks t u) : Eases asks s u where
  captured b n l hc := by
    obtain ⟨hc, kl⟩ := k.captured b n l hc
    obtain ⟨hc, hl⟩ := h.captured b n l hc
    exact ⟨hc, hl.trans kl⟩
  weighing v hv ho := by
    obtain ⟨⟨w, hw, hn, hwo⟩, kc⟩ := k.weighing v hv ho
    obtain ⟨⟨x, hx, hm, hxo⟩, hc⟩ := h.weighing w hw hwo
    refine ⟨⟨x, hx, hm.trans hn, hxo⟩, fun b l hb hl => ?_⟩
    have ht : t.captured b = some (v.number, l) := hn ▸ hc b l (hn.symm ▸ hb) (hn.symm ▸ hl)
    obtain ⟨_, serves⟩ := h.captured b v.number l ht
    exact kc b l ht (serves.visit.trans hl)
  nodup hs := k.nodup (h.nodup hs)
  listed l hl := by
    rcases k.listed l hl with done | ⟨ht, ku⟩
    · exact .inl done
    · rcases h.listed l ht with ⟨ha, hst⟩ | ⟨hm, hst⟩
      · exact .inl ⟨ha, ku.trans hst⟩
      · exact .inr ⟨hm, ku.trans hst⟩
  asking l hl := by
    rcases k.asking l hl with done | ⟨ht, ku⟩
    · exact .inl done
    · rcases h.asking l ht with ⟨ha, hst⟩ | ⟨hm, hst⟩
      · exact .inl ⟨ha, ku.trans hst⟩
      · exact .inr ⟨hm, ku.trans hst⟩

theorem Eases.mono {more : LaneNo → Prop} (h : Eases asks s t) (hm : ∀ l, asks l → more l) : Eases more s t :=
  { h with
    listed := fun l hl => (h.listed l hl).imp_left (fun k => ⟨hm l k.1, k.2⟩)
    asking := fun l hl => (h.asking l hl).imp_left (fun k => ⟨hm l k.1, k.2⟩) }

theorem Eases.ite {c : Prop} [Decidable c] (h : c → Eases asks s t) (k : ¬ c → Eases asks s u) :
    Eases asks s (if c then t else u) := by
  split
  · next hc => exact h hc
  · next hc => exact k hc

theorem Eases.unweighed (h : Eases asks s t) (hl : s.Unweighed l) : t.Unweighed l :=
  fun b n hc => hl b n (h.captured b n l hc).1

theorem Eases.silent (h : Eases asks s t) (hn : ¬ asks l) (hl : s.Silent l) : t.Silent l where
  list hm := (h.listed l hm).elim (fun k => hn k.1) (fun k => hl.list k.1)
  slot hm := (h.asking l hm).elim (fun k => hn k.1) (fun k => hl.slot k.1)

theorem Eases.free (h : Eases asks s t) (hn : ¬ asks l) (hl : s.Free l) : t.Free l :=
  ⟨h.silent hn hl.toSilent, h.unweighed hl.unweighed⟩

theorem Eases.ordered (h : Eases asks s t) (hs : s.Ordered) : t.Ordered where
  captures b n l hc := by
    obtain ⟨hc, serves⟩ := h.captured b n l hc
    obtain ⟨hb, hg, hw⟩ := hs.captures b n l hc
    exact ⟨serves.bridge.trans hb, serves.holder b hg, serves.state hw⟩
  nodup := h.nodup hs.nodup
  listed l hl := (h.listed l hl).elim (fun k => k.2) (fun k => k.2.trans (hs.listed l k.1))
  asking l hl := (h.asking l hl).elim (fun k => k.2) (fun k => k.2.trans (hs.asking l k.1))

theorem Eases.settled {n : Nat} (h : Eases asks s t) (hs : s.Settled n) : t.Settled n := by
  intro v hv hn ho
  obtain ⟨⟨w, hw, hwn, hwo⟩, _⟩ := h.weighing v hv ho
  exact hs w hw (hwn.trans hn) hwo

theorem Eases.weighedBut {x : Option Nat} (h : Eases asks s t) (hs : s.WeighedBut x) : t.WeighedBut x := by
  intro v hv ho hx
  obtain ⟨⟨w, hw, hn, hwo⟩, ends⟩ := h.weighing v hv ho
  obtain ⟨b, l, hc, hl⟩ := hs w hw hwo (hn.symm ▸ hx)
  have ht := ends b l (hn ▸ hc) (hn ▸ hl)
  exact ⟨b, l, ht, (h.captured b v.number l ht).2.visit.trans (hn ▸ hl)⟩

/-- A chain of changes: the next may rely on the order that the ones before have kept. -/
theorem Eases.then (h : Eases asks s t) (hs : s.Ordered) (k : t.Ordered → Eases asks t u) : Eases asks s u :=
  h.trans (k (h.ordered hs))

/-! ### One update -/

/-- The parts that captures, their lanes, the weighing visits and the waiting lanes do not stand in. -/
def restParts : List Part :=
  [.pending, .powered, .journal, .tares, .cal, .calCounter, .clock, .checkWord, .pins, .channels, .metrology, .decks,
    .barriers, .loops, .beams, .cache, .refusals, .marks, .powerFail, .strap, .receiver, .requests, .reply, .busy,
    .queryFrames, .reports, .evaluations]

theorem SameBut.config {ps : List Part} (h : SameBut ps s t) (l : LaneNo) (hp : Part.site ∉ ps := by decide) :
    t.config l = s.config l :=
  congrArg (fun x => x.lanes.read l) (show t.ret.site = s.ret.site from h _ hp)

theorem SameBut.captured {ps : List Part} (h : SameBut ps s t) (b : BridgeNo) (hp : Part.bridges ∉ ps := by decide) :
    t.captured b = s.captured b := by
  unfold State.captured
  rw [h.bridge b hp]

/-- A change of other parts. -/
theorem Eases.of_rest (h : SameBut restParts s t) : Eases asks s t := by
  have hl : ∀ l, t.lane l = s.lane l := fun l => h.lane l
  have hv : t.ret.visits = s.ret.visits := h .visits (by decide)
  have hf : t.siteFull = s.siteFull := h .siteFull (by decide)
  refine .of_captured (fun b => h.captured b) (fun l _ => .of_eq (by rw [h.config l]) (hl l) ?_)
    (fun v hm ho => ⟨v, hv ▸ hm, rfl, ho⟩) (fun hn => hf ▸ hn) (fun l hm => .inr ⟨hf ▸ hm, by rw [hl l]⟩)
    (fun l ha => .inr ⟨h.slot l ▸ ha, by rw [hl l]⟩)
  intro b hb
  rw [h.grant b]
  exact hb

theorem Eases.of_same {ps : List Part} (h : SameBut ps s t) (hs : ps ⊆ restParts := by decide) : Eases asks s t :=
  .of_rest (h.mono hs)

/-- A lane changes: one that weighs goes on serving, one that waits stays in its state. -/
theorem Eases.onLane (s : State) (l : LaneNo) (f : Lane → Lane)
    (hk : s.Unweighed l ∨ (((s.lane l).state.mayWeigh → (f (s.lane l)).state.mayWeigh) ∧
      (f (s.lane l)).visit = (s.lane l).visit))
    (ha : s.Silent l ∨ (f (s.lane l)).state = (s.lane l).state) : Eases asks s (s.onLane l f) := by
  have hst : ∀ m, m ∈ s.siteFull ∨ (s.slot m).state = .active → ((s.onLane l f).lane m).state = (s.lane m).state := by
    intro m hm
    rw [State.onLane_lane_at]
    split
    · next h =>
      subst h
      rcases ha with silent | same
      · exact absurd hm (fun h => h.elim silent.list silent.slot)
      · exact same
    · rfl
  refine .of_captured (fun _ => rfl) (fun m hm => ?_) (fun v h ho => ⟨v, h, rfl, ho⟩) id
    (fun m h => .inr ⟨h, hst m (.inl h)⟩) (fun m h => .inr ⟨h, hst m (.inr h)⟩)
  by_cases h : l = m
  · subst h
    obtain ⟨hw, hv⟩ := hk.resolve_left hm
    exact ⟨rfl, by rw [State.onLane_lane]; exact hw, by rw [State.onLane_lane]; exact hv, fun _ hb => hb⟩
  · exact .of_eq rfl (s.onLane_lane_ne f h) (fun _ hb => hb)

/-- A change of a lane's other items. -/
theorem Eases.keepLane (s : State) (l : LaneNo) (f : Lane → Lane)
    (h : ∀ n, (f n).state = n.state ∧ (f n).visit = n.visit) : Eases asks s (s.onLane l f) :=
  .onLane s l f (.inr ⟨fun k => by rw [(h _).1]; exact k, (h _).2⟩) (.inr (h _).1)

theorem Eases.freeLane {l : LaneNo} (hl : s.Free l) (f : Lane → Lane) : Eases asks s (s.onLane l f) :=
  .onLane s l f (.inl hl.unweighed) (.inl hl.toSilent)

/-- A grant changes, and no lane that weighs loses it. -/
theorem Eases.onGrant (s : State) (b : BridgeNo) (f : Grant → Grant)
    (h : ∀ l, ¬ s.Unweighed l → (s.grant b).holder = some l → (f (s.grant b)).holder = some l) :
    Eases asks s (s.onGrant b f) := by
  refine .of_captured (fun _ => rfl) (fun l hl => .of_eq rfl rfl (fun o ho => ?_)) (fun v h ho => ⟨v, h, rfl, ho⟩) id
    (fun _ h => .inr ⟨h, rfl⟩) (fun _ h => .inr ⟨h, rfl⟩)
  rw [State.onGrant_grant_at]
  split
  · next hb =>
    subst hb
    exact h l hl ho
  · exact ho

/-- A change of the admission unit that makes no query ACTIVE. -/
theorem Eases.onAdm (s : State) (f : Admission → Admission)
    (h : ∀ l, ((f s.adm).slots.read l).state = .active → (s.slot l).state = .active) : Eases asks s (s.onAdm f) :=
  .of_captured (fun _ => rfl) (fun _ _ => .of_eq rfl rfl (fun _ h => h)) (fun v h ho => ⟨v, h, rfl, ho⟩) id
    (fun _ h => .inr ⟨h, rfl⟩) (fun l hl => .inr ⟨h l hl, rfl⟩)

theorem Eases.onSlot (s : State) (l : LaneNo) (f : QuerySlot → QuerySlot)
    (h : (f (s.slot l)).state = .active → (s.slot l).state = .active) : Eases asks s (s.onSlot l f) := by
  refine .onAdm s _ (fun m hm => ?_)
  change ((s.onSlot l f).slot m).state = .active at hm
  rw [State.onSlot_slot_at] at hm
  split at hm
  · next hlm =>
    subst hlm
    exact h hm
  · exact hm

/-- Lanes leave the SITE_FULL list. -/
theorem Eases.siteFull (s : State) (xs : List LaneNo) (h : xs.Sublist s.siteFull) :
    Eases asks s { s with siteFull := xs } :=
  .of_captured (fun _ => rfl) (fun _ _ => .of_eq rfl rfl (fun _ h => h)) (fun v h ho => ⟨v, h, rfl, ho⟩)
    (fun hn => hn.sublist h) (fun _ hm => .inr ⟨h.subset hm, rfl⟩) (fun _ h => .inr ⟨h, rfl⟩)

/-- A change of the visit table that puts no visit into a weighing state. -/
theorem Eases.onVisits (s : State) (f : VisitStore → VisitStore)
    (h : ∀ v ∈ (f s.ret.visits).records, v.state.onScale →
      ∃ w ∈ s.ret.visits.records, w.number = v.number ∧ w.state.onScale) : Eases asks s (s.onVisits f) :=
  .of_captured (fun _ => rfl) (fun _ _ => .of_eq rfl rfl (fun _ h => h)) h id (fun _ h => .inr ⟨h, rfl⟩)
    (fun _ h => .inr ⟨h, rfl⟩)

/-- A record after a change of the visits of one number. -/
theorem State.mem_onVisit {n : Nat} {f : Visit → Visit} {v : Visit} (h : v ∈ (s.onVisit n f).ret.visits.records) :
    ∃ w ∈ s.ret.visits.records, v = if w.number = n then f w else w := by
  obtain ⟨w, hw, he⟩ := List.mem_map.mp h
  exact ⟨w, hw, he.symm⟩

theorem Eases.onVisit (s : State) (n : Nat) (f : Visit → Visit)
    (h : ∀ v, v.number = n → (f v).number = n ∧ ((f v).state.onScale → v.state.onScale)) :
    Eases asks s (s.onVisit n f) := by
  refine .onVisits s _ (fun v hv ho => ?_)
  obtain ⟨w, hw, rfl⟩ := State.mem_onVisit hv
  refine ⟨w, hw, ?_⟩
  by_cases hn : w.number = n
  · rw [if_pos hn] at ho ⊢
    obtain ⟨hfn, hfo⟩ := h w hn
    exact ⟨hn.trans hfn.symm, hfo ho⟩
  · rw [if_neg hn] at ho ⊢
    exact ⟨rfl, ho⟩

/-- A change that takes the visits of a number out of the weighing states settles it. -/
theorem State.onVisit_settled (s : State) (n : Nat) (f : Visit → Visit) (h : ∀ v, ¬ (f v).state.onScale) :
    (s.onVisit n f).Settled n := by
  intro v hv hn
  obtain ⟨w, _, rfl⟩ := State.mem_onVisit hv
  by_cases hw : w.number = n
  · rw [if_pos hw]
    exact h w
  · rw [if_neg hw] at hn
    exact absurd hn hw

end Sys2Proof.Machine
end

-- ==== Proofs of family 03: lanes, grants, admission and visits around captures ====
section
/-! The rules of lanes, arbiter, admission and visits disturb no capture: a lane changes its state only where it is free,
and a grant is given only where none is held. -/

namespace Sys2Proof.Machine

variable {asks : LaneNo → Prop} {s t u : State} {l : LaneNo}

/-! ### Barriers and lanes -/

theorem Eases.report (s : State) (r : Report) : Eases asks s (s.report r) := .of_same (s.report_same r)
theorem Eases.seal (s : State) : Eases asks s s.seal := .of_same s.seal_same
theorem Eases.onBarrier (s : State) (b : BarrierNo) (f : Barrier → Barrier) : Eases asks s (s.onBarrier b f) :=
  .of_same (s.onBarrier_same b f)

theorem Eases.commandLower? (s : State) (b : Option BarrierNo) : Eases asks s (s.commandLower? b) := by
  cases b with
  | none => exact .refl s
  | some b => exact .onBarrier s b _

theorem Eases.lowerFront (s : State) (l : LaneNo) : Eases asks s (s.lowerFront l) := .commandLower? s _
theorem Eases.lowerRear (s : State) (l : LaneNo) : Eases asks s (s.lowerRear l) := .commandLower? s _

theorem Eases.raiseFront (s : State) (l : LaneNo) : Eases asks s (s.raiseFront l) := by
  unfold State.raiseFront
  split
  · exact .refl s
  · exact (Eases.onBarrier s _ _).trans (.keepLane _ l _ (fun _ => ⟨rfl, rfl⟩))

theorem Eases.raiseRear (s : State) (l : LaneNo) : Eases asks s (s.raiseRear l) := by
  unfold State.raiseRear
  split
  · exact .refl s
  · exact (Eases.onBarrier s _ _).trans (.keepLane _ l _ (fun _ => ⟨rfl, rfl⟩))

theorem Eases.enterState (hl : s.Free l) (st : LaneState) (r : Option Reason) : Eases asks s (s.enterState l st r) :=
  .ite (fun _ => .refl s) (fun _ => (Eases.freeLane hl _).trans (.report _ _))

/-- A lane that weighs may go on its way to MANUAL (R95). -/
theorem Eases.enterTakeover (hl : s.Silent l) (r : Option Reason) :
    Eases asks s (s.enterState l .takeoverPending r) :=
  .ite (fun _ => .refl s)
    (fun _ => (Eases.onLane s l _ (.inr ⟨fun _ => .inr rfl, rfl⟩) (.inl hl)).trans (.report _ _))

/-- The lane is in the state it goes to. -/
theorem State.enterState_state (s : State) (l : LaneNo) (st : LaneState) (r : Option Reason) :
    ((s.enterState l st r).lane l).state = st := by
  by_cases h : (s.lane l).state = st
  · rw [State.enterState_stays h]
    exact h
  · rw [State.enterState_lane h]
    rfl

theorem Eases.comeToIdle (hl : s.Free l) : Eases asks s (s.comeToIdle l) :=
  .ite (fun _ => .enterState hl _ _) (fun _ => .enterState hl _ _)

theorem Eases.clearVehicle (hl : s.Unweighed l) : Eases asks s (s.clearVehicle l) := .onLane s l _ (.inl hl) (.inr rfl)

/-! ### The arbiter -/

theorem Eases.enterEntering (hl : s.Free l) (hn : ¬ asks l) : Eases asks s (s.enterEntering l) := by
  have h : Eases asks s ((s.onLane l (fun n => { n with entered := false })).raiseFront l) :=
    (Eases.keepLane s l (fun n => { n with entered := false }) (fun _ => ⟨rfl, rfl⟩)).trans (.raiseFront _ l)
  have k := h.trans (.keepLane _ l (fun n => { n with entryTimer := .running (State.entryTime
    ((s.onLane l (fun n => { n with entered := false })).raiseFront l)) }) (fun _ => ⟨rfl, rfl⟩))
  exact k.trans (.enterState (k.free hn hl) _ _)

/-- A grant is given where none is held, and a lane that waits for it is free to enter (R104 to R106). -/
theorem Eases.giveGrant (hs : s.Ordered) {b : BridgeNo} (hb : (s.grant b).holder = none) (l : LaneNo) :
    Eases asks s (s.giveGrant b l) := by
  have h : Eases (fun _ => False) s (s.onGrant b (fun g => g.given l)) := .onGrant s b _ (fun _ _ hh => by
    rw [hb] at hh
    cases hh)
  refine Eases.mono (asks := fun _ => False) ?_ (fun _ h => h.elim)
  unfold State.giveGrant
  refine .ite (fun ⟨_, hw⟩ => h.trans (.enterEntering ?_ id)) (fun _ => h)
  have hst : (s.lane l).state = .awaitBridge := hw
  exact h.free id (hs.free (by rw [hst]; decide) (by rw [hst]; decide) (by rw [hst]; decide) (by rw [hst]; decide))

theorem Eases.decideGrant (hs : s.Ordered) (b : BridgeNo) : Eases asks s (s.decideGrant b) := by
  unfold State.decideGrant
  refine .ite (fun hg => ?_) (fun _ => .refl s)
  split
  · exact .refl s
  · exact .giveGrant hs (State.grantable_iff.mp hg).free _

theorem Eases.requestGrant (hs : s.Ordered) (l : LaneNo) : Eases asks s (s.requestGrant l) := by
  unfold State.requestGrant
  split
  · exact .refl s
  · exact (Eases.onGrant s _ _ (fun _ _ h => h)).then hs (fun ht => .decideGrant ht _)

theorem Eases.withdrawRequest (s : State) (l : LaneNo) : Eases asks s (s.withdrawRequest l) := by
  unfold State.withdrawRequest
  split
  · exact .refl s
  · exact .onGrant s _ _ (fun _ _ h => h)

/-- A lane that does not weigh may release its grant. -/
theorem Eases.releaseGrant (hs : s.Ordered) (hl : s.Unweighed l) : Eases asks s (s.releaseGrant l) := by
  unfold State.releaseGrant
  split
  · exact .refl s
  · refine .ite (fun hb => ?_) (fun _ => .refl s)
    refine (Eases.onGrant s _ _ (fun m hm hh => ?_)).then hs (fun ht => .decideGrant ht _)
    rw [hb] at hh
    exact absurd (Option.some.inj hh ▸ hl) hm

theorem Eases.enterAwaitBridge (hs : s.Ordered) (hl : s.Free l) (n : Nat) : Eases asks s (s.enterAwaitBridge l n) := by
  refine Eases.mono (asks := fun _ => False) ?_ (fun _ h => h.elim)
  have h : Eases (fun _ => False) s (s.onLane l (fun x => { x with visit := some n })) := .freeLane hl _
  exact (h.trans (.enterState (h.free id hl) _ _)).then hs (fun ht => .requestGrant ht l)

/-! ### Admission -/

theorem Eases.recordRefusal (s : State) (tag : Word) (l : LaneNo) (r : RefusalReason) :
    Eases asks s (s.recordRefusal tag l r) := .of_same (s.recordRefusal_same tag l r)

theorem Eases.refuseVehicle (hl : s.Free l) (tag : Word) (r : RefusalReason) :
    Eases asks s (s.refuseVehicle l tag r) := by
  refine Eases.mono (asks := fun _ => False) ?_ (fun _ h => h.elim)
  have h : Eases (fun _ => False) s
      ((s.recordRefusal tag l r).onLane l (fun n => { n with lastReason := some (.refusal r) })) :=
    (Eases.recordRefusal s tag l r).trans (.keepLane _ l _ (fun _ => ⟨rfl, rfl⟩))
  exact h.trans (.enterState (h.free id hl) _ _)

theorem Eases.forEach {α : Type} {f : α → State → State} (h : ∀ x s, Eases asks s (f x s)) (xs : List α) (s : State) :
    Eases asks s (forEach xs f s) := by
  induction xs generalizing s with
  | nil => exact .refl s
  | cons x xs ih => exact (h x s).trans (ih (f x s))

theorem Eases.forgetLate (s : State) (l : LaneNo) (n : Nat) : Eases asks s (s.forgetLate l n) := by
  refine .forEach (fun m s => .ite (fun _ => ?_) (fun _ => .refl s)) _ s
  exact (Eases.onSlot s m (fun _ => .vacant) (fun h => by cases h)).trans (.of_same (State.queryFrames_same _ _))

/-- A free lane changes, and with it what it asks. -/
theorem Eases.of_lane {ps : List Part} (hl : s.Free l) (h : SameBut ps s t)
    (hlane : ∀ m, m ≠ l → t.lane m = s.lane m) (hslot : ∀ m, m ≠ l → t.slot m = s.slot m)
    (hlist : l ∈ t.siteFull → asks l ∧ (t.lane l).state = .siteFull)
    (hask : (t.slot l).state = .active → asks l ∧ (t.lane l).state = .admitting)
    (hsite : ∀ m, m ≠ l → m ∈ t.siteFull → m ∈ s.siteFull) (hn : s.siteFull.Nodup → t.siteFull.Nodup)
    (hps : ps ⊆ .lanes :: .queries :: .siteFull :: restParts := by decide) : Eases asks s t := by
  have h' := h.mono (qs := .lanes :: .queries :: .siteFull :: restParts) (fun p hp => hps hp)
  refine .of_captured (fun b => h'.captured b) (fun m hm => ?_) (fun v hv ho => ⟨v, ?_, rfl, ho⟩) hn (fun m hm => ?_)
    (fun m hm => ?_)
  · have hml : m ≠ l := fun e => hm (e ▸ hl.unweighed)
    exact .of_eq (by rw [h'.config m]) (hlane m hml) (fun b hb => by rw [h'.grant b]; exact hb)
  · rw [show t.ret.visits = s.ret.visits from h' .visits (by decide)] at hv
    exact hv
  · by_cases hml : m = l
    · exact .inl (hml ▸ hlist (hml ▸ hm))
    · exact .inr ⟨hsite m hml hm, by rw [hlane m hml]⟩
  · by_cases hml : m = l
    · exact .inl (hml ▸ hask (hml ▸ hm))
    · exact .inr ⟨hslot m hml ▸ hm, by rw [hlane m hml]⟩

theorem State.onSlot_others (s : State) {l m : LaneNo} (h : m ≠ l) (f : QuerySlot → QuerySlot) :
    (s.onSlot l f).slot m = s.slot m := by
  rw [State.onSlot_slot_at, if_neg (Ne.symm h)]

/-- A free lane asks: its slot becomes ACTIVE, its frame is to be sent, and it goes to ADMITTING (R133, R134). -/
theorem Eases.ask (hl : s.Free l) (ha : asks l) (q : QuerySlot) (frames : Link → Table 4 (Option QueryFrame))
    (f : Lane → Lane) :
    Eases asks s ((((s.onSlot l (fun _ => q)).onLink (fun k => { k with queries := frames k })).onLane l f).enterState l
      .admitting none) := by
  have hv : SameBut [.queries, .queryFrames] s
      ((s.onSlot l (fun _ => q)).onLink (fun k => { k with queries := frames k })) :=
    ((s.onSlot_same l _).mono (by decide)).then (State.queryFrames_same _ _)
  have hslot : ∀ m, m ≠ l →
      ((s.onSlot l (fun _ => q)).onLink (fun k => { k with queries := frames k })).slot m = s.slot m :=
    fun m hm => s.onSlot_others hm (fun _ => q)
  generalize (s.onSlot l (fun _ => q)).onLink (fun k => { k with queries := frames k }) = v at hv hslot ⊢
  have ht : SameBut [.lanes, .reports] v ((v.onLane l f).enterState l .admitting none) :=
    ((v.onLane_same l f).mono (by decide)).then (State.enterState_same _ l _ _)
  have hlist : ((v.onLane l f).enterState l .admitting none).siteFull = s.siteFull :=
    (ht .siteFull (by decide)).trans (hv .siteFull (by decide))
  refine .of_lane (ps := [.lanes, .queries, .queryFrames, .reports]) hl ((hv.mono (by decide)).then ht) (fun m hm => ?_)
    (fun m hm => (ht.slot m).trans (hslot m hm)) (fun hm => absurd (hlist ▸ hm) hl.list)
    (fun _ => ⟨ha, State.enterState_state _ _ _ _⟩) (fun m _ hm => hlist ▸ hm) (fun hd => hlist ▸ hd)
  rw [State.enterState_others _ hm, State.onLane_lane_ne _ _ (Ne.symm hm), hv.lane m]

theorem Eases.sendQuery (hl : s.Free l) (ha : asks l) (tag : Word) (k : StreamNo) :
    Eases asks s (s.sendQuery l tag k) := by
  have h : Eases (fun _ => False) s
      ((s.onAdm (fun a => { a with queryCounter := succQuery (s.adm.freeNumber 4 s.adm.queryCounter) })).forgetLate l
        (s.adm.freeNumber 4 s.adm.queryCounter)) :=
    (Eases.onAdm s (fun a => { a with queryCounter := succQuery (s.adm.freeNumber 4 s.adm.queryCounter) })
      (fun _ h => h)).trans (.forgetLate _ l _)
  exact (h.mono (fun _ h => h.elim)).trans (.ask (h.free id hl) ha _ _ _)

theorem Eases.abandonQuery (s : State) (l : LaneNo) : Eases asks s (s.abandonQuery l) :=
  (Eases.ite
    (fun _ => .onSlot s l (fun q => { q with state := .late, deadline := .stopped, held := none, provisional := none })
      (fun h => by cases h))
    (fun _ => .refl s)).trans
    (.keepLane _ l (fun n => { n with query := none }) (fun _ => ⟨rfl, rfl⟩))

theorem Eases.leaveSiteFull (s : State) (l : LaneNo) : Eases asks s (s.leaveSiteFull l) :=
  .siteFull s _ List.filter_sublist

theorem State.leaveSiteFull_list (s : State) (l : LaneNo) : l ∉ (s.leaveSiteFull l).siteFull := by
  simp [State.leaveSiteFull]

theorem Eases.joinSiteFull (hl : s.Free l) (ha : asks l) : Eases asks s (s.joinSiteFull l) := by
  have hlist : (s.joinSiteFull l).siteFull = s.siteFull ++ [l] := by
    have hc : s.siteFull.contains l = false := by simpa using hl.list
    simp only [State.joinSiteFull, hc]
    exact (State.enterState_same _ l _ _) .siteFull (by decide)
  have hsame : SameBut [.lanes, .siteFull, .reports] s (s.joinSiteFull l) := by
    refine SameBut.then (qs := [.lanes, .reports]) ?_ (State.enterState_same _ l _ _)
    split
    · exact .refl s _
    · exact (s.siteFull_same _).mono (by decide)
  refine .of_lane hl hsame (fun m hm => ?_) (fun m _ => hsame.slot m)
    (fun _ => ⟨ha, State.enterState_state _ _ _ _⟩) (fun h => absurd (hsame.slot l ▸ h) hl.slot) (fun m hm h => ?_)
    (fun hn => ?_)
  · refine (State.enterState_others _ hm _ _).trans ?_
    split
    · rfl
    · rfl
  · rw [hlist] at h
    simpa [hm] using h
  · rw [hlist]
    exact hn.append (List.nodup_singleton l) (by simpa using hl.list)

/-- A creation puts a visit in ADMITTED into the table (R147). -/
theorem Eases.createVisit (hs : s.Ordered) (hl : s.Free l) (ha : asks l) (a : Admitted) :
    Eases asks s (s.createVisit l a).1 := by
  unfold State.createVisit
  split
  · exact .refuseVehicle hl _ _
  · split
    · exact .joinSiteFull hl ha
    · have h : Eases (fun _ => False) s (s.onVisits (fun t =>
          { t with
            records := insertVisit
              (a.visit (s.ret.visits.freeNumber s.ret.visits.records.length s.ret.visits.counter) l s.ret.clock)
              t.records
            counter := succVisit (s.ret.visits.freeNumber s.ret.visits.records.length s.ret.visits.counter) })) := by
        refine .onVisits s _ (fun v hv ho => ?_)
        rcases List.mem_cons.mp ((insertVisit_perm _ _).subset hv) with rfl | hv
        · exact ho.elim nofun nofun
        · exact ⟨v, hv, rfl, ho⟩
      exact (h.mono (fun _ h => h.elim)).then hs (fun ht => .enterAwaitBridge ht (h.free id hl) _)

theorem Eases.decideByPermit (hs : s.Ordered) (hl : s.Free l) (ha : asks l) (tag : Word) (k : StreamNo) (p : Permit) :
    Eases asks s (s.decideByPermit l tag k p).1 := by
  unfold State.decideByPermit
  split
  · exact .refuseVehicle hl tag _
  · exact .createVisit hs hl ha _

theorem Eases.cacheStep (hs : s.Ordered) (hl : s.Free l) (ha : asks l) (tag : Word) (k : StreamNo) :
    Eases asks s (s.cacheStep l tag k).1 := by
  unfold State.cacheStep
  split
  · exact .sendQuery hl ha tag k
  · split
    · exact .refl s
    · next i _ _ p _ =>
      have h : Eases (fun _ => False) s (s.onAdm (fun a => a.touched i)) := .onAdm s _ (fun _ h => h)
      exact (h.mono (fun _ h => h.elim)).then hs (fun ht => .decideByPermit ht (h.free id hl) ha tag k p)

theorem Eases.streamStep (hs : s.Ordered) (hl : s.Free l) (ha : asks l) (tag : Word) (k : StreamNo) :
    Eases asks s (s.streamStep l tag k).1 := by
  unfold State.streamStep
  split
  · exact .cacheStep hs hl ha tag k
  · exact .refuseVehicle hl tag _

theorem Eases.decideAdmission (hs : s.Ordered) (hl : s.Free l) (ha : asks l) (tag : Word) (k : StreamNo) :
    Eases asks s (s.decideAdmission l tag k).1 := by
  unfold State.decideAdmission
  repeat' split
  · exact .refuseVehicle hl tag _
  · exact .joinSiteFull hl ha
  · exact .streamStep hs hl ha tag k

theorem Eases.resume (hs : s.Ordered) (hl : s.Free l) (ha : asks l) : Eases asks s (s.resume l).1 := by
  unfold State.resume
  split
  · exact .refl s
  · exact .streamStep hs hl ha _ _

/-! ### Visits -/

/-- The service of the SITE_FULL list: each of its lanes is free once it has left the list (R153). -/
theorem Eases.serveSiteFull {xs : List LaneNo} (hs : s.Ordered) (hd : xs.Nodup) (ha : ∀ l ∈ xs, asks l)
    (hx : ∀ l ∈ xs, s.Unweighed l ∧ (s.slot l).state ≠ .active) : Eases asks s (s.serveSiteFull xs) := by
  induction xs generalizing s with
  | nil => exact .refl s
  | cons l rest ih =>
    have hleft : Eases (· = l) s (s.leaveSiteFull l) := .leaveSiteFull s l
    obtain ⟨hw, hq⟩ := hx l List.mem_cons_self
    have hfree : (s.leaveSiteFull l).Free l := ⟨⟨s.leaveSiteFull_list l, hq⟩, hw⟩
    have h : Eases (· = l) s ((s.leaveSiteFull l).resume l).1 := hleft.then hs (fun ht => .resume ht hfree rfl)
    have h' : Eases asks s ((s.leaveSiteFull l).resume l).1 := h.mono (fun m e => e ▸ ha l List.mem_cons_self)
    unfold State.serveSiteFull
    refine .ite (fun _ => h') (fun _ => ?_)
    refine h'.then hs (fun ht => ih ht (List.nodup_cons.mp hd).2 (fun m hm => ha m (List.mem_cons_of_mem _ hm))
      (fun m hm => ?_))
    obtain ⟨hmw, hmq⟩ := hx m (List.mem_cons_of_mem _ hm)
    refine ⟨h.unweighed hmw, fun hk => ?_⟩
    rcases h.asking m hk with ⟨e, _⟩ | ⟨hk, _⟩
    · exact (List.nodup_cons.mp hd).1 (e ▸ hm)
    · exact hmq hk

theorem Eases.serveFreed (hs : s.Ordered) (ha : ∀ m ∈ s.siteFull, asks m) : Eases asks s s.serveFreed := by
  refine .ite (fun _ => .refl s) (fun _ => .serveSiteFull hs hs.nodup ha (fun m hm => ?_))
  have hst := hs.listed m hm
  refine ⟨hs.unweighed (by rw [hst]; exact fun h => h.elim nofun nofun), fun hk => ?_⟩
  rw [hs.asking m hk] at hst
  cases hst

theorem Eases.without (s : State) (n : Nat) : Eases asks s (s.onVisits (fun t => t.without n)) :=
  .onVisits s _ (fun v hv ho => ⟨v, (List.mem_filter.mp hv).1, rfl, ho⟩)

theorem Eases.removeVisit (hs : s.Ordered) (ha : ∀ m ∈ s.siteFull, asks m) (n : Nat) :
    Eases asks s (s.removeVisit n) :=
  .ite (fun _ => (Eases.without s n).then hs (fun ht => .serveFreed ht ha)) (fun _ => .refl s)

theorem Eases.clearCurrentLane (s : State) (n : Nat) : Eases asks s (s.clearCurrentLane n) :=
  .onVisit s n _ (fun _ h => ⟨h, id⟩)

theorem Eases.giveUpVisit (hs : s.Ordered) (ha : ∀ m ∈ s.siteFull, asks m) (l : LaneNo) :
    Eases asks s (s.giveUpVisit l) := by
  unfold State.giveUpVisit
  split
  · exact .refl s
  · exact .ite (fun _ => .removeVisit hs ha _) (fun _ => .clearCurrentLane s _)

/-- The lanes that a service may resume are others than a silent one. -/
theorem State.Silent.others (h : s.Silent l) : ∀ m ∈ s.siteFull, m ≠ l := fun _ hm e => h.list (e ▸ hm)

end Sys2Proof.Machine
end

-- ==== Proofs of family 03: tickets and the ends of movements around captures ====
section
/-! The issue of tickets and the ends of a lane's movements disturb no capture; a drain takes the visit whose ticket joined
the order out of its weighing state. -/

namespace Sys2Proof.Machine

variable {asks : LaneNo → Prop} {s t u : State} {l : LaneNo}

/-! ### Tickets -/

/-- An outbound visit that is TICKETED becomes EXITING as its lane goes to LEAVING (R150). -/
def State.exitVisit (s : State) (l : LaneNo) : State :=
  match (s.lane l).visit with
  | none => s
  | some n =>
    if (s.config l).role = .outbound then
      s.onVisit n (fun v => if v.state = .ticketed then { v with state := .exiting } else v)
    else s

theorem State.enterLeaving_eq (s : State) (l : LaneNo) :
    s.enterLeaving l = ((s.raiseRear l).exitVisit l).enterState l .leaving none := rfl

theorem Eases.exitVisit (s : State) (l : LaneNo) : Eases asks s (s.exitVisit l) := by
  unfold State.exitVisit
  split
  · exact .refl s
  · refine .ite (fun _ => .onVisit s _ _ (fun v hv => ?_)) (fun _ => .refl s)
    split
    · exact ⟨hv, fun h => h.elim nofun nofun⟩
    · exact ⟨hv, id⟩

theorem Eases.enterLeaving (hl : s.Free l) : Eases asks s (s.enterLeaving l) := by
  rw [State.enterLeaving_eq]
  have h : Eases (fun _ => False) s ((s.raiseRear l).exitVisit l) := (Eases.raiseRear s l).trans (.exitVisit _ l)
  exact (h.mono (fun _ h => h.elim)).trans (.enterState (h.free id hl) _ _)

theorem Eases.freeWaiting (hs : s.Ordered) (n : Nat) : Eases asks s (s.freeWaiting n) := by
  unfold State.freeWaiting
  split
  · exact .refl s
  · next l hf =>
    have hst : (s.lane l).state = .ticketWait := by
      have := List.find?_some hf
      simp only [Bool.and_eq_true, beq_iff_eq] at this
      exact this.1
    exact .enterLeaving (hs.free (by rw [hst]; decide) (by rw [hst]; decide) (by rw [hst]; decide) (by rw [hst]; decide))

theorem Eases.testHigh (s : State) : Eases asks s s.testHigh := .of_same s.testHigh_same

theorem Eases.deductFor (s : State) (b : TicketBody) : Eases asks s (s.deductFor b) :=
  .ite (fun _ => .refl s) (fun _ => .onAdm s _ (fun _ h => h))

theorem Eases.refreshTare (s : State) (v : Visit) (b : TicketBody) (r : WeighingRecord) :
    Eases asks s (s.refreshTare v b r) := .ite (fun _ => .of_same (s.placeTare_same _)) (fun _ => .refl s)

theorem Eases.order (s : State) (f : VisitStore → VisitStore) (h : ∀ x, (f x).records = x.records) :
    Eases asks s (s.onVisits f) := .onVisits s f (fun v hv ho => ⟨v, h _ ▸ hv, rfl, ho⟩)

/-- The state in which an issued ticket's visit is TICKETED, before its lane leaves. -/
def State.ticketed (s : State) (v : Visit) (body : TicketBody) : State :=
  (((s.onJournal (fun j => j.add (s.issuedTicket body))).deductFor body).onVisits
    (fun x => { x with order := x.order.filter (· ≠ v.number) })).onVisit v.number
    (fun x => { x with state := .ticketed, pending := none, ticketNumber := some (s.issuedTicket body).number })

theorem State.issue_eq (s : State) (v : Visit) (body : TicketBody) :
    ∃ r : Report, s.issue v body = (((s.ticketed v body).report r).freeWaiting v.number).testHigh := ⟨_, rfl⟩

theorem Eases.ticketed (s : State) (v : Visit) (body : TicketBody) : Eases asks s (s.ticketed v body) := by
  have h : Eases asks s (s.onJournal (fun j => j.add (s.issuedTicket body))) := .of_same (s.onJournal_same _)
  unfold State.ticketed
  refine Eases.trans ?_ (.onVisit _ _ _ (fun _ hv => ⟨hv, fun h => h.elim nofun nofun⟩))
  exact Eases.trans (h.trans (.deductFor _ body)) (.order _ _ (fun _ => rfl))

/-- What follows the TICKETED of a visit. -/
theorem Eases.afterTicketed (hs : s.Ordered) (r : Report) (n : Nat) :
    Eases asks s ((s.report r).freeWaiting n).testHigh :=
  ((Eases.report s r).then hs (fun ht => .freeWaiting ht n)).trans (.testHigh _)

theorem Eases.issue (hs : s.Ordered) (v : Visit) (body : TicketBody) : Eases asks s (s.issue v body) := by
  obtain ⟨r, h⟩ := s.issue_eq v body
  rw [h]
  exact (Eases.ticketed s v body).then hs (fun ht => .afterTicketed ht r _)

theorem Eases.drainAtMost (k : Nat) (hs : s.Ordered) : Eases asks s (s.drainAtMost k) := by
  induction k generalizing s with
  | zero => exact .refl s
  | succ k ih =>
    have hskip : Eases asks s ((s.onVisits (fun x => { x with order := x.order.tail })).drainAtMost k) :=
      (Eases.order s (fun x => { x with order := x.order.tail }) (fun _ => rfl)).then hs ih
    unfold State.drainAtMost
    split
    · exact .refl s
    · refine .ite (fun _ => .refl s) (fun _ => .ite (fun _ => .refl s) (fun _ => .ite (fun _ => ?_) (fun _ => ?_)))
      · split
        · exact hskip
        · split
          · exact hskip
          · exact (Eases.issue hs _ _).then hs ih
      · exact .of_same s.reportFull_same

theorem Eases.drain (hs : s.Ordered) : Eases asks s s.drain := .drainAtMost _ hs

/-! ### The visit whose ticket joins the order (R168) -/

/-- The visits of the number stand in the pending-ticket order with their tickets. -/
def State.Queued (s : State) (n : Nat) : Prop :=
  n ∈ s.ret.visits.order ∧ ∀ v ∈ s.ret.visits.records, v.number = n → v.pending.isSome = true

theorem State.Queued.of_visits {n : Nat} (h : s.Queued n) (hv : t.ret.visits = s.ret.visits) : t.Queued n := by
  unfold State.Queued
  rw [hv]
  exact h

/-- A change of the visits of a number that keeps their tickets pending. -/
theorem State.Queued.onVisit {n m : Nat} {f : Visit → Visit} (h : s.Queued n)
    (hf : m = n → ∀ v, (f v).pending = v.pending) (hn : ∀ v, v.number = m → (f v).number = m) :
    (s.onVisit m f).Queued n := by
  refine ⟨h.1, fun v hv hvn => ?_⟩
  obtain ⟨w, hw, rfl⟩ := State.mem_onVisit hv
  by_cases hwm : w.number = m
  · rw [if_pos hwm] at hvn ⊢
    have hmn : m = n := (hn w hwm).symm.trans hvn
    rw [hf hmn]
    exact h.2 w hw (hwm.trans hmn)
  · rw [if_neg hwm] at hvn ⊢
    exact h.2 w hw hvn

theorem State.Queued.enterLeaving {n : Nat} (h : s.Queued n) (l : LaneNo) : (s.enterLeaving l).Queued n := by
  have hr : (s.raiseRear l).ret.visits = s.ret.visits := by
    unfold State.raiseRear
    split
    · rfl
    · rfl
  have he : ((s.raiseRear l).exitVisit l).Queued n := by
    unfold State.exitVisit
    split
    · exact h.of_visits hr
    · split
      · refine (h.of_visits hr).onVisit (fun _ v => ?_) (fun v hv => ?_)
        · split
          · rfl
          · rfl
        · split
          · exact hv
          · exact hv
      · exact h.of_visits hr
  exact he.of_visits ((State.enterState_same _ l _ _) .visits (by decide))

theorem State.Queued.freeWaiting {n : Nat} (h : s.Queued n) (m : Nat) : (s.freeWaiting m).Queued n := by
  unfold State.freeWaiting
  split
  · exact h
  · exact h.enterLeaving _

/-- The issue for another visit leaves a visit in the order. -/
theorem State.Queued.issue {n : Nat} (h : s.Queued n) {v : Visit} (hv : v.number ≠ n) (body : TicketBody) :
    (s.issue v body).Queued n := by
  obtain ⟨r, he⟩ := s.issue_eq v body
  have hd : ((s.onJournal (fun j => j.add (s.issuedTicket body))).deductFor body).ret.visits = s.ret.visits := by
    unfold State.deductFor
    split
    · rfl
    · rfl
  have ho : (((s.onJournal (fun j => j.add (s.issuedTicket body))).deductFor body).onVisits
      (fun x => { x with order := x.order.filter (· ≠ v.number) })).Queued n := by
    obtain ⟨hm, hp⟩ := h.of_visits hd
    exact ⟨List.mem_filter.mpr ⟨hm, by simpa using Ne.symm hv⟩, hp⟩
  have ht : (s.ticketed v body).Queued n := ho.onVisit (fun e => absurd e hv) (fun _ hx => hx)
  rw [he]
  exact ((ht.of_visits (t := (s.ticketed v body).report r) rfl).freeWaiting _).of_visits
    ((State.testHigh_same _) .visits (by decide))

/-- A drain leaves a visit in the order, or has issued its ticket (R168, R169). -/
theorem State.Queued.drainAtMost {n : Nat} (k : Nat) (hs : s.Ordered) (h : s.Queued n ∨ s.Settled n) :
    (s.drainAtMost k).Queued n ∨ (s.drainAtMost k).Settled n := by
  rcases h with h | h
  case inr => exact .inr ((Eases.drainAtMost (asks := fun _ => False) k hs).settled h)
  induction k generalizing s with
  | zero => exact .inl h
  | succ k ih =>
    have skip : ∀ m rest, s.ret.visits.order = m :: rest → m ≠ n →
        ((s.onVisits (fun x => { x with order := x.order.tail })).drainAtMost k).Queued n ∨
          ((s.onVisits (fun x => { x with order := x.order.tail })).drainAtMost k).Settled n := by
      intro m rest ho hm
      have hord : (s.onVisits (fun x => { x with order := x.order.tail })).Ordered :=
        (Eases.order (asks := fun _ => False) s (fun x => { x with order := x.order.tail }) (fun _ => rfl)).ordered hs
      refine ih hord ⟨?_, h.2⟩
      have hmem := h.1
      rw [ho] at hmem
      rw [State.onVisits_visits, ho]
      exact (List.mem_cons.mp hmem).resolve_left (Ne.symm hm)
    have settled : ∀ t : State, Eases (fun _ => False) s t → t.Settled n → (t.drainAtMost k).Settled n :=
      fun t ht hn => (Eases.drainAtMost (asks := fun _ => False) k (ht.ordered hs)).settled hn
    unfold State.drainAtMost
    split
    · exact .inl h
    · next m rest ho =>
      split
      · exact .inl h
      · split
        · exact .inl h
        · split
          · split
            · next hnone =>
              by_cases hm : m = n
              · refine .inr (settled _ (.order s _ (fun _ => rfl)) (fun v hv hvn => ?_))
                have := List.find?_eq_none.mp hnone v hv
                simp [hvn, hm] at this
              · exact skip m rest ho hm
            · next v hfound =>
              have hvm : v.number = m := by simpa using List.find?_some hfound
              have hv : v ∈ s.ret.visits.records := List.mem_of_find?_eq_some hfound
              split
              · next hp =>
                refine skip m rest ho (fun e => ?_)
                have := h.2 v hv (hvm.trans e)
                rw [hp] at this
                cases this
              · next body _ =>
                by_cases hm : m = n
                · refine .inr (settled _ (.issue hs v body) ?_)
                  obtain ⟨r, he⟩ := s.issue_eq v body
                  have hord : (s.ticketed v body).Ordered := (Eases.ticketed (asks := fun _ => False) s v body).ordered hs
                  rw [he, hvm, hm]
                  refine (Eases.afterTicketed (asks := fun _ => False) hord r n).settled ?_
                  rw [← hm, ← hvm]
                  exact State.onVisit_settled _ _ _ (fun _ k => k.elim nofun nofun)
                · exact ih ((Eases.issue (asks := fun _ => False) hs v body).ordered hs)
                    (h.issue (by rw [hvm]; exact hm) body)
          · exact .inl (h.of_visits (s.reportFull_same .visits (by decide)))

/-- The visits of the number hold their ticket, and the number has joined the order. -/
def State.joined (s : State) (n : Nat) (body : TicketBody) : State :=
  (s.onVisit n (fun v => { v with pending := some body })).onVisits (fun t => { t with order := t.order ++ [n] })

theorem State.joinAndDrain_eq (s : State) (n : Nat) (body : TicketBody) :
    s.joinAndDrain n body =
      if (s.joined n body).drain.ret.visits.order.contains n then
        (s.joined n body).drain.onVisit n (fun v => { v with state := .ticketPending })
      else (s.joined n body).drain := rfl

theorem Eases.joined (s : State) (n : Nat) (body : TicketBody) : Eases asks s (s.joined n body) :=
  (Eases.onVisit s n (fun v => { v with pending := some body }) (fun _ hv => ⟨hv, id⟩)).trans
    (.order _ _ (fun _ => rfl))

theorem State.joined_queued (s : State) (n : Nat) (body : TicketBody) : (s.joined n body).Queued n := by
  refine ⟨List.mem_append_right _ (List.mem_singleton_self n), fun v hv hn => ?_⟩
  obtain ⟨w, _, rfl⟩ := State.mem_onVisit (s := s) hv
  by_cases hw : w.number = n
  · rw [if_pos hw]
    rfl
  · rw [if_neg hw] at hn
    exact absurd hn hw

theorem Eases.joinAndDrain (hs : s.Ordered) (n : Nat) (body : TicketBody) : Eases asks s (s.joinAndDrain n body) := by
  have h : Eases asks s (s.joined n body).drain := (Eases.joined s n body).then hs (fun ht => .drain ht)
  rw [State.joinAndDrain_eq]
  exact .ite (fun _ => h.trans (.onVisit _ n _ (fun _ hv => ⟨hv, fun h => h.elim nofun nofun⟩))) (fun _ => h)

/-- The visit of a computed ticket ends TICKETED or TICKET_PENDING, in no weighing state (R168, R169). -/
theorem State.joinAndDrain_settled (hs : s.Ordered) (n : Nat) (body : TicketBody) :
    (s.joinAndDrain n body).Settled n := by
  have hord : (s.joined n body).Ordered := (Eases.joined (asks := fun _ => False) s n body).ordered hs
  rw [State.joinAndDrain_eq]
  split
  · exact State.onVisit_settled _ n _ (fun _ h => h.elim nofun nofun)
  · next hc =>
    refine (State.Queued.drainAtMost _ hord (.inl (s.joined_queued n body))).resolve_left (fun hq => hc ?_)
    exact List.contains_iff_mem.mpr hq.1

/-! ### The ends of a lane's movements -/

theorem Eases.leaveOrWait (hl : s.Free l) (n : Nat) : Eases asks s (s.leaveOrWait l n) :=
  .ite (fun _ => .ite (fun _ => .enterState hl _ _) (fun _ => .enterLeaving hl)) (fun _ => .refl s)

theorem Eases.endLeaving (hs : s.Ordered) (hl : s.Free l) : Eases (· ≠ l) s (s.endLeaving l) := by
  have h : Eases (· ≠ l) s (s.releaseGrant l) := .releaseGrant hs hl.unweighed
  exact h.trans (.comeToIdle (h.free (fun k => k rfl) hl))

theorem Eases.passRear (hs : s.Ordered) (hl : s.Free l) : Eases (· ≠ l) s (s.passRear l) := by
  have h : Eases (· ≠ l) s ((s.lowerRear l).clearVehicle l) :=
    (Eases.lowerRear s l).trans (.clearVehicle ((Eases.lowerRear (asks := (· ≠ l)) s l).unweighed hl.unweighed))
  have hq := (h.free (fun k => k rfl) hl).toSilent.others
  unfold State.passRear
  simp only
  split
  · exact h
  · exact .ite (fun _ => h.then hs (fun ht => .removeVisit ht hq _)) (fun _ => h.trans (.clearCurrentLane _ _))

theorem Eases.endBackout (hs : s.Ordered) (hl : s.Free l) : Eases (· ≠ l) s (s.endBackout l) := by
  have h1 : Eases (· ≠ l) s ((s.lowerFront l).releaseGrant l) :=
    (Eases.lowerFront s l).then hs
      (fun ht => .releaseGrant ht ((Eases.lowerFront (asks := (· ≠ l)) s l).unweighed hl.unweighed))
  have h2 : Eases (· ≠ l) s (((s.lowerFront l).releaseGrant l).giveUpVisit l) :=
    h1.then hs (fun ht => .giveUpVisit ht (h1.free (fun k => k rfl) hl).toSilent.others l)
  have finish : ∀ u, Eases (· ≠ l) s u → Eases (· ≠ l) s ((u.clearVehicle l).comeToIdle l) := fun u hu => by
    have hc := hu.trans (.clearVehicle (hu.unweighed hl.unweighed))
    exact hc.trans (.comeToIdle (hc.free (fun k => k rfl) hl))
  unfold State.endBackout
  simp only
  refine finish _ ?_
  split
  · exact .ite (fun _ => h2.trans (.recordRefusal _ _ l _)) (fun _ => h2)
  · exact h2

theorem Eases.endPassing (hs : s.Ordered) (hl : s.Free l) : Eases (· ≠ l) s (s.endPassing l) := by
  have h : Eases (· ≠ l) s ((s.lowerFront l).clearVehicle l) :=
    (Eases.lowerFront s l).trans (.clearVehicle ((Eases.lowerFront (asks := (· ≠ l)) s l).unweighed hl.unweighed))
  have finish : ∀ u, Eases (· ≠ l) s u → Eases (· ≠ l) s (u.enterState l .idle none) :=
    fun u hu => hu.trans (.enterState (hu.free (fun k => k rfl) hl) _ _)
  unfold State.endPassing
  simp only
  refine finish _ ?_
  split
  · exact h
  · exact h.then hs (fun ht => .removeVisit ht (h.free (fun k => k rfl) hl).toSilent.others _)

/-- The lane gives up its grant, its visit and its vehicle, and goes to IDLE (R80, R87). -/
theorem Eases.giveUp (hs : s.Ordered) (hl : s.Free l) :
    Eases (· ≠ l) s ((((s.releaseGrant l).giveUpVisit l).clearVehicle l).enterState l .idle none) := by
  have h1 : Eases (· ≠ l) s (s.releaseGrant l) := .releaseGrant hs hl.unweighed
  have h2 := h1.then hs (fun ht => .giveUpVisit ht (h1.free (fun k => k rfl) hl).toSilent.others l)
  have h3 := h2.trans (.clearVehicle (h2.unweighed hl.unweighed))
  exact h3.trans (.enterState (h3.free (fun k => k rfl) hl) _ _)

theorem Eases.entryExpired (hs : s.Ordered) (hl : s.Free l) : Eases (· ≠ l) s (s.entryExpired l) := by
  refine .ite (fun _ => ?_) (fun _ => .keepLane s l _ (fun _ => ⟨rfl, rfl⟩))
  have h : Eases (· ≠ l) s ((s.lowerFront l).onLane l (fun n => { n with entryTimer := .stopped })) :=
    (Eases.lowerFront s l).trans (.keepLane _ l _ (fun _ => ⟨rfl, rfl⟩))
  exact h.then hs (fun ht => .giveUp ht (h.free (fun k => k rfl) hl))

/-- The lane clears its vehicle and goes to IDLE. -/
theorem Eases.idle (hl : s.Free l) : Eases asks s ((s.clearVehicle l).enterState l .idle none) := by
  have h : Eases (fun _ => False) s (s.clearVehicle l) := .clearVehicle hl.unweighed
  exact (h.mono (fun _ h => h.elim)).trans (.enterState (h.free id hl) _ _)

/-- The abandonment of a query leaves none ACTIVE (R135). -/
theorem State.abandonQuery_slot (s : State) (l : LaneNo) : ((s.abandonQuery l).slot l).state ≠ .active := by
  by_cases h : (s.slot l).state = .active
  · simp [State.abandonQuery, h]
  · simp [State.abandonQuery, h]

theorem Eases.leaveBeforeEntry (hs : s.Ordered) (l : LaneNo) : Eases (· ≠ l) s (s.leaveBeforeEntry l) := by
  have free : ∀ st : LaneState, (s.lane l).state = st → st ≠ .siteFull → st ≠ .admitting → st ≠ .weighing →
      st ≠ .takeoverPending → s.Free l := fun st h h1 h2 h3 h4 =>
    hs.free (h ▸ h1) (h ▸ h2) (h ▸ h3) (h ▸ h4)
  unfold State.leaveBeforeEntry
  split
  case h_1 h => exact .idle (free _ h (by decide) (by decide) (by decide) (by decide))
  case h_2 h => exact .idle (free _ h (by decide) (by decide) (by decide) (by decide))
  case h_3 h => exact .idle (free _ h (by decide) (by decide) (by decide) (by decide))
  case h_4 h =>
    have ha : Eases (· ≠ l) s (s.abandonQuery l) := .abandonQuery s l
    refine ha.trans (.idle ⟨⟨fun hm => ?_, s.abandonQuery_slot l⟩, ha.unweighed (hs.unweighed ?_)⟩)
    · rcases ha.listed l hm with ⟨hn, _⟩ | ⟨hm, _⟩
      · exact hn rfl
      · rw [hs.listed l hm] at h
        cases h
    · rw [h]
      exact fun k => k.elim nofun nofun
  case h_5 h =>
    refine (Eases.leaveSiteFull s l).trans (.idle ⟨⟨s.leaveSiteFull_list l, fun hk => ?_⟩, hs.unweighed ?_⟩)
    · rw [hs.asking l hk] at h
      cases h
    · rw [h]
      exact fun k => k.elim nofun nofun
  case h_6 h =>
    have hw : Eases (· ≠ l) s (s.withdrawRequest l) := .withdrawRequest s l
    exact hw.then hs (fun ht => .giveUp ht
      (hw.free (fun k => k rfl) (free _ h (by decide) (by decide) (by decide) (by decide))))
  case h_7 => exact .refl s

end Sys2Proof.Machine
end

-- ==== Proofs of family 03: captures from start to end ====
section
/-! Captures start, end and are cancelled (R43, R46, R50, R52 to R54), and the rules of the lanes around them: each keeps
the captures, their lanes and the weighing visits together (O9). -/

namespace Sys2Proof.Machine

variable {asks : LaneNo → Prop} {s t u : State} {l : LaneNo} {b : BridgeNo}

/-- What every rule of an event keeps. -/
structure State.Steady (s : State) : Prop where
  ordered : s.Ordered
  visits  : s.VisitsHeld
  weighed : s.WeighedBut none

theorem Move.visitsHeld (h : Move s t) (hs : s.VisitsHeld) : t.VisitsHeld := by
  cases h with
  | visits f h => exact h hs
  | _ => exact hs

theorem Change.visitsHeld (h : Change s t) (hs : s.VisitsHeld) : t.VisitsHeld := by
  cases h with
  | move h => exact h.visitsHeld hs
  | retained f h => exact h.visits hs
  | _ => exact hs

theorem Changes.visitsHeld (h : Changes s t) (hs : s.VisitsHeld) : t.VisitsHeld :=
  h.keep (P := State.VisitsHeld) (fun m => m.visitsHeld) hs

theorem Eases.any (h : Eases asks s t) : Eases (fun _ => True) s t := h.mono (fun _ _ => trivial)

theorem State.Steady.changed (hs : s.Steady) (e : Eases (fun _ => True) s t) (c : Changes s t) : t.Steady :=
  ⟨e.ordered hs.ordered, c.visitsHeld hs.visits, e.weighedBut hs.weighed⟩

theorem State.Steady.moved (hs : s.Steady) (e : Eases (fun _ => True) s t) (m : Moves s t) : t.Steady :=
  hs.changed e m.changes

theorem State.Steady.of_rest (hs : s.Steady) (h : SameBut restParts s t) : t.Steady :=
  have e : Eases (fun _ => True) s t := .of_rest h
  ⟨e.ordered hs.ordered, by unfold State.VisitsHeld; rw [show _ = s.ret.visits from h .visits (by decide)]; exact hs.visits,
    e.weighedBut hs.weighed⟩

theorem State.Steady.of_same {ps : List Part} (hs : s.Steady) (h : SameBut ps s t)
    (hp : ps ⊆ restParts := by decide) : t.Steady := hs.of_rest (h.mono hp)

theorem State.Steady.seal (hs : s.Steady) : s.seal.Steady := hs.of_same s.seal_same

theorem State.Steady.forEach {α : Type} {f : α → State → State} (h : ∀ x s, s.Steady → (f x s).Steady) (xs : List α)
    (hs : s.Steady) : (Machine.forEach xs f s).Steady := by
  induction xs generalizing s with
  | nil => exact hs
  | cons x xs ih => exact ih (h x s hs)

/-! ### The capture of a bridge -/

theorem State.captured_of {c : Capture} (h : (s.bridge b).capture = some c) : s.captured b = some (c.visit, c.lane) := by
  simp [State.captured, h]

theorem Eases.onBridge (s : State) (b : BridgeNo) (f : Bridge → Bridge)
    (h : (f (s.bridge b)).capture.map (fun k => (k.visit, k.lane)) = s.captured b) : Eases asks s (s.onBridge b f) := by
  refine .of_captured (fun o => ?_) (fun l _ => .of_eq rfl rfl (fun _ hb => hb)) (fun v hv ho => ⟨v, hv, rfl, ho⟩) id
    (fun _ hm => .inr ⟨hm, rfl⟩) (fun _ hm => .inr ⟨hm, rfl⟩)
  unfold State.captured
  rw [State.onBridge_bridge_at]
  split
  · next hbo =>
    subst hbo
    exact h
  · rfl

theorem State.dropCapture_captured (s : State) (b o : BridgeNo) :
    (s.dropCapture b).captured o = if o = b then none else s.captured o := by
  unfold State.dropCapture State.captured
  rw [State.onBridge_bridge_at]
  by_cases h : b = o
  · simp [h]
  · simp [h, Ne.symm h]

theorem State.Ordered.dropCapture (hs : s.Ordered) (b : BridgeNo) : (s.dropCapture b).Ordered := by
  refine ⟨fun o n l h => ?_, hs.nodup, hs.listed, hs.asking⟩
  rw [State.dropCapture_captured] at h
  split at h
  · cases h
  · exact hs.captures o n l h

/-- A lane weighs nowhere once the capture of its bridge is gone. -/
theorem State.Ordered.unweighed_of_ended {n : Nat} (hs : s.Ordered) (hb : s.captured b = some (n, l))
    (ht : ∀ o, t.captured o = if o = b then none else s.captured o) : t.Unweighed l := by
  intro o m h
  rw [ht] at h
  split at h
  · cases h
  · next ho => exact ho (hs.captured_unique h hb)

theorem VisitState.returned_offScale (st : VisitState) : ¬ st.returned.onScale := by
  cases st <;> exact fun h => h.elim nofun nofun

/-- A capture ends and its visit returns from its weighing state (R50, R53, R54). -/
theorem Eases.endCapture {n : Nat} {m : LaneNo} (hb : s.captured b = some (n, m)) :
    Eases asks s ((s.dropCapture b).returnVisit n) where
  captured o k l h := by
    change (s.dropCapture b).captured o = some (k, l) at h
    rw [State.dropCapture_captured] at h
    split at h
    · cases h
    · exact ⟨h, .of_eq rfl rfl (fun _ hg => hg)⟩
  weighing v hv ho := by
    obtain ⟨w, hw, rfl⟩ := State.mem_onVisit hv
    by_cases hwn : w.number = n
    · rw [if_pos hwn] at ho
      exact absurd ho (VisitState.returned_offScale _)
    · rw [if_neg hwn] at ho ⊢
      refine ⟨⟨w, hw, rfl, ho⟩, fun o l hc _ => ?_⟩
      change (s.dropCapture b).captured o = some (w.number, l)
      rw [State.dropCapture_captured, if_neg]
      · exact hc
      · rintro rfl
        rw [hb] at hc
        exact hwn (congrArg Prod.fst (Option.some.inj hc)).symm
  nodup := id
  listed _ h := .inr ⟨h, rfl⟩
  asking _ h := .inr ⟨h, rfl⟩

/-! ### Cancellation (R52 to R54) -/

theorem State.cancelCaptureOn_captured (s : State) (b o : BridgeNo) (why : Cancellation) :
    (s.cancelCaptureOn b why).captured o = if o = b then none else s.captured o := by
  unfold State.cancelCaptureOn
  split
  · next h =>
    split
    · next ho => simp [ho, State.captured, h]
    · rfl
  · simp only
    split
    · exact s.dropCapture_captured b o
    · exact s.dropCapture_captured b o

theorem Eases.cancelCaptureOn (s : State) (b : BridgeNo) {why : Cancellation} (hw : why ≠ .takeover) :
    Eases asks s (s.cancelCaptureOn b why) := by
  unfold State.cancelCaptureOn
  split
  · exact .refl s
  · next c hc =>
    simp only [if_neg hw]
    have h : Eases asks s ((s.dropCapture b).returnVisit c.visit) := .endCapture (State.captured_of hc)
    exact h.trans (.keepLane _ c.lane (fun n => { n with lastReason := some (.cancelled why) }) (fun _ => ⟨rfl, rfl⟩))

theorem State.captureBridge_some (h : s.captureBridge l = some b) : ∃ n, s.captured b = some (n, l) := by
  have hf := List.find?_some h
  cases hc : (s.bridge b).capture with
  | none => simp [hc] at hf
  | some c =>
    have hl : c.lane = l := by simpa [hc] using hf
    exact ⟨c.visit, hl ▸ State.captured_of hc⟩

theorem State.captureBridge_none (h : s.captureBridge l = none) : s.Unweighed l := by
  intro b n hc
  have hm : b ∈ allFour := by fin_cases b <;> decide
  have hn := List.find?_eq_none.mp h b hm
  obtain ⟨c, hk, he⟩ := Option.map_eq_some_iff.mp hc
  have hl : c.lane = l := congrArg Prod.snd he
  simp [hk, hl] at hn

theorem Eases.cancelCaptureOf (s : State) (l : LaneNo) {why : Cancellation} (hw : why ≠ .takeover) :
    Eases asks s (s.cancelCaptureOf l why) := by
  unfold State.cancelCaptureOf
  split
  · exact .refl s
  · exact .cancelCaptureOn s _ hw

/-- A lane whose capture is cancelled weighs nowhere. -/
theorem State.Ordered.cancelCaptureOf_unweighed (hs : s.Ordered) (l : LaneNo) (why : Cancellation) :
    (s.cancelCaptureOf l why).Unweighed l := by
  unfold State.cancelCaptureOf
  split
  · next h => exact State.captureBridge_none h
  · next b h =>
    obtain ⟨n, hb⟩ := State.captureBridge_some h
    exact hs.unweighed_of_ended hb (fun o => s.cancelCaptureOn_captured b o why)

/-! ### Completion (R46 to R49) -/

theorem Eases.settleWeighing (hs : s.Ordered) (hl : s.Free l) (v : Visit) (r : WeighingRecord) :
    Eases asks s (s.settleWeighing l v r) := by
  have join : ∀ u : State, Eases (fun _ => False) s u → ∀ body,
      Eases asks s ((u.joinAndDrain v.number body).leaveOrWait l v.number) := fun u hu body => by
    have h := hu.then hs (fun ht => Eases.joinAndDrain ht v.number body)
    exact (h.mono (fun _ k => k.elim)).trans (.leaveOrWait (h.free id hl) _)
  unfold State.settleWeighing
  split
  · split
    · have h : Eases (fun _ => False) s (s.onVisit v.number (fun x => { x with state := .onSite, first := some r })) :=
        .onVisit s _ _ (fun _ hv => ⟨hv, fun k => k.elim nofun nofun⟩)
      have h' : Eases asks s (s.onVisit v.number (fun x => { x with state := .onSite, first := some r })) :=
        h.mono (fun _ k => k.elim)
      exact .ite (fun _ => h'.trans (.enterLeaving (h.free id hl))) (fun _ => h')
    · exact join (s.onVisit v.number (fun x => { x with singlePass := true, first := some r }))
        (.onVisit s _ _ (fun _ hv => ⟨hv, id⟩)) _
  · exact join _ (.refreshTare s v _ r) _
  · exact .refl s

/-- The visit of a completing capture leaves its weighing state (R48, R148). -/
theorem State.settleWeighing_settled {n : Nat} {v : Visit} (hs : s.Ordered) (hl : s.Free l) (hv : s.VisitsHeld)
    (hf : s.visitOf n = some v) (r : WeighingRecord) : (s.settleWeighing l v r).Settled n := by
  have hn : v.number = n := by simpa using List.find?_some hf
  subst hn
  have join : ∀ u : State, Eases (fun _ => False) s u → ∀ body,
      ((u.joinAndDrain v.number body).leaveOrWait l v.number).Settled v.number := fun u hu body => by
    have hu' := hu.ordered hs
    have hd := hu.trans (.joinAndDrain hu' v.number body)
    exact (Eases.leaveOrWait (asks := fun _ => True) (hd.free id hl) _).settled (State.joinAndDrain_settled hu' _ _)
  unfold State.settleWeighing
  split
  · split
    · have h : Eases (fun _ => False) s (s.onVisit v.number (fun x => { x with state := .onSite, first := some r })) :=
        .onVisit s _ _ (fun _ hv => ⟨hv, fun k => k.elim nofun nofun⟩)
      have hset : (s.onVisit v.number (fun x => { x with state := .onSite, first := some r })).Settled v.number :=
        State.onVisit_settled s _ _ (fun _ k => k.elim nofun nofun)
      simp only
      split
      · exact (Eases.enterLeaving (asks := fun _ => True) (h.free id hl)).settled hset
      · exact hset
    · exact join (s.onVisit v.number (fun x => { x with singlePass := true, first := some r }))
        (.onVisit s _ _ (fun _ hv => ⟨hv, id⟩)) _
  · exact join _ (.refreshTare s v _ r) _
  · next hin hout =>
    intro w hw hwn ho
    obtain rfl : w = v := List.inj_on_of_nodup_map hv.numbers hw (List.mem_of_find?_eq_some hf) hwn
    exact ho.elim hin hout

theorem State.Steady.completeCapture {c : Capture} (hs : s.Steady) (hc : (s.bridge b).capture = some c) :
    (s.completeCapture b c).Steady := by
  have hb := State.captured_of hc
  have hord := hs.ordered.dropCapture b
  obtain ⟨_, _, hst⟩ := hs.ordered.captures b c.visit c.lane hb
  have hl : (s.dropCapture b).Free c.lane :=
    ⟨hord.silent (fun h => by rw [show (s.lane c.lane).state = .siteFull from h] at hst; exact hst.elim nofun nofun)
      (fun h => by rw [show (s.lane c.lane).state = .admitting from h] at hst; exact hst.elim nofun nofun),
      hs.ordered.unweighed_of_ended hb (s.dropCapture_captured b)⟩
  have hw : (s.dropCapture b).WeighedBut (some c.visit) := by
    intro v hv ho hx
    obtain ⟨o, l, hk, hlv⟩ := hs.weighed v hv ho nofun
    refine ⟨o, l, ?_, hlv⟩
    rw [State.dropCapture_captured, if_neg]
    · exact hk
    · rintro rfl
      rw [hb] at hk
      exact hx (congrArg some (congrArg Prod.fst (Option.some.inj hk)))
  have hr : Eases (fun _ => False) (s.dropCapture b) ((s.dropCapture b).report
      (.captureDone { bridge := b, lane := c.lane, visit := c.visit, start := c.start, record := s.weighingRecord b })) :=
    .report _ _
  have hm := Moves.completeCapture s b c
  unfold State.completeCapture at hm ⊢
  simp only at hm ⊢
  split
  · next hnone =>
    refine ⟨hr.ordered hord, hs.visits, State.Settled.weighed (n := c.visit) (fun v hv hn => ?_) (hr.weighedBut hw)⟩
    have := List.find?_eq_none.mp hnone v hv
    simp [hn] at this
  · next v hfound =>
    rw [hfound] at hm
    have he := Eases.settleWeighing (asks := fun _ => True) (hr.ordered hord) (hr.free id hl) v (s.weighingRecord b)
    exact ⟨he.ordered (hr.ordered hord), hm.changes.visitsHeld hs.visits,
      (State.settleWeighing_settled (hr.ordered hord) (hr.free id hl) hs.visits hfound _).weighed
        (he.weighedBut (hr.weighedBut hw))⟩

theorem State.Steady.testCapture (hs : s.Steady) (b : BridgeNo) : (s.testCapture b).Steady := by
  have hm := Moves.testCapture s b
  unfold State.testCapture at hm ⊢
  split
  · exact hs
  · next c hc =>
    split
    · next why hwhy =>
      simp only [hc, hwhy] at hm
      exact hs.moved (.onBridge s b _ (State.captured_of hc).symm) hm
    · exact hs.completeCapture hc

/-! ### Starts (R43, R86, R91) -/

/-- A capture has started on the bridge for the lane and its visit, and the lane is in WEIGHING. -/
structure CaptureStarts (b : BridgeNo) (l : LaneNo) (n : Nat) (s t : State) : Prop where
  captured : ∀ o, t.captured o = if o = b then some (n, l) else s.captured o
  state    : (t.lane l).state = .weighing
  visit    : (t.lane l).visit = some n
  lanes    : ∀ m, m ≠ l → t.lane m = s.lane m
  records  : ∀ v ∈ t.ret.visits.records, v.number = n ∨ v ∈ s.ret.visits.records
  frame    : SameBut [.lanes, .bridges, .visits, .reports] s t

theorem State.canStartCapture_iff :
    s.canStartCapture l b = true ↔
      (s.grant b).holder = some l ∧ (s.bridge b).capture = none ∧ s.failing = false := by
  simp [State.canStartCapture, and_assoc]

/-- The record of a capture that starts now (R43). -/
def State.freshCapture (s : State) (l : LaneNo) (b : BridgeNo) (n : Nat) : Capture :=
  { visit := n, lane := l, start := s.ret.clock, timeout := (s.timing b).captureTimeout,
    deadline := (s.timing b).captureTimeout * 1000, blocking := .notReady }

/-- The capture record is made, and the visit goes into its weighing state (R43, R148). -/
def State.captureBegun (s : State) (l : LaneNo) (b : BridgeNo) (n : Nat) : State :=
  (s.onBridge b (fun x => { x with capture := some (s.freshCapture l b n) })).onVisit n
    (fun v => { v with state := v.state.weighing })

theorem State.startCapture_begun {n : Nat} (h : s.canStartCapture l b = true) :
    s.startCapture l b n = s.captureBegun l b n := if_pos h

theorem State.captureBegun_same (s : State) (l : LaneNo) (b : BridgeNo) (n : Nat) :
    SameBut [.bridges, .visits] s (s.captureBegun l b n) :=
  ((s.onBridge_same b _).mono (by decide)).then (State.onVisits_same _ _)

theorem State.captureBegun_captured (s : State) (l : LaneNo) (b : BridgeNo) (n : Nat) (o : BridgeNo) :
    (s.captureBegun l b n).captured o = if o = b then some (n, l) else s.captured o := by
  have h : (s.captureBegun l b n).bridge o =
      if b = o then { s.bridge o with capture := some (s.freshCapture l b n) } else s.bridge o :=
    s.onBridge_bridge_at b o (fun x => { x with capture := some (s.freshCapture l b n) })
  unfold State.captured
  rw [h]
  by_cases hbo : b = o
  · simp [hbo, State.freshCapture]
  · simp [hbo, Ne.symm hbo]

theorem State.captureBegun_starts {n : Nat} (hn : (s.lane l).visit = some n) :
    CaptureStarts b l n s ((s.captureBegun l b n).enterState l .weighing none) := by
  have hsame := s.captureBegun_same l b n
  have he := State.enterState_same (s.captureBegun l b n) l .weighing none
  refine ⟨fun o => (he.captured o).trans (s.captureBegun_captured l b n o), State.enterState_state _ _ _ _, ?_,
    fun m hm => (State.enterState_others _ hm _ _).trans (hsame.lane m), fun v hv => ?_, (hsame.mono (by decide)).then he⟩
  · by_cases hst : ((s.captureBegun l b n).lane l).state = .weighing
    · rw [State.enterState_stays hst, hsame.lane l]
      exact hn
    · rw [State.enterState_lane hst, hsame.lane l]
      exact hn
  · rw [show _ = (s.captureBegun l b n).ret.visits from he .visits (by decide)] at hv
    obtain ⟨w, hw, rfl⟩ := State.mem_onVisit hv
    by_cases hwn : w.number = n
    · exact .inl (by rw [if_pos hwn]; exact hwn)
    · exact .inr (by rw [if_neg hwn]; exact hw)

/-- The start of a capture for a free lane that holds the grant of its bridge. -/
theorem State.Steady.started {n : Nat} (hs : s.Steady) (hl : s.Free l) (hb : (s.config l).bridge = some b)
    (hg : (s.grant b).holder = some l) (hc : s.captured b = none) (h : CaptureStarts b l n s t) (hv : t.VisitsHeld) :
    t.Steady := by
  have hfull : t.siteFull = s.siteFull := h.frame .siteFull (by decide)
  refine ⟨⟨fun o k m ho => ?_, hfull ▸ hs.ordered.nodup, fun m hm => ?_, fun m hm => ?_⟩, hv, fun v hv ho _ => ?_⟩
  · rw [h.captured] at ho
    rw [h.frame.config m, h.frame.grant o]
    split at ho
    · next hob =>
      cases ho
      subst hob
      exact ⟨hb, hg, .inl h.state⟩
    · have hml : m ≠ l := fun e => hl.unweighed o k (e ▸ ho)
      rw [h.lanes m hml]
      exact hs.ordered.captures o k m ho
  · rw [hfull] at hm
    rw [h.lanes m (hl.toSilent.others m hm)]
    exact hs.ordered.listed m hm
  · rw [h.frame.slot m] at hm
    rw [h.lanes m (fun e => hl.slot (e ▸ hm))]
    exact hs.ordered.asking m hm
  · by_cases hvn : v.number = n
    · exact ⟨b, l, by rw [h.captured, if_pos rfl, hvn], hvn ▸ h.visit⟩
    · obtain ⟨o, m, hom, hmv⟩ := hs.weighed v ((h.records v hv).resolve_left hvn) ho nofun
      have hml : m ≠ l := fun e => hl.unweighed o _ (e ▸ hom)
      have hob : o ≠ b := fun e => by
        rw [e, hc] at hom
        cases hom
      exact ⟨o, m, by rw [h.captured, if_neg hob]; exact hom, by rw [h.lanes m hml]; exact hmv⟩

theorem State.Steady.startCapture {n : Nat} (hs : s.Steady) (hl : s.Free l) (hb : (s.config l).bridge = some b)
    (hn : (s.lane l).visit = some n) : ((s.startCapture l b n).enterState l .weighing none).Steady := by
  have hm := (Moves.startCapture s l b n).trans (.enterState _ l .weighing none)
  by_cases h : s.canStartCapture l b = true
  · obtain ⟨hg, hc, _⟩ := State.canStartCapture_iff.mp h
    rw [State.startCapture_begun h] at hm ⊢
    exact hs.started hl hb hg (by simp [State.captured, hc]) (State.captureBegun_starts hn)
      (hm.changes.visitsHeld hs.visits)
  · unfold State.startCapture at hm ⊢
    rw [if_neg h] at hm ⊢
    exact hs.moved (.enterState hl _ _) hm

theorem State.Steady.startOwnCapture (hs : s.Steady) (hl : s.Free l) :
    ((s.startOwnCapture l).enterState l .weighing none).Steady := by
  have hm := Moves.enterState s l .weighing none
  unfold State.startOwnCapture
  split
  · next hb hn => exact hs.startCapture hl hb hn
  · exact hs.moved (.enterState hl _ _) hm

theorem State.Steady.completeEntry (hs : s.Steady) (hst : (s.lane l).state = .entering) :
    (s.completeEntry l).Steady := by
  have hl : s.Free l := hs.ordered.free (by rw [hst]; decide) (by rw [hst]; decide) (by rw [hst]; decide)
    (by rw [hst]; decide)
  have he : Eases (fun _ => False) s ((s.onLane l (fun n => { n with entryTimer := .stopped })).lowerFront l) :=
    (Eases.keepLane s l (fun n => { n with entryTimer := .stopped }) (fun _ => ⟨rfl, rfl⟩)).trans (.lowerFront _ l)
  have hm : Moves s ((s.onLane l (fun n => { n with entryTimer := .stopped })).lowerFront l) :=
    (Moves.lane s l (fun n => { n with entryTimer := .stopped }) (fun _ => ⟨rfl, rfl, rfl⟩)).trans (.lowerFront _ l)
  have hu := hs.moved he.any hm
  have hul := he.free id hl
  unfold State.completeEntry
  simp only
  split
  · exact hu
  · split
    · refine hu.moved (.keepLane _ l _ (fun _ => ⟨rfl, rfl⟩)) (.one (.lane _ l _ (fun _ => ?_)))
      simp [Lane.signalOk, signalFor, hst]
    · exact hu.startOwnCapture hul

end Sys2Proof.Machine
end

-- ==== Proofs of family 03: takeovers, barriers and evaluations around captures ====
section
/-! A lane's entry to MANUAL cancels its capture and treats its visit (R95, R96, R152); a barrier fault cancels its capture
(R53, R94); an evaluation completes it (R46). Each keeps captures and weighing visits together (O9). -/

namespace Sys2Proof.Machine

variable {asks : LaneNo → Prop} {s t u : State} {l : LaneNo} {b : BridgeNo}

/-! ### The lane's own sequence stops (R95) -/

theorem Eases.stopSequence (s : State) (l : LaneNo) : Eases asks s (s.stopSequence l) := by
  have e1 : Eases asks s (if (s.lane l).state = .admitting then s.abandonQuery l else s) :=
    .ite (fun _ => .abandonQuery s l) (fun _ => .refl s)
  have e2 : ∀ t : State, Eases asks t (if (t.lane l).state = .siteFull then t.leaveSiteFull l else t) :=
    fun t => .ite (fun _ => .leaveSiteFull t l) (fun _ => .refl t)
  have e3 : ∀ t : State, Eases asks t (if (t.lane l).state = .awaitBridge then t.withdrawRequest l else t) :=
    fun t => .ite (fun _ => .withdrawRequest t l) (fun _ => .refl t)
  exact ((e1.trans (e2 _)).trans (e3 _)).trans
    (.keepLane _ l (fun n => { n with identityTimer := .stopped, entryTimer := .stopped }) (fun _ => ⟨rfl, rfl⟩))

/-- A lane whose sequence is stopped waits for nothing. -/
theorem State.Ordered.stopSequence_silent (hs : s.Ordered) (l : LaneNo) : (s.stopSequence l).Silent l := by
  have hsilent : ∀ t : State, t.Ordered → (t.slot l).state ≠ .active →
      (if (t.lane l).state = .siteFull then t.leaveSiteFull l else t).Silent l := fun t ht hq => by
    split
    · exact ⟨t.leaveSiteFull_list l, hq⟩
    · next h => exact ⟨fun hm => h (ht.listed l hm), hq⟩
  have rest : ∀ t : State, t.Silent l → ((if (t.lane l).state = .awaitBridge then t.withdrawRequest l else t).onLane l
      (fun n => { n with identityTimer := .stopped, entryTimer := .stopped })).Silent l := fun t ht => by
    have e : Eases (fun _ => False) t (if (t.lane l).state = .awaitBridge then t.withdrawRequest l else t) :=
      .ite (fun _ => .withdrawRequest t l) (fun _ => .refl t)
    exact (e.trans (.keepLane _ l (fun n => { n with identityTimer := .stopped, entryTimer := .stopped })
      (fun _ => ⟨rfl, rfl⟩))).silent id ht
  unfold State.stopSequence
  refine rest _ (hsilent _ ?_ ?_)
  · exact (Eases.ite (asks := fun _ => False) (fun _ => .abandonQuery s l) (fun _ => .refl s)).ordered hs
  · split
    · exact s.abandonQuery_slot l
    · next h => exact fun hk => h (hs.asking l hk)

/-! ### The entry to MANUAL (R96) -/

theorem Visit.takenOver_offScale {v w : Visit} (h : v.takenOver = some w) : w.number = v.number ∧ ¬ w.state.onScale := by
  unfold Visit.takenOver at h
  split at h
  all_goals cases h
  · exact ⟨rfl, fun k => k.elim nofun nofun⟩
  · next hst => exact ⟨rfl, fun k => by simp [VisitState.onScale, hst] at k⟩
  · next hst => exact ⟨rfl, fun k => by simp [VisitState.onScale, hst] at k⟩
  · next hst => exact ⟨rfl, fun k => by simp [VisitState.onScale, hst] at k⟩
  · exact ⟨rfl, fun k => k.elim nofun nofun⟩

/-- A removal settles the number. -/
theorem State.without_settled (s : State) (n : Nat) : (s.onVisits (fun t => t.without n)).Settled n := by
  intro v hv hn
  have := (List.mem_filter.mp hv).2
  simp [hn] at this

theorem State.settled_of_absent {n : Nat} (h : s.visitOf n = none) : s.Settled n := by
  intro v hv hn
  have := List.find?_eq_none.mp h v hv
  simp [hn] at this

theorem Eases.treatTakenOver (hs : s.Ordered) (hq : ∀ m ∈ s.siteFull, asks m) (n : Nat) :
    Eases asks s (s.treatTakenOver n) := by
  unfold State.treatTakenOver
  split
  · exact .refl s
  · next v hv =>
    split
    · exact .removeVisit hs hq n
    · next w hw =>
      obtain ⟨hn, ho⟩ := Visit.takenOver_offScale hw
      exact .onVisit s n _ (fun _ _ => ⟨hn.trans (State.visitOf_number hv), fun k => absurd k ho⟩)

/-- A visit treated at an entry to MANUAL is in no weighing state (R152). -/
theorem State.treatTakenOver_settled (hs : s.Ordered) (n : Nat) : (s.treatTakenOver n).Settled n := by
  unfold State.treatTakenOver
  split
  · next h => exact State.settled_of_absent h
  · next v hv =>
    split
    · unfold State.removeVisit
      rw [if_pos (by rw [hv]; rfl)]
      have h : Eases (fun _ => True) s (s.onVisits (fun t => t.without n)) := .without s n
      exact (Eases.serveFreed (asks := fun _ => True) (h.ordered hs) (fun _ _ => trivial)).settled (s.without_settled n)
    · next w hw => exact State.onVisit_settled s n _ (fun _ => (Visit.takenOver_offScale hw).2)

/-- The captures after a takeover's cancellation: those of the other lanes. -/
theorem State.Ordered.cancelled_captured (hs : s.Ordered) {o : BridgeNo} {n : Nat} {m : LaneNo} :
    (s.cancelCaptureOf l .takeover).captured o = some (n, m) ↔ s.captured o = some (n, m) ∧ m ≠ l := by
  unfold State.cancelCaptureOf
  split
  · next h =>
    have hw := State.captureBridge_none h
    exact ⟨fun k => ⟨k, fun e => hw o n (e ▸ k)⟩, fun k => k.1⟩
  · next b h =>
    obtain ⟨i, hb⟩ := State.captureBridge_some h
    rw [State.cancelCaptureOn_captured]
    constructor
    · intro k
      split at k
      · cases k
      · next ho => exact ⟨k, fun e => ho (hs.captured_unique (e ▸ k) hb)⟩
    · rintro ⟨k, hm⟩
      rw [if_neg]
      · exact k
      · rintro rfl
        rw [hb] at k
        exact hm (congrArg Prod.snd (Option.some.inj k)).symm

/-- A takeover's cancellation leaves the states and visits of all lanes, and the visits themselves. -/
theorem State.cancelled_kept (s : State) (l m : LaneNo) :
    ((s.cancelCaptureOf l .takeover).lane m).state = (s.lane m).state ∧
      ((s.cancelCaptureOf l .takeover).lane m).visit = (s.lane m).visit ∧
      (s.cancelCaptureOf l .takeover).ret.visits = s.ret.visits := by
  unfold State.cancelCaptureOf State.cancelCaptureOn
  split
  · exact ⟨rfl, rfl, rfl⟩
  · split
    · exact ⟨rfl, rfl, rfl⟩
    · next c _ =>
      rw [if_pos rfl]
      refine ⟨?_, ?_, rfl⟩
      · rw [State.onLane_lane_at]
        split <;> rfl
      · rw [State.onLane_lane_at]
        split <;> rfl

theorem State.Ordered.cancelled (hs : s.Ordered) (l : LaneNo) : (s.cancelCaptureOf l .takeover).Ordered := by
  have frame := (StopsServing.cancelCaptureOf s l).frame
  have hf : (s.cancelCaptureOf l .takeover).siteFull = s.siteFull := frame .siteFull (by decide)
  refine ⟨fun o n m h => ?_, hf ▸ hs.nodup, fun m hm => ?_, fun m hm => ?_⟩
  · rw [frame.config m, frame.grant o, (s.cancelled_kept l m).1]
    exact hs.captures o n m (hs.cancelled_captured.mp h).1
  · rw [(s.cancelled_kept l m).1]
    exact hs.listed m (hf ▸ hm)
  · rw [(s.cancelled_kept l m).1]
    exact hs.asking m (frame.slot m ▸ hm)

/-- After the cancellation the lane's own visit alone may be in a weighing state without a capture. -/
theorem State.Steady.cancelled_weighed (hs : s.Steady) (l : LaneNo) :
    (s.cancelCaptureOf l .takeover).WeighedBut (s.lane l).visit := by
  intro v hv ho hx
  rw [(s.cancelled_kept l l).2.2] at hv
  obtain ⟨o, m, hc, hm⟩ := hs.weighed v hv ho nofun
  exact ⟨o, m, hs.ordered.cancelled_captured.mpr ⟨hc, fun e => hx (e ▸ hm)⟩, (s.cancelled_kept l m).2.1.trans hm⟩

theorem State.Steady.enterManual (hs : s.Steady) (hl : s.Silent l) : (s.enterManual l).Steady := by
  have hv := (Moves.enterManual s l).changes.visitsHeld hs.visits
  obtain ⟨r, heq⟩ := State.enterManual_eq (s := s) (l := l)
  rw [heq] at hv ⊢
  have frame := (StopsServing.cancelCaptureOf s l).frame
  have hord := hs.ordered.cancelled l
  have hfree : (s.cancelCaptureOf l .takeover).Free l :=
    ⟨⟨fun h => hl.list (by rw [← show (s.cancelCaptureOf l .takeover).siteFull = s.siteFull from
      frame .siteFull (by decide)]; exact h), fun h => hl.slot (by rw [← frame.slot l]; exact h)⟩,
      hs.ordered.cancelCaptureOf_unweighed l _⟩
  have served : Eases (· ≠ l) (s.cancelCaptureOf l .takeover) (s.servedNoMore l) ∧
      (s.servedNoMore l).WeighedBut none := by
    have hw := hs.cancelled_weighed l
    unfold State.servedNoMore
    split
    · next h =>
      rw [h] at hw
      exact ⟨.refl _, hw⟩
    · next n h =>
      rw [h] at hw
      have e : Eases (· ≠ l) (s.cancelCaptureOf l .takeover) ((s.cancelCaptureOf l .takeover).treatTakenOver n) :=
        .treatTakenOver hord hfree.toSilent.others n
      exact ⟨e, (State.treatTakenOver_settled hord n).weighed (e.weighedBut hw)⟩
  obtain ⟨e, hw⟩ := served
  have hfree' := e.free (fun k => k rfl) hfree
  have e' : Eases (fun _ => False) (s.servedNoMore l)
      ((((s.servedNoMore l).releaseGrant l).onLane l Lane.manual).report r) := by
    have h : Eases (fun _ => False) (s.servedNoMore l) ((s.servedNoMore l).releaseGrant l) :=
      .releaseGrant (e.ordered hord) hfree'.unweighed
    exact (h.trans (.freeLane (h.free id hfree') _)).trans (.report _ _)
  exact ⟨e'.ordered (e.ordered hord), hv, e'.weighedBut hw⟩

theorem State.Steady.takeOver (hs : s.Steady) (l : LaneNo) : (s.takeOver l).Steady := by
  unfold State.takeOver
  split
  · exact hs
  · have e : Eases (fun _ => False) s ((s.stopSequence l).onLane l (fun n => { n with takeoverFrom := some n.state })) :=
      (Eases.stopSequence s l).trans (.keepLane _ l _ (fun _ => ⟨rfl, rfl⟩))
    have hm : Moves s ((s.stopSequence l).onLane l (fun n => { n with takeoverFrom := some n.state })) :=
      (Moves.stopSequence s l).trans (.lane _ l _ (fun _ => ⟨rfl, rfl, rfl⟩))
    have ht := hs.moved e.any hm
    have hsilent : ((s.stopSequence l).onLane l (fun n => { n with takeoverFrom := some n.state })).Silent l :=
      (Eases.keepLane (asks := fun _ => False) (s.stopSequence l) l (fun n => { n with takeoverFrom := some n.state })
        (fun _ => ⟨rfl, rfl⟩)).silent id (hs.ordered.stopSequence_silent l)
    simp only
    split
    · exact ht.moved (.enterTakeover hsilent _) (.enterState _ l _ _)
    · exact ht.enterManual hsilent

theorem State.Steady.testTakeover (hs : s.Steady) (l : LaneNo) : (s.testTakeover l).Steady := by
  unfold State.testTakeover
  split
  · next h =>
    exact hs.enterManual (hs.ordered.silent (by rw [h.1]; decide) (by rw [h.1]; decide))
  · exact hs

/-! ### Faults of barriers (R94) -/

theorem Eases.faultLane (hs : s.Ordered) (l : LaneNo) : Eases asks s (s.faultLane l) := by
  refine Eases.mono (asks := fun _ => False) ?_ (fun _ h => h.elim)
  unfold State.faultLane
  split
  · exact .refl s
  · exact .cancelCaptureOf s l (by decide)
  · have hc : Eases (fun _ => False) s (s.cancelCaptureOf l .barrierFault) := .cancelCaptureOf s l (by decide)
    have hd : Eases (fun _ => False) (s.cancelCaptureOf l .barrierFault)
        ((s.cancelCaptureOf l .barrierFault).stopSequence l) := .stopSequence _ l
    have hk : Eases (fun _ => False) ((s.cancelCaptureOf l .barrierFault).stopSequence l)
        (((s.cancelCaptureOf l .barrierFault).stopSequence l).onLane l
          (fun n => { n with lastReason := some (.cancelled .barrierFault) })) := .keepLane _ l _ (fun _ => ⟨rfl, rfl⟩)
    have hfree : ((s.cancelCaptureOf l .barrierFault).stopSequence l).Free l :=
      ⟨(hc.ordered hs).stopSequence_silent l, hd.unweighed (hs.cancelCaptureOf_unweighed l _)⟩
    exact (hc.trans (hd.trans hk)).trans (.enterState (hk.free id hfree) _ _)

theorem State.Steady.faultBarrier (hs : s.Steady) (b : BarrierNo) (r : FaultReason) : (s.faultBarrier b r).Steady := by
  have hb : (s.onBarrier b (Barrier.enterFault r)).Steady := hs.of_same (s.onBarrier_same b _)
  refine .forEach (fun l _ ht => ht.testTakeover l) _ (.forEach (fun l _ ht => ?_) _ (hb.of_same (State.report_same _ _)))
  exact ht.moved (.faultLane ht.ordered l) (.faultLane _ l)

/-! ### The lanes test their conditions (R78) -/

/-- A lane in a state that nothing hangs on is free. -/
theorem State.Steady.free (hs : s.Steady) {st : LaneState} (h : (s.lane l).state = st)
    (hst : st ≠ .siteFull ∧ st ≠ .admitting ∧ st ≠ .weighing ∧ st ≠ .takeoverPending := by decide) : s.Free l := by
  subst h
  obtain ⟨hf, ha, hw, ht⟩ := hst
  exact hs.ordered.free hf ha hw ht

theorem State.Steady.testLane (hs : s.Steady) (l : LaneNo) : (s.testLane l).Steady := by
  unfold State.testLane
  split
  · exact hs
  · split
    case h_1 h =>
      split
      · split
        · exact hs.moved (.enterLeaving (hs.free h)) (.enterLeaving s l)
        · exact hs
      · split
        · exact hs.completeEntry h
        · exact hs
    case h_2 h =>
      split
      · exact hs.moved (Eases.endLeaving hs.ordered (hs.free h)).any (.endLeaving s l)
      · exact hs
    case h_3 h =>
      split
      · exact hs.moved (Eases.endBackout hs.ordered (hs.free h)).any (.endBackout s l)
      · exact hs
    case h_4 h =>
      split
      · exact hs.moved (Eases.endPassing hs.ordered (hs.free h)).any (.endPassing s l)
      · exact hs
    case h_5 => exact hs

theorem State.Steady.barrierSettled (hs : s.Steady) (b : BarrierNo) : (s.barrierSettled b).Steady :=
  .forEach (fun l _ ht => (ht.testLane l).testTakeover l) _ hs

/-! ### Evaluations (R21, R29, R45) -/

/-- A change of a bridge's results, zero or marks. -/
theorem Eases.resultsOnly (s : State) (b : BridgeNo) (f : Bridge → Bridge) (h : ∀ x, (f x).capture = x.capture) :
    Eases asks s (s.onBridge b f) := .onBridge s b f (by rw [h]; rfl)

theorem Eases.attemptZero (s : State) (b : BridgeNo) : Eases asks s (s.attemptZero b) := by
  refine .ite (fun _ => .ite (fun _ => ?_) (fun _ => .ite (fun _ => .refl s) (fun _ => ?_))) (fun _ => .refl s)
  · exact (Eases.resultsOnly s b (fun x => x.zeroTaken _ (s.zeroTime b)) (fun _ => rfl)).trans (.report _ _)
  · exact (Eases.resultsOnly s b (fun x => { x with limitReported := true }) (fun _ => rfl)).trans (.report _ _)

theorem Eases.zeroAndGrant (hs : s.Ordered) (b : BridgeNo) : Eases asks s (s.zeroAndGrant b) := by
  have h : Eases asks s { s with evaluations := s.evaluations + 1 } := .of_same (State.evaluations_same s _)
  refine .ite (fun _ => ?_) (fun _ => ?_)
  · exact h.then hs (fun ht => (Eases.decideGrant ht b).trans (.attemptZero _ b))
  · exact (h.trans (.attemptZero _ b)).then hs (fun ht => .decideGrant ht b)

theorem State.Steady.applyEvaluation (hs : s.Steady) (b : BridgeNo) (e : Evaluation) :
    (s.applyEvaluation b e).Steady := by
  have h1 : (s.onBridge b (fun x => x.evaluated e)).Steady :=
    hs.moved (.resultsOnly s b _ (fun _ => rfl)) (.bridge s b _ (fun _ => ⟨rfl, rfl, .inl rfl⟩))
  have h2 := h1.moved (.zeroAndGrant h1.ordered b) (.zeroAndGrant _ b)
  exact .forEach (fun l _ ht => ht.testLane l) _ (h2.testCapture b)

theorem State.Steady.evaluate (hs : s.Steady) (b : BridgeNo) : (s.evaluate b).Steady := by
  unfold State.evaluate
  split
  · exact hs
  · exact hs.applyEvaluation b _

theorem State.Steady.evaluateDeck (hs : s.Steady) (d : DeckNo) : (s.evaluateDeck d).Steady := by
  unfold State.evaluateDeck
  split
  · exact hs
  · exact hs.evaluate _

theorem State.Steady.zeroToReference (hs : s.Steady) (b : BridgeNo) : (s.zeroToReference b).Steady :=
  hs.moved (.resultsOnly s b _ (fun _ => rfl)) (.zeroToReference s b)

theorem State.Steady.clearBridge (hs : s.Steady) (b : BridgeNo) : (s.clearBridge b).Steady := by
  have h := hs.zeroToReference b
  unfold State.clearBridge
  simp only
  split
  · exact h.moved (.resultsOnly _ b _ (fun _ => rfl)) (.bridge _ b _ (fun _ => ⟨rfl, rfl, .inl rfl⟩))
  · exact h.applyEvaluation b _

theorem State.Steady.deckArrival (hs : s.Steady) (d : DeckNo) : (s.deckArrival d).Steady :=
  hs.of_same (s.onDeck_same d _)

end Sys2Proof.Machine
end

-- ==== Proofs of family 03: events around captures ====
section
/-! The events of cells, barriers, loops, timers and power (R50, R54, R64, R80, R87, R99, R140): each keeps captures and
weighing visits together (O9). -/

namespace Sys2Proof.Machine

variable {asks : LaneNo → Prop} {s t u : State} {l : LaneNo} {b : BridgeNo}

theorem State.Steady.ite {c : Prop} [Decidable c] (h : c → s.Steady) (k : ¬ c → t.Steady) :
    (if c then s else t).Steady := by
  split
  · next hc => exact h hc
  · next hc => exact k hc

theorem State.Steady.report (hs : s.Steady) (r : Report) : (s.report r).Steady := hs.of_same (s.report_same r)

theorem State.Steady.onChannel (hs : s.Steady) (c : ChannelNo) (f : Channel → Channel) : (s.onChannel c f).Steady :=
  hs.of_same (s.onChannel_same c f)

theorem State.Steady.onDeck (hs : s.Steady) (d : DeckNo) (f : Deck → Deck) : (s.onDeck d f).Steady :=
  hs.of_same (s.onDeck_same d f)

theorem State.Steady.onBarrier (hs : s.Steady) (b : BarrierNo) (f : Barrier → Barrier) : (s.onBarrier b f).Steady :=
  hs.of_same (s.onBarrier_same b f)

theorem State.onLoop_same (s : State) (a : LoopNo) (f : ApproachLoop → ApproachLoop) :
    SameBut [.loops] s (s.onLoop a f) := by
  intro p hp
  cases p <;> simp [Part.same, State.voiced] at hp ⊢

theorem State.Steady.onLoop (hs : s.Steady) (a : LoopNo) (f : ApproachLoop → ApproachLoop) : (s.onLoop a f).Steady :=
  hs.of_same (s.onLoop_same a f)

/-- A change of a lane's timers, marks or reasons. -/
theorem State.Steady.keepLane (hs : s.Steady) (l : LaneNo) (f : Lane → Lane)
    (h : ∀ n, (f n).state = n.state ∧ (f n).visit = n.visit) : (s.onLane l f).Steady :=
  have e : Eases (fun _ => True) s (s.onLane l f) := .keepLane s l f h
  ⟨e.ordered hs.ordered, hs.visits, e.weighedBut hs.weighed⟩

theorem State.Steady.onBridge (hs : s.Steady) (b : BridgeNo) (f : Bridge → Bridge)
    (h : ∀ x, (f x).capture = x.capture := by intro _; rfl) : (s.onBridge b f).Steady :=
  have e : Eases (fun _ => True) s (s.onBridge b f) := .resultsOnly s b f h
  ⟨e.ordered hs.ordered, hs.visits, e.weighedBut hs.weighed⟩

theorem State.Steady.enterState (hs : s.Steady) (hl : s.Free l) (st : LaneState) (r : Option Reason) :
    (s.enterState l st r).Steady := hs.moved (.enterState hl st r) (.enterState s l st r)

/-! ### Cells, decks and bridges -/

theorem State.Steady.sampleArrives (hs : s.Steady) (c : ChannelNo) (n : Int) (st : SampleStatus) :
    (s.sampleArrives c n st).Steady := by
  unfold State.sampleArrives
  split
  · exact hs.onChannel c _
  · next d _ =>
    simp only
    have rest : ∀ t : State, t.Steady →
        (if t.leadOf d = some c then ((t.deckArrival d).evaluateDeck d).seal else t).Steady := fun t ht =>
      .ite (fun _ => ((ht.deckArrival d).evaluateDeck d).seal) (fun _ => ht)
    exact rest _ (.ite (fun _ => (hs.onChannel c _).report _) (fun _ => hs.onChannel c _))

theorem State.Steady.cellByte (hs : s.Steady) (c : ChannelNo) (b : Byte) (e : Bool) : (s.cellByte c b e).Steady := by
  have listens : ∀ r, (s.setReceiver c r).Steady := fun r => hs.onChannel c _
  unfold State.cellByte
  split
  · exact .ite (fun _ => listens _) (fun _ => hs)
  · refine .ite (fun _ => listens _) (fun _ => ?_)
    unfold State.collectCell
    refine .ite (fun _ => listens _) (fun _ => ?_)
    split
    · exact listens _
    · exact (listens _).sampleArrives c _ _

theorem State.Steady.stallExpired (hs : s.Steady) (c : ChannelNo) : (s.stallExpired c).Steady :=
  .ite (fun _ => .ite (fun _ => hs.onChannel c _) (fun _ => (hs.onChannel c _).report _)) (fun _ => hs)

theorem State.Steady.freshnessExpired (hs : s.Steady) (d : DeckNo) : (s.freshnessExpired d).Steady :=
  .ite (fun _ => .ite (fun _ => hs.onDeck d _) (fun _ => (((hs.onDeck d _).onDeck d _).evaluateDeck d).seal))
    (fun _ => hs)

theorem State.Steady.zeroTimerExpired (hs : s.Steady) (b : BridgeNo) : (s.zeroTimerExpired b).Steady := by
  have h := hs.onBridge b (fun x => { x with zeroTimer := s.zeroTime b, backlog := countTo 15 x.backlog })
  exact .ite (fun _ => h.report _) (fun _ => h)

/-! ### Failed captures (R50, R54) -/

/-- A capture has ended at the deadline or for power fail: its lane, in WEIGHING before, may change freely. -/
theorem State.Steady.freed {n : Nat} (hs : s.Steady) (hb : s.captured b = some (n, l))
    (ht : ∀ o, t.captured o = if o = b then none else s.captured o) (e : Eases (fun _ => False) s t) : t.Free l := by
  obtain ⟨_, _, hw⟩ := hs.ordered.captures b n l hb
  have hsilent : s.Silent l := hs.ordered.silent
    (fun h => by rw [h] at hw; exact hw.elim nofun nofun) (fun h => by rw [h] at hw; exact hw.elim nofun nofun)
  exact ⟨e.silent id hsilent, hs.ordered.unweighed_of_ended hb ht⟩

theorem Eases.captureFailedAt (hl : s.Free l) (w : Blocking) : Eases asks s (s.captureFailedAt l w) := by
  have h : Eases (fun _ => False) s (s.onLane l (fun n => { n with lastReason := some (.capture w) })) :=
    .keepLane s l _ (fun _ => ⟨rfl, rfl⟩)
  exact Eases.mono (.ite (fun _ => h.trans (.enterState (h.free id hl) _ _)) (fun _ => h)) (fun _ k => k.elim)

theorem State.Steady.captureExpired (hs : s.Steady) (b : BridgeNo) : (s.captureExpired b).Steady := by
  have hch := Changes.captureExpired s b
  unfold State.captureExpired at hch ⊢
  split
  · exact hs
  · next c hc =>
    simp only [hc] at hch
    have hb := State.captured_of hc
    have e : Eases (fun _ => False) s ((s.dropCapture b).returnVisit c.visit) := .endCapture hb
    have hl : ((s.dropCapture b).returnVisit c.visit).Free c.lane := hs.freed hb (s.dropCapture_captured b) e
    have failed : ∀ r, Eases (fun _ => True) ((s.dropCapture b).returnVisit c.visit)
        ((((s.dropCapture b).returnVisit c.visit).report r).captureFailedAt c.lane c.blocking).seal := fun r =>
      have hr : Eases (fun _ => False) _ (((s.dropCapture b).returnVisit c.visit).report r) := .report _ r
      (Eases.report _ r).trans ((Eases.captureFailedAt (hr.free id hl) _).trans (.seal _))
    exact hs.changed (e.any.trans (failed _)) hch

theorem State.Steady.failCapture (hs : s.Steady) (b : BridgeNo) : (s.failCapture b).Steady := by
  have hm := Moves.failCapture s b
  unfold State.failCapture at hm ⊢
  split
  · exact hs
  · next c hc =>
    simp only [hc] at hm
    have e : Eases (fun _ => False) s (s.cancelCaptureOn b .powerFail) := .cancelCaptureOn s b (by decide)
    have hl := hs.freed (State.captured_of hc) (fun o => s.cancelCaptureOn_captured b o _) e
    exact hs.moved (e.any.trans (.ite (fun _ => .enterState hl _ _) (fun _ => .refl _))) hm

/-! ### Barriers and loops -/

theorem State.Steady.motionExpired (hs : s.Steady) (b : BarrierNo) : (s.motionExpired b).Steady :=
  .ite (fun _ => (hs.faultBarrier b _).seal) (fun _ => hs)

theorem State.Steady.switchChanged (hs : s.Steady) (b : BarrierNo) (e : SwitchEffect) : (s.switchChanged b e).Steady := by
  cases e with
  | nothing => exact hs
  | arriveUp => exact ((hs.onBarrier b _).barrierSettled b).seal
  | arriveDown => exact ((hs.onBarrier b _).barrierSettled b).seal
  | fault r => exact (hs.faultBarrier b r).seal

theorem State.Steady.switchHeld (hs : s.Steady) (b : BarrierNo) (w : EndSwitch) : (s.switchHeld b w).Steady :=
  .ite (fun _ => (hs.onBarrier b _).switchChanged b _) (fun _ => hs)

theorem State.Steady.moveMark (hs : s.Steady) (l : LaneNo) (b : BarrierNo) (f : CrossingMark → CrossingMark) :
    (s.moveMark l b f).Steady := .ite (fun _ => hs.keepLane l _ (fun _ => ⟨rfl, rfl⟩)) (fun _ => hs)

theorem State.Steady.safetyActive (hs : s.Steady) (b : BarrierNo) : (s.safetyActive b).Steady :=
  .ite (fun _ => hs.onBarrier b _)
    (fun _ => .forEach (fun l _ ht => ht.moveMark l b _) _ (hs.onBarrier b (Barrier.loopOccupied s.motionTime)))

theorem State.Steady.passRear (hs : s.Steady) (h : (s.lane l).state = .leaving) : (s.passRear l).Steady :=
  hs.moved (Eases.passRear hs.ordered (hs.free h)).any (.passRear s l)

theorem State.Steady.laneClear (hs : s.Steady) (l : LaneNo) (b : BarrierNo) : (s.laneClear l b).Steady :=
  State.Steady.testLane (.ite (fun h => (hs.moveMark l b _).passRear h.2.1) (fun _ => hs.moveMark l b _)) l

theorem State.Steady.safetyClear (hs : s.Steady) (b : BarrierNo) : (s.safetyClear b).Steady :=
  .ite (fun _ => (State.Steady.forEach (fun l _ ht => ht.laneClear l b) _
    (hs.onBarrier b (Barrier.loopClear s.motionTime))).seal) (fun _ => hs)

theorem State.Steady.comeToIdle (hs : s.Steady) (hl : s.Free l) : (s.comeToIdle l).Steady :=
  hs.moved (.comeToIdle hl) (.comeToIdle s l)

theorem State.Steady.approachActive (hs : s.Steady) (a : LoopNo) : (s.approachActive a).Steady :=
  .ite (fun _ => hs.onLoop a _) (fun _ => .forEach
    (fun _ _ ht => .ite (fun h => ht.comeToIdle (ht.free h.1)) (fun _ => ht)) _
    (hs.onLoop a (fun _ => { occupied := true, clearFilter := none })))

theorem State.Steady.leaveBeforeEntry (hs : s.Steady) (l : LaneNo) : (s.leaveBeforeEntry l).Steady :=
  hs.moved (Eases.leaveBeforeEntry hs.ordered l).any (.leaveBeforeEntry s l)

theorem State.Steady.approachClear (hs : s.Steady) (a : LoopNo) : (s.approachClear a).Steady :=
  .ite (fun _ => (State.Steady.forEach
    (fun l _ ht => .ite (fun _ => ht) (fun _ => (ht.leaveBeforeEntry l).testLane l)) _
    (hs.onLoop a (fun _ => { occupied := false, clearFilter := none }))).seal) (fun _ => hs)

/-! ### Timers of lanes and queries -/

theorem State.Steady.identityExpired (hs : s.Steady) (l : LaneNo) : (s.identityExpired l).Steady :=
  .ite (fun _ => .ite (fun _ => hs.keepLane l _ (fun _ => ⟨rfl, rfl⟩))
    (fun _ => .ite (fun h => hs.enterState (hs.free h) _ _) (fun _ => hs))) (fun _ => hs)

theorem State.Steady.entryExpired (hs : s.Steady) (h : (s.lane l).state = .entering) : (s.entryExpired l).Steady :=
  hs.moved (Eases.entryExpired hs.ordered (hs.free h)).any (.entryExpired s l)

theorem State.Steady.entryTimerExpired (hs : s.Steady) (l : LaneNo) : (s.entryTimerExpired l).Steady :=
  .ite (fun _ => .ite (fun _ => hs.keepLane l _ (fun _ => ⟨rfl, rfl⟩))
    (fun _ => .ite (fun h => (hs.entryExpired h).seal) (fun _ => hs))) (fun _ => hs)

/-- A lane whose ACTIVE query is over is free: it was in ADMITTING (R132). -/
theorem State.Ordered.answered (hs : s.Ordered) (h : (s.slot l).state = .active) (f : QuerySlot → QuerySlot)
    (hf : (f (s.slot l)).state ≠ .active) : (s.onSlot l f).Free l := by
  have hst := hs.asking l h
  have hw : s.Unweighed l := hs.unweighed (by rw [hst]; exact fun k => k.elim nofun nofun)
  refine ⟨⟨fun hm => ?_, ?_⟩, hw⟩
  · rw [hs.listed l hm] at hst
    cases hst
  · rw [State.onSlot_slot]
    exact hf

theorem Eases.fallBack (hs : s.Ordered) (hl : s.Free l) (q : QuerySlot) : Eases (fun _ => True) s (s.fallBack l q) := by
  unfold State.fallBack
  split
  · exact .refuseVehicle hl _ _
  · exact (Eases.createVisit hs hl trivial _).trans (.onSlot _ l _ id)

/-- The query is over, and the lane forgets its number. -/
theorem Eases.endQuery (s : State) (l : LaneNo) (f : QuerySlot → QuerySlot) (hf : ∀ q, (f q).state ≠ .active) :
    Eases asks s ((s.onSlot l f).onLane l (fun n => { n with query := none })) :=
  (Eases.onSlot s l f (fun h => absurd h (hf _))).trans (.keepLane _ l _ (fun _ => ⟨rfl, rfl⟩))

theorem State.Ordered.queryEnded (hs : s.Ordered) (h : (s.slot l).state = .active) (f : QuerySlot → QuerySlot)
    (hf : ∀ q, (f q).state ≠ .active) :
    ((s.onSlot l f).onLane l (fun n => { n with query := none })).Free l :=
  (Eases.keepLane (asks := fun _ => False) (s.onSlot l f) l (fun n => { n with query := none })
    (fun _ => ⟨rfl, rfl⟩)).free id (hs.answered h f (hf _))

theorem State.Steady.queryTimedOut (hs : s.Steady) (h : (s.slot l).state = .active) : (s.queryTimedOut l).Steady := by
  have hf : ∀ q : QuerySlot, q.timedOut.state ≠ .active := fun _ => by simp [QuerySlot.timedOut]
  have e : Eases (fun _ => True) s ((s.onSlot l QuerySlot.timedOut).onLane l (fun n => { n with query := none })) :=
    .endQuery s l _ hf
  have hfree := hs.ordered.queryEnded h QuerySlot.timedOut hf
  refine hs.moved ?_ (.queryTimedOut s l)
  unfold State.queryTimedOut
  exact e.then hs.ordered (fun ht => .fallBack ht hfree _)

theorem State.Steady.decideByAnswer (hs : s.Steady) (h : (s.slot l).state = .active) (a : Answer) :
    (s.decideByAnswer l a).1.Steady := by
  have hf : ∀ q : QuerySlot, (QuerySlot.vacant).state ≠ .active := fun _ => by decide
  have e : Eases (fun _ => True) s ((s.onSlot l (fun _ => .vacant)).onLane l (fun n => { n with query := none })) :=
    .endQuery s l _ hf
  have hl := hs.ordered.queryEnded h (fun _ => .vacant) hf
  have hm := Moves.decideByAnswer s l a
  unfold State.decideByAnswer at hm ⊢
  cases a with
  | unknownTag => exact hs.moved (e.trans (.refuseVehicle hl _ _)) hm
  | entry p => exact hs.moved (e.then hs.ordered (fun ht => .decideByPermit ht hl trivial _ _ p)) hm

theorem State.Steady.onSlot (hs : s.Steady) (l : LaneNo) (f : QuerySlot → QuerySlot)
    (h : (f (s.slot l)).state = .active → (s.slot l).state = .active) : (s.onSlot l f).Steady :=
  hs.moved (.onSlot s l f h) (.onSlot s l f)

theorem State.Steady.deadlineExpired (hs : s.Steady) (l : LaneNo) : (s.deadlineExpired l).Steady :=
  .ite (fun h => .ite (fun _ => hs.onSlot l _ id) (fun _ => (hs.queryTimedOut h.1).seal)) (fun _ => hs)

/-! ### Power (R54, R99, R182) -/

theorem State.Steady.powerFail (hs : s.Steady) (p : PowerFail) : State.Steady { s with powerFail := p } :=
  hs.of_same (s.powerFail_same p)

theorem State.Steady.powerFailing (hs : s.Steady) : s.powerFailing.Steady :=
  .ite (fun _ => hs.powerFail _) (fun _ => (State.Steady.seal
    (.forEach (fun b _ ht => ht.failCapture b) allFour (hs.powerFail _))).report _)

theorem State.Steady.retest (hs : s.Steady) (l : LaneNo) : (s.retest l).Steady := by
  unfold State.retest
  refine .ite (fun _ => hs.leaveBeforeEntry l) (fun _ => ?_)
  split
  case h_1 h =>
    refine .ite (fun _ => hs.moved (Eases.mono (asks := fun _ => False) (.enterEntering (hs.free h) id) nofun) ?_)
      (fun _ => hs)
    exact .enterEntering s l (by rw [h]; decide)
  case h_2 h => exact .ite (fun _ => hs.enterState (hs.free h) _ _) (fun _ => hs)
  case h_3 h => exact .ite (fun _ => hs.entryExpired h) (fun _ => hs.testLane l)
  case h_4 h => exact .ite (fun _ => (hs.passRear h).testLane l) (fun _ => hs)
  case h_5 => exact hs.testTakeover l
  case h_6 h => exact hs.comeToIdle (hs.free h)
  case h_7 => exact hs.testLane l

theorem State.Steady.takeUpSlot (hs : s.Steady) (l : LaneNo) : (s.takeUpSlot l).Steady := by
  refine .ite (fun h => ?_) (fun _ => hs)
  split
  · exact hs.decideByAnswer h _
  · exact .ite (fun _ => hs.queryTimedOut h) (fun _ => hs)

theorem State.Steady.decideGrant (hs : s.Steady) (b : BridgeNo) : (s.decideGrant b).Steady :=
  hs.moved (.decideGrant hs.ordered b) (.decideGrant s b)

theorem State.Steady.drain (hs : s.Steady) : s.drain.Steady := hs.moved (.drain hs.ordered) (.drain s)

theorem State.Steady.powerRestored (hs : s.Steady) : s.powerRestored.Steady := by
  have h1 := State.Steady.forEach (fun l _ ht => ht.retest l) allFour
    (hs.powerFail { asserted := false, filter := none })
  have h2 := State.Steady.forEach (fun b _ ht => ht.decideGrant b) allFour h1
  exact (State.Steady.forEach (fun l _ ht => ht.takeUpSlot l) allFour h2).drain.seal

end Sys2Proof.Machine
end

-- ==== Proofs of family 03: requests around captures ====
section
/-! Every request keeps captures and weighing visits together (O9): a lane that takes one is free, or is one whose capture
starts, is cancelled or goes on. -/

namespace Sys2Proof.Machine

/- One proof after another: the check compiles the whole text in one process, whose threads are limited. -/
set_option Elab.async false

variable {asks : LaneNo → Prop} {s t u : State} {l : LaneNo} {b : BridgeNo}

/-! ### Settings (R33, R74, R112, R76, R185) -/

/-- A change of other parts and of site settings that leaves the bridge of every lane that weighs. -/
theorem State.Steady.sited (hs : s.Steady) (h : SameBut (.site :: restParts) s t)
    (hb : ∀ m, ¬ s.Unweighed m → (t.config m).bridge = (s.config m).bridge) : t.Steady := by
  have hl : ∀ m, t.lane m = s.lane m := fun m => h.lane m
  have hv : t.ret.visits = s.ret.visits := h .visits (by decide)
  have hf : t.siteFull = s.siteFull := h .siteFull (by decide)
  have e : Eases (fun _ => True) s t := by
    refine .of_captured (fun b => h.captured b) (fun m hm => .of_eq (hb m hm) (hl m) (fun o ho => ?_))
      (fun v hm ho => ⟨v, hv ▸ hm, rfl, ho⟩) (fun hn => hf ▸ hn) (fun m hm => .inr ⟨hf ▸ hm, by rw [hl m]⟩)
      (fun m ha => .inr ⟨h.slot m ▸ ha, by rw [hl m]⟩)
    rw [h.grant o]
    exact ho
  exact ⟨e.ordered hs.ordered, by unfold State.VisitsHeld; rw [hv]; exact hs.visits, e.weighedBut hs.weighed⟩

/-- A change of site settings other than the configurations of the lanes. -/
theorem State.Steady.onSite (hs : s.Steady) (f : SiteSettings → SiteSettings) (h : ∀ x, (f x).lanes = x.lanes := by intro _; rfl) :
    (s.onSite f).Steady :=
  hs.sited ((s.onSite_same f).mono (by decide)) (fun m _ => by
    change ((f s.ret.site).lanes.read m).bridge = (s.ret.site.lanes.read m).bridge
    rw [h])

/-- A change of retained contents that captures do not stand in. -/
theorem Eases.onRet (s : State) (f : Retained → Retained)
    (h : ∀ r, (f r).site = r.site ∧ (f r).visits = r.visits := by intro _; exact ⟨rfl, rfl⟩) :
    Eases asks s (s.onRet f) := by
  have hv : (s.onRet f).ret.visits = s.ret.visits := (h s.ret).2
  refine .of_captured (fun _ => rfl) (fun m _ => .of_eq ?_ rfl (fun _ ho => ho))
    (fun v hm ho => ⟨v, hv ▸ hm, rfl, ho⟩) id (fun _ hm => .inr ⟨hm, rfl⟩) (fun _ ha => .inr ⟨ha, rfl⟩)
  change ((f s.ret).site.lanes.read m).bridge = (s.ret.site.lanes.read m).bridge
  rw [(h s.ret).1]

theorem State.Steady.onRet (hs : s.Steady) (f : Retained → Retained)
    (h : ∀ r, (f r).site = r.site ∧ (f r).visits = r.visits := by intro _; exact ⟨rfl, rfl⟩) : (s.onRet f).Steady := by
  have e : Eases (fun _ => True) s (s.onRet f) := .onRet s f h
  refine ⟨e.ordered hs.ordered, ?_, e.weighedBut hs.weighed⟩
  change (f s.ret).visits.Sound
  rw [(h s.ret).2]
  exact hs.visits

theorem State.Steady.onAdm (hs : s.Steady) (f : Admission → Admission)
    (h : ∀ l, ((f s.adm).slots.read l).state = .active → (s.slot l).state = .active := by exact fun _ h => h) :
    (s.onAdm f).Steady :=
  have e : Eases (fun _ => True) s (s.onAdm f) := .onAdm s f h
  ⟨e.ordered hs.ordered, hs.visits, e.weighedBut hs.weighed⟩

theorem State.Steady.testHigh (hs : s.Steady) : s.testHigh.Steady := hs.of_same s.testHigh_same

theorem State.Steady.leaveListing (hs : s.Steady) (l : LaneNo) (k : LaneConfig) : (s.leaveListing l k).Steady := by
  unfold State.leaveListing
  split
  · exact hs
  · refine .ite (fun _ => hs) (fun _ => hs.changed (.onGrant s _ _ (fun m _ h => ?_)) (.one (.move (.grant s _ _))))
    split
    · exact h
    · exact h

theorem State.leaveListing_lane (s : State) (l m : LaneNo) (k : LaneConfig) :
    (s.leaveListing l k).lane m = s.lane m := by
  unfold State.leaveListing
  split
  · rfl
  · split <;> rfl

/-- A lane that does not weigh takes a configuration (R74). -/
theorem State.Steady.configure (hs : s.Steady) (hl : s.Unweighed l) (k : LaneConfig) :
    (s.onSite (fun t => { t with lanes := t.lanes.write l k })).Steady := by
  refine hs.sited ((s.onSite_same _).mono (by decide)) (fun m hm => ?_)
  have hne : l ≠ m := fun e => hm (e ▸ hl)
  change ((s.ret.site.lanes.write l k).read m).bridge = (s.ret.site.lanes.read m).bridge
  rw [Table.read_write_other _ _ hne]

theorem State.Steady.actConfigLane (hs : s.Steady) (f : ConfigLaneFields) : (actConfigLane f s).state.Steady := by
  unfold Machine.actConfigLane
  split
  · next l k _ _ =>
    split
    · exact hs
    · split
      · exact hs
      · split
        · exact hs
        · next hst =>
          have hw : (s.leaveListing l k).Unweighed l := by
            refine (hs.leaveListing l k).ordered.unweighed (fun hm => hst ?_)
            rw [State.leaveListing_lane] at hm
            exact ⟨fun h => by rw [h] at hm; exact hm.elim nofun nofun,
              fun h => by rw [h] at hm; exact hm.elim nofun nofun⟩
          have ht := ((hs.leaveListing l k).configure hw k).seal
          exact .ite (fun h => ht.comeToIdle (ht.free h)) (fun _ => ht)
  · exact hs

theorem State.Steady.takePeriod (hs : s.Steady) (p : Nat) : (s.takePeriod p).Steady := by
  have h : (s.onSite (fun t => { t with period := p })).Steady := hs.onSite _
  refine .sited hs ((s.takePeriod_same p).mono (by decide)) (fun m _ => ?_)
  unfold State.takePeriod
  simp only
  split <;> rfl

theorem State.Steady.actConfigBridgeTiming (hs : s.Steady) (f : BridgeTimingFields) :
    (actConfigBridgeTiming f s).state.Steady := by
  unfold Machine.actConfigBridgeTiming
  split
  · exact hs
  · next b _ =>
    split
    · exact hs
    · have h : ((s.takePeriod (periodOf f)).onSite
          (fun t => { t with timing := t.timing.write b (bridgeTimingOf f) })).seal.Steady :=
        ((hs.takePeriod _).onSite _).seal
      have k := h.onBridge b (fun x => { x with zeroTimer := State.zeroTime ((s.takePeriod (periodOf f)).onSite
        (fun t => { t with timing := t.timing.write b (bridgeTimingOf f) })).seal b })
      exact State.Steady.decideGrant (.ite (fun _ => k.report _) (fun _ => k)) b

theorem State.Steady.actConfigStream (hs : s.Steady) (f : ConfigStreamFields) : (actConfigStream f s).state.Steady := by
  unfold Machine.actConfigStream
  split
  · split
    · exact hs
    · exact (hs.onSite _).seal
  · exact hs

theorem State.Steady.actConfigTimers (hs : s.Steady) (f : ConfigTimersFields) : (actConfigTimers f s).state.Steady := by
  unfold Machine.actConfigTimers
  split
  · exact hs
  · exact ((hs.onSite (fun t => { t with timers := siteTimersOf f }) ).seal.onAdm _).testHigh

theorem State.Steady.actTimeSet (hs : s.Steady) (v : Word) : (actTimeSet v s).state.Steady := by
  unfold Machine.actTimeSet
  split
  · exact hs
  · exact (hs.onRet _).seal

/-! ### Calibration (R9, R12, R34, R35) -/

theorem State.Steady.calibrated (hs : s.Steady) (k : Byte) (i : Option Nat) : (s.calibrated k i).Steady :=
  hs.of_same (s.calibrated_same k i)

theorem State.Steady.takeDeckMap (hs : s.Steady) (map : Table 16 (Option DeckNo)) : (s.takeDeckMap map).Steady := by
  have h1 : (s.onSite (fun t => { t with deckMap := map })).Steady := hs.onSite _
  have h2 := h1.of_same (State.reassignChannels_same _ s.ret.site.deckMap map)
  have h3 := (h2.of_same (State.awaitMembers_same _ (changedDecks s.ret.site.deckMap map))).of_same
    (State.resetDecks_same _ (changedDecks s.ret.site.deckMap map))
  exact (State.Steady.forEach (fun b _ ht => ht.clearBridge b) _ (h3.calibrated 0x10 none)).seal

theorem State.Steady.actCalDeckMap (hs : s.Steady) (d : Table 16 Byte) : (actCalDeckMap d s).state.Steady := by
  unfold Machine.actCalDeckMap
  split
  · exact hs
  · split
    · exact hs
    · split
      · exact hs.takeDeckMap _
      · exact hs

theorem State.Steady.takeCell (hs : s.Steady) (c : ChannelNo) (z : Int) (n : Nat) : (s.takeCell c z n).Steady := by
  have h := hs.of_same (s.writeChannelCal_same c { zero := z, span := n, calibrated := true })
  rw [State.takeCell_eq]
  refine State.Steady.calibrated ?_ _ _
  cases s.bridgeOfChannel c with
  | none => exact h
  | some b => exact h.zeroToReference b

theorem State.Steady.actCalCell (hs : s.Steady) (f : CalCellFields) : (actCalCell f s).state.Steady := by
  unfold Machine.actCalCell
  split
  · exact hs
  · split
    · exact hs
    · split
      · exact hs
      · split
        · exact hs
        · exact hs.takeCell _ _ _

theorem State.Steady.takeBridgeCal (hs : s.Steady) (b : BridgeNo) (k : BridgeCal) : (s.takeBridgeCal b k).Steady := by
  rw [State.takeBridgeCal_eq]
  exact (((hs.of_same (s.recalibrated_same b k)).calibrated _ _).clearBridge b).seal

theorem State.Steady.actCalBridge (hs : s.Steady) (f : CalBridgeFields) : (actCalBridge f s).state.Steady := by
  unfold Machine.actCalBridge
  split
  · exact hs
  · split
    · split
      · exact hs
      · exact hs.takeBridgeCal _ _
    · exact hs

theorem State.Steady.actCalReferenceZero (hs : s.Steady) (f : CalZeroFields) :
    (actCalReferenceZero f s).state.Steady := by
  unfold Machine.actCalReferenceZero
  split
  · exact hs
  · split
    · exact hs
    · split
      · exact hs
      · split
        · exact hs
        · exact ((hs.of_same (s.onBridgeCal_same _ _)).zeroToReference _).calibrated _ _

/-! ### Arrivals (R81 to R84) -/

theorem Eases.takeUp (s : State) (l : LaneNo) (v : Visit) : Eases asks s (s.takeUp l v) :=
  .onVisit s _ _ (fun _ h => ⟨h, id⟩)

theorem Eases.arriveOutbound (hs : s.Ordered) (hl : s.Free l) (tag : Word) :
    Eases (fun _ => True) s (s.arriveOutbound l tag) := by
  unfold State.arriveOutbound
  split
  · exact .refuseVehicle hl tag _
  · next v _ =>
    have h : Eases (fun _ => False) s (s.takeUp l v) := .takeUp s l v
    exact h.any.then hs (fun ht => .enterAwaitBridge ht (h.free id hl) _)

theorem Eases.arriveBypass (hl : s.Free l) (tag : Word) : Eases (fun _ => True) s (s.arriveBypass l tag) := by
  unfold State.arriveBypass
  split
  · exact .refuseVehicle hl tag _
  · next v _ =>
    have h1 : Eases (fun _ => False) s ((s.takeUp l v).onVisit v.number (fun x => { x with state := .exiting })) :=
      (Eases.takeUp s l v).trans (.onVisit _ _ _ (fun _ h => ⟨h, fun k => k.elim nofun nofun⟩))
    have h2 := (h1.trans (.freeLane (h1.free id hl) (fun n => { n with visit := some v.number }))).trans (.raiseFront _ l)
    exact h2.any.trans (.enterState (h2.free id hl) _ _)

theorem State.Steady.takeArrival (hs : s.Steady) (hl : s.Free l) (tag : Word) (k : StreamNo) :
    (s.takeArrival l tag k).Steady := by
  refine hs.moved ?_ (.takeArrival s l tag k)
  have h : Eases (fun _ => False) s (s.onLane l (fun n =>
      { n with identityTimer := .stopped, identity := some { tag := tag, stream := k } })) :=
    .keepLane s l _ (fun _ => ⟨rfl, rfl⟩)
  have ht := h.ordered hs.ordered
  have hf := h.free id hl
  unfold State.takeArrival
  simp only
  split
  · exact h.any
  · exact h.any.trans (.decideAdmission ht hf trivial tag k)
  · exact h.any.trans (.arriveOutbound ht hf tag)
  · exact h.any.trans (.arriveBypass hf tag)

theorem State.Steady.actArrival (hs : s.Steady) (l : Byte) (tag : Word) (k : Byte) :
    (actArrival l tag k s).state.Steady := by
  unfold Machine.actArrival
  split
  · split
    · exact hs
    · split
      · next h =>
        exact (hs.takeArrival (h.elim (fun e => hs.free e) (fun e => hs.free e)) _ _).seal
      · exact hs
  · exact hs

/-! ### Takeover, release, retry, backout (R91, R92, R95, R97) -/

theorem State.Steady.actLaneTakeover (hs : s.Steady) (l : Byte) : (actLaneTakeover l s).state.Steady := by
  unfold Machine.actLaneTakeover
  split
  · exact hs
  · split
    · exact hs
    · exact (hs.takeOver _).seal

theorem Eases.commandLowers (bs : List BarrierNo) (s : State) :
    Eases asks s (Machine.forEach bs (fun b s => s.commandLower b) s) := .forEach (fun b s => .onBarrier s b _) bs s

theorem State.Steady.leaveManual (hs : s.Steady) (hl : s.Free l) : (s.leaveManual l).Steady :=
  .ite (fun _ => hs.enterState hl _ _) (fun _ => hs.comeToIdle hl)

theorem State.Steady.actLaneRelease (hs : s.Steady) (l : Byte) : (actLaneRelease l s).state.Steady := by
  unfold Machine.actLaneRelease
  split
  · exact hs
  · next l _ =>
    split
    · exact hs
    · split
      · exact hs
      · next h =>
        have e : Eases (fun _ => False) s
            (Machine.forEach ((s.barriersOf l).filter (fun b => !s.heldByOther l b)) (fun b s => s.commandLower b) s) :=
          .commandLowers _ s
        have hl := e.free id (hs.free (not_not.mp h))
        have ht := hs.moved e.any (.forEach (fun b s => .commandLower s b) _ s)
        rw [State.accepted_state]
        exact ht.leaveManual hl

theorem State.Steady.actLaneRetry (hs : s.Steady) (l : Byte) : (actLaneRetry l s).state.Steady := by
  unfold Machine.actLaneRetry
  split
  · exact hs
  · split
    · exact hs
    · split
      · exact hs
      · next h => exact (hs.startOwnCapture (hs.free (not_not.mp h))).seal

theorem State.Steady.actLaneBackout (hs : s.Steady) (l : Byte) : (actLaneBackout l s).state.Steady := by
  unfold Machine.actLaneBackout
  split
  · exact hs
  · next l _ =>
    split
    · exact hs
    · split
      · exact hs
      · next h =>
        have e : Eases (fun _ => False) s (s.raiseFront l) := .raiseFront s l
        exact (hs.moved e.any (.raiseFront s l)).enterState (e.free id (hs.free (not_not.mp h))) _ _

/-! ### Barriers, zeros, channels (R15, R31, R32, R66, R67) -/

theorem State.Steady.barrierCommandOf {c : Byte} {g : State → BarrierNo → State} (hs : s.Steady)
    (h : barrierCommandOf c = some g) (b : BarrierNo) : (g s b).Steady := by
  unfold Machine.barrierCommandOf at h
  split at h
  · cases h
    exact hs.onBarrier b _
  · split at h
    · cases h
      exact hs.onBarrier b _
    · cases h

theorem State.Steady.actBarrierCommand (hs : s.Steady) (l b c : Byte) : (actBarrierCommand l b c s).state.Steady := by
  unfold Machine.actBarrierCommand
  split
  · next hg =>
    split
    · exact hs
    · split
      · exact hs
      · split
        · exact hs
        · split
          · exact hs
          · exact hs.barrierCommandOf hg _
  · exact hs

theorem State.Steady.actBarrierReset (hs : s.Steady) (b : Byte) : (actBarrierReset b s).state.Steady := by
  unfold Machine.actBarrierReset
  split
  · exact hs
  · next b _ =>
    have h : (s.onBarrier b Barrier.reset).Steady := hs.onBarrier b _
    exact .ite (fun _ => .ite (fun _ => h) (fun _ => (h.barrierSettled b).seal)) (fun _ => hs)

theorem State.Steady.actZeroNow (hs : s.Steady) (b : Byte) : (actZeroNow b s).state.Steady := by
  unfold Machine.actZeroNow
  split
  · exact hs
  · next b _ =>
    split
    · exact hs
    · exact (hs.onBridge b _).decideGrant b

theorem State.Steady.actZeroWaive (hs : s.Steady) (b : Byte) : (actZeroWaive b s).state.Steady := by
  unfold Machine.actZeroWaive
  split
  · exact hs
  · next b _ => exact (hs.onBridge b _).decideGrant b

theorem State.Steady.actChannelClear (hs : s.Steady) (x : Selector) : (actChannelClear x s).state.Steady := by
  unfold Machine.actChannelClear
  split
  · exact hs
  · exact hs.of_same (s.clearStalls_same _)
  · exact hs.of_same (s.clearStalls_same _)

/-! ### Permits and refusals (R129, R130, R136 to R139, R142) -/

theorem State.Steady.installAnswer (hs : s.Steady) (n : Bool) (a : Answer) : (s.installAnswer n a).Steady := by
  cases a with
  | unknownTag => exact hs
  | entry p => exact .ite (fun _ => hs) (fun _ => hs.onAdm _)

theorem State.installAnswer_slot (s : State) (n : Bool) (a : Answer) (l : LaneNo) :
    (s.installAnswer n a).slot l = s.slot l := by
  cases a with
  | unknownTag => rfl
  | entry p => cases n <;> rfl

theorem State.Steady.takeAccount (hs : s.Steady) (v : Visit) (a : Answer) : (s.takeAccount v a).Steady := by
  cases a with
  | unknownTag => exact hs
  | entry p =>
    refine State.Steady.seal (hs.moved (.onVisit s _ _ (fun _ h => ⟨h, id⟩)) (.onVisit s _ _ (fun _ => ⟨rfl, rfl⟩)))

theorem State.Steady.lateAnswer (hs : s.Steady) (l : LaneNo) (a : Answer) : (s.lateAnswer l a).state.Steady := by
  have h := hs.installAnswer (s.slot l).noInstall a
  unfold State.lateAnswer
  simp only
  split
  · exact h
  · next v _ =>
    split
    · exact h.takeAccount v a
    · exact (h.takeAccount v a).report _

theorem State.Steady.takeAnswer (hs : s.Steady) (l : LaneNo) (a : Answer) : (s.takeAnswer l a).state.Steady := by
  have h := hs.installAnswer (s.slot l).noInstall a
  unfold State.takeAnswer State.timelyAnswer
  split
  · next hq =>
    have hq' : ((s.installAnswer (s.slot l).noInstall a).slot l).state = .active := by
      rw [State.installAnswer_slot]
      exact hq
    simp only
    split
    · exact h.onSlot l (fun q => { q with held := some a }) id
    · exact (h.decideByAnswer hq' a).seal
  · split
    · exact hs
    · exact hs.lateAnswer l a

theorem State.Steady.actPermitAnswer (hs : s.Steady) (f : PermitAnswerFields) : (actPermitAnswer f s).state.Steady := by
  unfold Machine.actPermitAnswer
  split
  · exact hs
  · split
    · exact hs
    · split
      · exact hs.takeAnswer _ _
      · exact hs

theorem State.Steady.invalidate (hs : s.Steady) (c : Byte) (g : Granularity) (test : Permit → Bool) :
    (s.invalidate c g test).state.Steady := by
  refine hs.onAdm (fun a => (a.removeWhere test).markNoInstall) (fun l h => ?_)
  simp only [Admission.markNoInstall, Table.read_each] at h
  split at h
  · exact h
  · exact h

theorem State.Steady.actInvalidate (hs : s.Steady) (c : Byte) (a : Half) (tag : Word) :
    (actInvalidate c a tag s).state.Steady := by
  unfold Machine.actInvalidate
  split
  · exact hs.invalidate _ _ _
  · split
    · split
      · exact hs
      · exact hs.invalidate _ _ _
    · split
      · exact hs.invalidate _ _ _
      · exact hs

theorem State.Steady.actCreditSet (hs : s.Steady) (a : Half) (c : Word) (x : Byte) :
    (actCreditSet a c x s).state.Steady := by
  unfold Machine.actCreditSet
  split
  · exact hs
  · exact hs.onAdm (fun b => b.setStanding a.toNat c.toInt (x == 0))

theorem Admission.freeRecords_slots (a : Admission) (set : Byte) : (a.freeRecords set).slots = a.slots := by
  unfold Admission.freeRecords
  generalize allEight = xs
  induction xs generalizing a with
  | nil => rfl
  | cons x xs ih =>
    refine (ih _).trans ?_
    simp only
    split <;> rfl

theorem State.Steady.actRefusalClear (hs : s.Steady) (r o : Byte) : (actRefusalClear r o s).state.Steady := by
  unfold Machine.actRefusalClear
  split
  · exact hs
  · have h : (s.onAdm (fun a => a.freeRecords r)).Steady :=
      hs.onAdm _ (fun _ h => by rw [Admission.freeRecords_slots] at h; exact h)
    exact .ite (fun _ => h.onAdm _) (fun _ => h)

theorem State.Steady.unmask (hs : s.Steady) : s.unmask.Steady := by
  have h : (s.onAdm (fun a => { a with mask := false })).Steady := hs.onAdm _
  exact .ite (fun _ => (h.report _).onAdm _) (fun _ => h)

theorem State.Steady.actRefusalMask (hs : s.Steady) (x : Byte) : (actRefusalMask x s).state.Steady := by
  unfold Machine.actRefusalMask
  split
  · exact hs.onAdm (fun a => { a with mask := true })
  · split
    · exact hs.unmask
    · exact hs

/-! ### Visits (R93, R154) -/

/-- A lane loses its visit, which is in no weighing state. -/
theorem State.Steady.clearLaneVisit (hs : s.Steady) {n : Nat} (hn : (s.lane l).visit = some n) (hw : s.Settled n) :
    (s.clearLaneVisit l).Steady := by
  have hst : ∀ m, ((s.clearLaneVisit l).lane m).state = (s.lane m).state := fun m => by
    unfold State.clearLaneVisit
    rw [State.onLane_lane_at]
    split <;> rfl
  refine ⟨⟨fun b k m h => ?_, hs.ordered.nodup, fun m h => ?_, fun m h => ?_⟩, hs.visits, fun v hv ho _ => ?_⟩
  · rw [hst]
    exact hs.ordered.captures b k m h
  · rw [hst]
    exact hs.ordered.listed m h
  · rw [hst]
    exact hs.ordered.asking m h
  · obtain ⟨b, m, hc, hm⟩ := hs.weighed v hv ho nofun
    have hne : l ≠ m := fun e => by
      rw [← e, hn] at hm
      exact hw v hv (Option.some.inj hm).symm ho
    refine ⟨b, m, hc, ?_⟩
    unfold State.clearLaneVisit
    rw [State.onLane_lane_ne _ _ hne]
    exact hm

theorem State.Steady.visitTakenAway (hs : s.Steady) {n : Nat} (hn : (s.lane l).visit = some n) (hw : s.Settled n) :
    (s.visitTakenAway l).Steady := by
  have clear := hs.clearLaneVisit hn hw
  have hm := Moves.visitTakenAway s l
  unfold State.visitTakenAway at hm ⊢
  split
  case h_1 h =>
    simp only [h] at hm
    have h1 : Eases (fun _ => False) s (s.withdrawRequest l) := .withdrawRequest s l
    have h2 := h1.then hs.ordered (fun ht => .releaseGrant ht (h1.unweighed (hs.free h).unweighed))
    have h3 := h2.trans (.clearVehicle (h2.unweighed (hs.free h).unweighed))
    exact hs.moved (h3.any.trans (.enterState (h3.free id (hs.free h)) _ _)) hm
  case h_2 => exact clear.takeOver l
  case h_3 => exact clear.takeOver l
  case h_4 => exact clear.takeOver l
  case h_5 => exact clear
  case h_6 => exact clear
  case h_7 => exact clear
  case h_8 => exact clear
  case h_9 => exact hs

theorem State.Steady.serveFreed (hs : s.Steady) : s.serveFreed.Steady :=
  hs.moved (.serveFreed hs.ordered (fun _ _ => trivial)) (.serveFreed s)

theorem State.Steady.cancelVisit (hs : s.Steady) (v : Visit) : (s.cancelVisit v).Steady := by
  have h : (s.onVisits (fun t => t.without v.number)).Steady := hs.moved (.without s _) (.without s _)
  unfold State.cancelVisit
  refine State.Steady.serveFreed ?_
  split
  · exact h
  · next l hl =>
    have hv : (s.lane l).visit = some v.number := by
      simpa using (Option.filter_eq_some_iff.mp hl).2
    exact h.visitTakenAway hv (s.without_settled _)

theorem State.Steady.cancelFound (hs : s.Steady) (v : Option Visit) : (s.cancelFound v).state.Steady := by
  unfold State.cancelFound
  split
  · exact hs
  · split
    · exact hs
    · split
      · exact hs
      · exact (hs.cancelVisit _).seal

theorem State.Steady.actVisitCancel (hs : s.Steady) (k : Byte) (o : Word) : (actVisitCancel k o s).state.Steady := by
  unfold Machine.actVisitCancel
  split
  · exact hs.cancelFound _
  · exact hs.cancelFound _
  · exact hs
  · exact hs

/-! ### Tares and tickets (R159, R160, R176, R180) -/

theorem State.Steady.actTareWrite (hs : s.Steady) (f : TareWriteFields) : (actTareWrite f s).state.Steady := by
  unfold Machine.actTareWrite
  split
  · exact hs
  · split
    · exact hs
    · exact (hs.of_same (s.placeTare_same _)).seal

theorem State.Steady.actTareDelete (hs : s.Steady) (tag : Word) : (actTareDelete tag s).state.Steady := by
  unfold Machine.actTareDelete
  split
  · exact hs
  · split
    · exact hs
    · exact (hs.onRet _).seal

theorem State.Steady.collectTickets (hs : s.Steady) (n : Nat) : (s.collectTickets n).Steady := by
  have h : (s.onJournal (fun j => j.collect n)).Steady := hs.of_same (s.onJournal_same _)
  unfold State.collectTickets
  exact (State.Steady.ite (fun _ => h.of_same (State.marks_same _ _)) (fun _ => h)).testHigh.drain

theorem State.Steady.actTicketCollect (hs : s.Steady) (n : Word) : (actTicketCollect n s).state.Steady := by
  unfold Machine.actTicketCollect
  split
  · exact hs
  · split
    · exact hs
    · exact (hs.collectTickets _).seal

theorem State.Steady.actTicketBase (hs : s.Steady) (n : Word) : (actTicketBase n s).state.Steady := by
  unfold Machine.actTicketBase
  split
  · exact hs
  · split
    · exact hs
    · split
      · exact hs
      · exact (hs.of_same (s.onJournal_same _)).drain.seal

/-! ### Every request -/

/-- The link unit stands apart. -/
theorem State.Steady.onLink (hs : s.Steady) (f : Link → Link) : (s.onLink f).Steady :=
  ⟨⟨hs.ordered.captures, hs.ordered.nodup, hs.ordered.listed, hs.ordered.asking⟩, hs.visits, hs.weighed⟩

theorem State.Steady.act (hs : s.Steady) (r : Request) : (act r s).state.Steady := by
  have same : ∀ {u : State}, u = s → u.Steady := fun e => e ▸ hs
  cases r
  case identify | reset | cacheRead | refusalRead => exact hs
  case statusRead => exact hs.onLink (fun k => { k with reportsLost := false })
  case configLane f => exact hs.actConfigLane f
  case configBridgeTiming f => exact hs.actConfigBridgeTiming f
  case configStream f => exact hs.actConfigStream f
  case configTimers f => exact hs.actConfigTimers f
  case timeSet v => exact hs.actTimeSet v
  case calDeckMap d => exact hs.actCalDeckMap d
  case calCell f => exact hs.actCalCell f
  case calBridge f => exact hs.actCalBridge f
  case calReferenceZero f => exact hs.actCalReferenceZero f
  case arrival l t k => exact hs.actArrival l t k
  case laneTakeover l => exact hs.actLaneTakeover l
  case laneRelease l => exact hs.actLaneRelease l
  case laneRetry l => exact hs.actLaneRetry l
  case laneBackout l => exact hs.actLaneBackout l
  case barrierCommand l b c => exact hs.actBarrierCommand l b c
  case barrierReset b => exact hs.actBarrierReset b
  case weightRead x => exact same (act_weightRead x s)
  case zeroNow b => exact hs.actZeroNow b
  case zeroWaive b => exact hs.actZeroWaive b
  case channelRead x => exact same (act_channelRead x s)
  case channelClear x => exact hs.actChannelClear x
  case permitAnswer f => exact hs.actPermitAnswer f
  case invalidate c a t => exact hs.actInvalidate c a t
  case creditSet a c x => exact hs.actCreditSet a c x
  case refusalClear r o => exact hs.actRefusalClear r o
  case refusalMask x => exact hs.actRefusalMask x
  case visitRead k o => exact same (act_visitRead k o s)
  case visitCancel k o => exact hs.actVisitCancel k o
  case tareWrite f => exact hs.actTareWrite f
  case tareDelete t => exact hs.actTareDelete t
  case tareRead k o => exact same (act_tareRead k o s)
  case ticketRead n => exact same (act_ticketRead n s)
  case ticketCollect n => exact hs.actTicketCollect n
  case ticketBase n => exact hs.actTicketBase n

end Sys2Proof.Machine
end

-- ==== Proofs of family 03: captures and weighing visits under every command, settled ====
section
/-! Every command keeps captures and weighing visits together, and a reset leaves neither (O9). -/

namespace Sys2Proof.Machine

variable {s t : State}

/-- Captures and weighing visits stand as R43, R95 and R145 have them, the visits while the part runs. -/
structure State.Weighs (s : State) : Prop where
  ordered : s.Ordered
  weighed : s.powered = true → s.WeighedBut none

theorem State.Steady.weighs (hs : s.Steady) : s.Weighs := ⟨hs.ordered, fun _ => hs.weighed⟩

theorem State.Weighs.steady (hs : s.Weighs) (hv : s.VisitsHeld) (hp : s.powered = true) : s.Steady :=
  ⟨hs.ordered, hv, hs.weighed hp⟩

theorem State.Weighs.eased (hs : s.Weighs) (e : Eases (fun _ => True) s t) (hp : t.powered = s.powered) : t.Weighs :=
  ⟨e.ordered hs.ordered, fun h => e.weighedBut (hs.weighed (hp ▸ h))⟩

theorem State.Weighs.of_same {ps : List Part} (hs : s.Weighs) (h : SameBut ps s t) (hp : ps ⊆ restParts := by decide)
    (hr : Part.powered ∉ ps := by decide) : t.Weighs := hs.eased (.of_same h hp) (h .powered hr)

theorem State.Weighs.transmit (hs : s.Weighs) : s.transmit.Weighs := hs.of_same (SameBut.refl s []).transmit

/-! ### Reset and loss of power (R38, R56, R156, R183, R184) -/

/-- No visit that the start-up check leaves is in a weighing state. -/
theorem Retained.checked_offScale (r : Retained) : ∀ v ∈ r.checked.visits.records, ¬ v.state.onScale := by
  intro v hv
  cases h : r.intact with
  | false =>
    rw [Retained.checked_lost h] at hv
    cases hv
  | true =>
    rw [Retained.checked_intact h] at hv
    obtain ⟨w, _, hw⟩ := List.mem_filterMap.mp hv
    unfold Visit.repaired at hw
    split at hw
    all_goals cases hw
    · exact fun k => k.elim nofun nofun
    · exact fun k => k.elim nofun nofun
    · next h => exact fun k => by simp [VisitState.onScale, h] at k
    · next h => exact fun k => by simp [VisitState.onScale, h] at k
    · next h => exact fun k => by simp [VisitState.onScale, h] at k

theorem State.bare_captured (s : State) (r : Retained) (b : BridgeNo) : (s.bare r).captured b = none := by
  unfold State.captured
  rw [State.bare_capture]
  rfl

theorem State.bare_ordered (s : State) (r : Retained) : (s.bare r).Ordered where
  captures b n l h := by
    rw [State.bare_captured] at h
    cases h
  nodup := List.nodup_nil
  listed _ h := by cases h
  asking l h := by
    rw [State.bare_slot] at h
    cases h

/-- The start-up reports, the high-water test and the drain at release disturb nothing. -/
theorem Eases.started (hs : s.Ordered) (c : ResetCause) (kept : Bool) : Eases (fun _ => True) s (s.started c kept) := by
  have h1 : Eases (fun _ => True) s (s.report (.resetDone c kept s.laneHold s.ret.calCounter)) := .report s _
  have h2 : ∀ t : State, Eases (fun _ => True) t (if kept then t else t.report .backupLost) :=
    fun t => .ite (fun _ => .refl t) (fun _ => .report t _)
  have h3 : ∀ t : State, Eases (fun _ => True) t (if t.failing then t.report (.powerFail t.ret.clock 0) else t) :=
    fun t => .ite (fun _ => .report t _) (fun _ => .refl t)
  have h4 : ∀ t : State, Eases (fun _ => True) t t.reportFaults.testHigh :=
    fun t => (Eases.of_same t.reportFaults_same).trans (.testHigh _)
  exact (((h1.trans (h2 _)).trans (h3 _)).trans (h4 _)).then hs
    (fun ht => .ite (fun _ => (Eases.drain ht).trans (.seal _)) (fun _ => .refl _))

theorem State.resetPart_weighs (s : State) (c : ResetCause) : (s.resetPart c).Weighs := by
  have hb := s.bare_ordered s.ret.checked
  have e := Eases.started hb c s.ret.intact
  exact ⟨e.ordered hb, fun _ => e.weighedBut (fun v hv ho => absurd ho (s.ret.checked_offScale v hv))⟩

/-- Main power goes: no capture is left, and what the table says of weighing waits for the repair at the reset. -/
theorem State.dark_weighs (s : State) : s.dark.Weighs := by
  have hb := s.bare_ordered s.ret
  exact ⟨⟨hb.captures, hb.nodup, hb.listed, hb.asking⟩, nofun⟩

/-! ### Time -/

theorem State.tick_captured (s : State) (b : BridgeNo) : s.tick.captured b = s.captured b := by
  unfold State.captured
  rw [State.tick_bridge]
  cases h : (s.bridge b).capture with
  | none => simp [Bridge.tick, h]
  | some k => simp [Bridge.tick, h]

theorem Eases.tick (s : State) : Eases (fun _ => True) s s.tick := by
  refine .of_captured s.tick_captured (fun l _ => ⟨rfl, ?_, ?_, fun _ h => h⟩) (fun v hv ho => ⟨v, hv, rfl, ho⟩) id
    (fun l h => .inr ⟨h, ?_⟩) (fun l h => .inr ⟨?_, ?_⟩)
  · rw [State.tick_lane]
    exact id
  · rw [State.tick_lane]
    rfl
  · rw [State.tick_lane]
    rfl
  · rw [State.tick_slot] at h
    exact h
  · rw [State.tick_lane]
    rfl

/-! ### The commands -/

theorem State.Steady.of_takesOne (hs : s.Steady) (h : TakesOne s t) : t.Steady := by
  rcases h with ⟨f, rfl⟩ | ⟨r, f, g, rfl⟩
  · exact hs.onLink f
  · exact ((hs.onLink f).act r).onLink g

/-- An event keeps the order when its rule does, and does nothing with main power off. -/
theorem State.Weighs.ran {f : State → State} (hs : s.Weighs) (hv : s.VisitsHeld) (h : s.run f = .next t)
    (hf : s.Steady → (f s).Weighs) : t.Weighs := by
  obtain rfl : _ = t := by simpa [State.run] using h
  split
  · next hp => exact (hf (hs.steady hv hp)).transmit
  · exact hs

theorem State.Weighs.run {f : State → State} (hs : s.Weighs) (hv : s.VisitsHeld) (h : s.run f = .next t)
    (hf : s.Steady → (f s).Steady) : t.Weighs := hs.ran hv h (fun k => (hf k).weighs)

theorem State.Weighs.runPins {p : Pins → Pins} {f : State → State} (hs : s.Weighs) (hv : s.VisitsHeld)
    (h : s.runPins p f = .next t) (hf : ∀ u : State, u.Steady → (f u).Steady) : t.Weighs := by
  obtain rfl : _ = t := by simpa [State.runPins] using h
  split
  · next hp => exact (hf _ ((hs.steady hv hp).of_same (s.onPins_same p))).weighs.transmit
  · exact hs.of_same (s.onPins_same p)

/-- The end of the reply to RESET resets the part (R196). -/
theorem State.endTransmission_resets (h : s.resetsAt .transmitFrameEnd = true) :
    ∃ u : State, s.endTransmission = u.resetPart .request := by
  unfold State.resetsAt at h
  simp only at h
  split at h
  · next r hr =>
    have hb : r.body = .resetAccepted := by simpa using h
    refine ⟨(s.onLink (fun k => { k with sending := none })).onLink (fun k => { k with current := none }), ?_⟩
    simp only [State.endTransmission, hr, State.frameSent, State.replySent, hb]
  · cases h

theorem State.Weighs.endTransmission (hs : s.Steady) : s.endTransmission.Weighs := by
  cases h : s.resetsAt .transmitFrameEnd with
  | false => exact (hs.of_takesOne (.endTransmission s h)).weighs
  | true =>
    obtain ⟨u, hu⟩ := State.endTransmission_resets h
    rw [hu]
    exact u.resetPart_weighs _

theorem State.Weighs.receive (hs : s.Weighs) (hv : s.VisitsHeld) (r : Request) (h : s.receive r = .next t) : t.Weighs :=
  hs.run hv h (fun k => k.of_takesOne (.frameArrives s _))

theorem State.Weighs.exec {c : Instr} (hs : s.Weighs) (hv : s.VisitsHeld) (h : Machine.exec c s = .next t) :
    t.Weighs := by
  cases c
  case identify | statusRead | reset | configLane | configBridgeTiming | configStream | configTimers | calDeckMap |
      calCell | calBridge | calReferenceZero | timeSet | arrival | laneTakeover | laneRelease | laneRetry |
      laneBackout | barrierCommand | barrierReset | weightRead | zeroNow | zeroWaive | channelRead | channelClear |
      permitAnswer | invalidate | creditSet | cacheRead | refusalRead | refusalClear | refusalMask | visitRead |
      visitCancel | tareWrite | tareDelete | tareRead | ticketRead | ticketCollect | ticketBase =>
    exact hs.receive hv _ h
  all_goals
    simp only [Machine.exec, execHostFrameReceived, execHostFrameGapTimeout, execTransmitFrameEnd, execSampleArrival,
      execCellFrameGapTimeout, execStallTimerExpiry, execFreshnessExpiry, execZeroTimerExpiry,
      execCaptureDeadlineExpiry, execMotionTimerExpiry, execIdentityTimerExpiry, execEntryTimerExpiry,
      execAgingTimerExpiry, execQueryDeadlineExpiry, execClockTick, execMetrologyInputChange,
      execMetrologySwitchChange, execEndSwitchInputChange, execEndSwitchChange, execSafetyLoopOccupied,
      execSafetyLoopInputInactive, execSafetyLoopClear, execApproachLoopOccupied, execApproachLoopInputInactive,
      execApproachLoopClear, execBeamBroken, execBeamInputClear, execBeamClear, execPowerFailAssert,
      execPowerFailInputInactive, execPowerFailDeassert, execLoadCellByteReceived, execHostLinkByteReceived,
      execMainPowerLoss, execBackupSupplyFailure, execResetInput] at h
  case hostFrameReceived k p =>
    refine hs.run hv h (fun k => k.of_takesOne ?_)
    split
    · exact .frameArrives s _
    · exact .onLink s _
  case hostFrameGapTimeout => exact hs.run hv h (fun k => k.onLink _)
  case transmitFrameEnd => exact hs.ran hv h State.Weighs.endTransmission
  case hostLinkByteReceived b e => exact hs.run hv h (fun k => k.of_takesOne (.hostByte s b e))
  case loadCellByteReceived c b e => exact hs.run hv h (fun k => k.cellByte c b e)
  case sampleArrival c n st => exact hs.run hv h (fun k => k.sampleArrives c _ st)
  case cellFrameGapTimeout c => exact hs.run hv h (fun k => k.onChannel c _)
  case stallTimerExpiry c => exact hs.run hv h (fun k => k.stallExpired c)
  case freshnessExpiry d => exact hs.run hv h (fun k => k.freshnessExpired d)
  case zeroTimerExpiry b => exact hs.run hv h (fun k => k.zeroTimerExpired b)
  case captureDeadlineExpiry b => exact hs.run hv h (fun k => k.captureExpired b)
  case motionTimerExpiry b => exact hs.run hv h (fun k => k.motionExpired b)
  case identityTimerExpiry l => exact hs.run hv h (fun k => k.identityExpired l)
  case entryTimerExpiry l => exact hs.run hv h (fun k => k.entryTimerExpired l)
  case agingTimerExpiry => exact hs.run hv h (fun k => k.onAdm _)
  case queryDeadlineExpiry l => exact hs.run hv h (fun k => k.deadlineExpired l)
  case metrologySwitchChange => exact hs.run hv h (fun k => k.of_same (s.metrology_same _))
  case endSwitchChange b w => exact hs.run hv h (fun k => k.switchHeld b w)
  case safetyLoopClear b => exact hs.run hv h (fun k => k.safetyClear b)
  case approachLoopClear a => exact hs.run hv h (fun k => k.approachClear a)
  case beamClear m => exact hs.run hv h (fun k => k.of_same (s.onBeam_same m _))
  case powerFailDeassert => exact hs.run hv h (fun k => .ite (fun _ => k.powerRestored) (fun _ => k))
  case metrologyInputChange b =>
    exact hs.runPins hv h (fun u k => .ite (fun _ => k) (fun _ => k.of_same (u.metrology_same _)))
  case endSwitchInputChange b w a => exact hs.runPins hv h (fun u k => .ite (fun _ => k) (fun _ => k.onBarrier b _))
  case safetyLoopOccupied b i => exact hs.runPins hv h (fun u k => k.safetyActive b)
  case safetyLoopInputInactive b => exact hs.runPins hv h (fun u k => k.onBarrier b _)
  case approachLoopOccupied a i => exact hs.runPins hv h (fun u k => k.approachActive a)
  case approachLoopInputInactive a => exact hs.runPins hv h (fun u k => k.onLoop a _)
  case beamBroken m => exact hs.runPins hv h (fun u k => k.of_same (u.onBeam_same m _))
  case beamInputClear m => exact hs.runPins hv h (fun u k => k.of_same (u.onBeam_same m _))
  case powerFailAssert => exact hs.runPins hv h (fun u k => k.powerFailing)
  case powerFailInputInactive => exact hs.runPins hv h (fun u k => k.powerFail _)
  case resetInput x =>
    injection h with h
    subst h
    exact (State.resetPart_weighs _ _).transmit
  case mainPowerLoss =>
    injection h with h
    subst h
    split
    · exact s.dark_weighs
    · exact hs
  case clockTick =>
    injection h with h
    subst h
    exact hs.eased (.onRet s _) rfl
  case backupSupplyFailure =>
    injection h with h
    subst h
    split
    · exact hs
    · exact hs.eased (.onRet s _) rfl

theorem State.Weighs.step (hs : s.Weighs) (hv : s.VisitsHeld) (h : Machine.step s = .next t) : t.Weighs := by
  unfold Machine.step at h
  split at h
  · injection h with h
    subst h
    split
    · exact hs.eased (.tick s) rfl
    · exact hs
  · next c rest _ =>
    have hs' : State.Weighs { s with pending := rest } :=
      ⟨⟨hs.ordered.captures, hs.ordered.nodup, hs.ordered.listed, hs.ordered.asking⟩, hs.weighed⟩
    exact hs'.exec hv h

/-! ### The statement's own terms -/

theorem State.captured_iff {b : BridgeNo} {n : Nat} {l : LaneNo} :
    s.captured b = some (n, l) ↔ ∃ k, (s.bridge b).capture = some k ∧ k.visit = n ∧ k.lane = l := by
  unfold State.captured
  rw [Option.map_eq_some_iff]
  simp only [Prod.mk.injEq]

theorem State.weighs_of_held (hq : s.QueriesHeld) (hf : s.SiteFullHeld) (hc : s.CapturesHeld) (hw : s.WeighingHeld) :
    s.Weighs := by
  obtain ⟨hnodup, hlist⟩ := hf
  refine ⟨⟨fun b n l h => ?_, hnodup, fun l h => (hlist l).1.mp h, fun l h => (hq l).1.mpr h⟩, fun hp v hv ho _ => ?_⟩
  · obtain ⟨k, hk, rfl, rfl⟩ := State.captured_iff.mp h
    exact hc b k hk
  · obtain ⟨b, k, hk, hn, hl⟩ := hw hp v hv ho
    exact ⟨b, k.lane, State.captured_iff.mpr ⟨k, hk, hn, rfl⟩, hl⟩

theorem State.Weighs.capturesHeld (hs : s.Weighs) : s.CapturesHeld :=
  fun b k hk => hs.ordered.captures b k.visit k.lane (State.captured_of hk)

theorem State.Weighs.weighingHeld (hs : s.Weighs) : s.WeighingHeld := by
  intro hp v hv ho
  obtain ⟨b, l, hc, hl⟩ := hs.weighed hp v hv ho nofun
  obtain ⟨k, hk, hn, rfl⟩ := State.captured_iff.mp hc
  exact ⟨b, k, hk, hn, hl⟩

end Sys2Proof.Machine

open Sys2Proof Sys2Proof.Machine

/-- Settles O9: every rule of an event keeps captures, the grants and lanes they rest on, and the weighing visits
together. -/
theorem weighingVisitsHoldTheBridge : Obligations.WeighingVisitsHoldTheBridge := by
  unfold Obligations.WeighingVisitsHoldTheBridge
  intro s t hq hf hv hc hw h
  have ht : t.Weighs := (State.weighs_of_held hq hf hc hw).step hv h
  exact ⟨ht.capturesHeld, ht.weighingHeld⟩

end

-- ==== Proofs of family 03: retry and backout ====
section
/-! LANE_RETRY and LANE_BACKOUT (O36): a request taken in CAPTURE_FAILED starts a capture or raises the front barrier. -/

namespace Sys2Proof.Machine

section
variable {s : State} {l : LaneNo} {b : BridgeNo} {n : Nat} {x : Byte}

/-! ### The new capture (R43, R91) -/

theorem State.startOwnCapture_begun (hb : (s.config l).bridge = some b) (hn : (s.lane l).visit = some n)
    (h : s.canStartCapture l b = true) : s.startOwnCapture l = s.captureBegun l b n := by
  simp only [State.startOwnCapture, hb, hn]
  exact State.startCapture_begun h

theorem State.captureBegun_bridge (s : State) (l : LaneNo) (b : BridgeNo) (n : Nat) :
    (s.captureBegun l b n).bridge b = { s.bridge b with capture := some (s.freshCapture l b n) } :=
  s.onBridge_bridge b (fun x => { x with capture := some (s.freshCapture l b n) })

theorem State.captureBegun_bridge_ne (s : State) (l : LaneNo) {b o : BridgeNo} (n : Nat) (h : o ≠ b) :
    (s.captureBegun l b n).bridge o = s.bridge o :=
  s.onBridge_bridge_ne (fun x => { x with capture := some (s.freshCapture l b n) }) (Ne.symm h)

/-- The visit of a new capture goes into its weighing state (R148). -/
theorem State.captureBegun_visitOf {v : Visit} (hv : s.visitOf n = some v) (l : LaneNo) (b : BridgeNo) :
    (s.captureBegun l b n).visitOf n = some { v with state := v.state.weighing } :=
  State.onVisit_visitOf (s := s.onBridge b (fun x => { x with capture := some (s.freshCapture l b n) }))
    (f := fun v => { v with state := v.state.weighing }) (fun _ => rfl) hv

/-- A capture has started for the lane, which has gone to WEIGHING. -/
def State.weighingBegun (s : State) (l : LaneNo) (b : BridgeNo) (n : Nat) : State :=
  (s.captureBegun l b n).enterState l .weighing none

theorem State.weighingBegun_same (s : State) (l : LaneNo) (b : BridgeNo) (n : Nat) :
    SameBut [.lanes, .bridges, .visits, .reports] s (s.weighingBegun l b n) :=
  ((s.captureBegun_same l b n).mono (by decide)).then (State.enterState_same _ l _ _)

theorem State.weighingBegun_lane (h : (s.lane l).state = .captureFailed) :
    (s.weighingBegun l b n).lane l = (s.lane l).entering .weighing s.identityTime := by
  have hl : (s.captureBegun l b n).lane l = s.lane l := (s.captureBegun_same l b n).lane l
  unfold State.weighingBegun
  rw [State.enterState_lane (by rw [hl, h]; decide), hl]
  rfl

theorem State.weighingBegun_lane_ne {m : LaneNo} (h : m ≠ l) : (s.weighingBegun l b n).lane m = s.lane m :=
  (State.enterState_others _ h _ _).trans ((s.captureBegun_same l b n).lane m)

theorem State.weighingBegun_bridge (s : State) (l : LaneNo) (b o : BridgeNo) (n : Nat) :
    (s.weighingBegun l b n).bridge o = (s.captureBegun l b n).bridge o := (State.enterState_same _ l _ _).bridge o

theorem State.weighingBegun_visitOf (s : State) (l : LaneNo) (b : BridgeNo) (n : Nat) :
    (s.weighingBegun l b n).visitOf n = (s.captureBegun l b n).visitOf n := (State.enterState_same _ l _ _).visitOf n

theorem actLaneRetry_accepted (hx : ofByte 4 x = some l) (hp : s.failing = false)
    (hl : (s.lane l).state = .captureFailed) (hb : (s.config l).bridge = some b) (hn : (s.lane l).visit = some n)
    (hg : (s.grant b).holder = some l) (hc : (s.bridge b).capture = none) :
    actLaneRetry x s = (s.weighingBegun l b n).seal.accepted (.laneState .weighing) := by
  have hstart := State.startOwnCapture_begun hb hn (State.canStartCapture_iff.mpr ⟨hg, hc, hp⟩)
  have hst : ((s.weighingBegun l b n).seal.lane l).state = .weighing := State.enterState_state _ l _ _
  simp only [actLaneRetry, hx, hp, hl, hstart, Bool.false_eq_true, if_false, ne_eq, not_true_eq_false]
  exact congrArg (fun st => (s.weighingBegun l b n).seal.accepted (.laneState st)) hst

theorem actLaneRetry_busy (hx : ofByte 4 x = some l) (hp : s.failing = false)
    (hl : (s.lane l).state ≠ .captureFailed) : actLaneRetry x s = s.refused .laneBusy := by
  simp [actLaneRetry, hx, hp, hl]

/-! ### The backout (R92) -/

/-- The front barrier is raised for the vehicle, and the lane goes to BACKING_OUT. -/
def State.backoutBegun (s : State) (l : LaneNo) : State := (s.raiseFront l).enterState l .backingOut none

theorem State.backoutBegun_same (s : State) (l : LaneNo) :
    SameBut [.lanes, .barriers, .reports] s (s.backoutBegun l) :=
  ((s.raiseFront_same l).mono (by decide)).then (State.enterState_same _ l _ _)

theorem State.raiseFront_state (s : State) (l : LaneNo) : ((s.raiseFront l).lane l).state = (s.lane l).state := by
  unfold State.raiseFront
  split
  · rfl
  · simp [State.commandRaise]

theorem State.raiseFront_others (s : State) {l m : LaneNo} (h : m ≠ l) : (s.raiseFront l).lane m = s.lane m := by
  unfold State.raiseFront
  split
  · rfl
  · simp [State.commandRaise, State.onLane_lane_ne _ _ (Ne.symm h)]

/-- The front crossing mark starts at a raise as its loop stands (R78). -/
theorem State.raiseFront_mark {f : BarrierNo} (h : (s.config l).front = some f) :
    ((s.raiseFront l).lane l).frontMark = if (s.barrier f).occupied then .seen else .none := by
  rw [State.raiseFront_some h]
  simp [CrossingMark.atRaise]

theorem State.raiseFront_barrier {f : BarrierNo} (h : (s.config l).front = some f) :
    (s.raiseFront l).barrier f = (s.barrier f).raise s.motionTime := by
  rw [State.raiseFront_some h]
  simp [State.commandRaise]

theorem State.raiseFront_barrier_ne {f : BarrierNo} (h : (s.config l).front ≠ some f) :
    (s.raiseFront l).barrier f = s.barrier f := by
  unfold State.raiseFront
  split
  · rfl
  · next g hg =>
    have hne : g ≠ f := fun e => h (e ▸ hg)
    simp [State.commandRaise, State.onBarrier_barrier_ne _ _ hne]

theorem State.backoutBegun_lane (h : (s.lane l).state = .captureFailed) :
    (s.backoutBegun l).lane l = ((s.raiseFront l).lane l).entering .backingOut (s.raiseFront l).identityTime :=
  State.enterState_lane (by rw [State.raiseFront_state, h]; decide) _

theorem State.backoutBegun_lane_ne {m : LaneNo} (h : m ≠ l) : (s.backoutBegun l).lane m = s.lane m :=
  (State.enterState_others _ h _ _).trans (s.raiseFront_others h)

theorem State.backoutBegun_barrier (s : State) (l : LaneNo) (f : BarrierNo) :
    (s.backoutBegun l).barrier f = (s.raiseFront l).barrier f := (State.enterState_same _ l _ _).barrier f

theorem actLaneBackout_accepted (hx : ofByte 4 x = some l) (hp : s.failing = false)
    (hl : (s.lane l).state = .captureFailed) :
    actLaneBackout x s = (s.backoutBegun l).accepted (.laneState .backingOut) := by
  have hst : ((s.backoutBegun l).lane l).state = .backingOut := State.enterState_state _ l _ _
  simp only [actLaneBackout, hx, hp, hl, Bool.false_eq_true, if_false, ne_eq, not_true_eq_false]
  exact congrArg (fun st => (s.backoutBegun l).accepted (.laneState st)) hst

theorem actLaneBackout_busy (hx : ofByte 4 x = some l) (hp : s.failing = false)
    (hl : (s.lane l).state ≠ .captureFailed) : actLaneBackout x s = s.refused .laneBusy := by
  simp [actLaneBackout, hx, hp, hl]

end

end Sys2Proof.Machine

open Sys2Proof Sys2Proof.Machine

/-- Settles O36: in CAPTURE_FAILED each request comes to one change of the lane with its bridge or its barrier; elsewhere
both are turned away. -/
theorem retryAndBackoutAfterAFailure : Obligations.RetryAndBackoutAfterAFailure := by
  unfold Obligations.RetryAndBackoutAfterAFailure
  intro x l s hs hx hp
  refine ⟨fun b n hl hb hn hg hc => ?retry, fun hl => ?backout, fun hl => ⟨?retryBusy, ?backoutBusy⟩⟩
  case retry =>
    obtain ⟨t, hex, hans, rfl⟩ := State.receive_taken hs (r := .laneRetry x) (by simp)
      (actLaneRetry_accepted (s := s.hunting) hx hp hl hb hn hg hc)
    have hend := fun r => (((s.hunting.weighingBegun l b n).seal_same.mono (by decide)).then
      (State.setReply_same (s.hunting.weighingBegun l b n).seal r) (ps := [.checkWord, .reply])).transmit
    have hlane := State.weighingBegun_lane (s := s.hunting) (b := b) (n := n) hl
    have hbridge := s.hunting.captureBegun_bridge l b n
    refine ⟨_, hex, hans, ?_, ?_, ?_, fun o ho => ?_, fun v hv hst => ?_, fun v hv hst => ?_, ?_, ?_, fun m hm => ?_, ?_⟩
    · rw [(hend _).lane l, hlane]
      rfl
    · rw [(hend _).bridge b, State.weighingBegun_bridge, hbridge]
      rfl
    · rw [(hend _).bridge b, State.weighingBegun_bridge, hbridge]
      exact congrArg (fun c => { s.bridge b with capture := c }) hc.symm
    · rw [(hend _).bridge o, State.weighingBegun_bridge, State.captureBegun_bridge_ne _ _ _ ho]
      rfl
    · rw [(hend _).visitOf n, State.weighingBegun_visitOf, State.captureBegun_visitOf (by exact hv), hst]
      rfl
    · rw [(hend _).visitOf n, State.weighingBegun_visitOf, State.captureBegun_visitOf (by exact hv), hst]
      rfl
    · rw [(hend _).lane l, hlane]
      rfl
    · rw [(hend _).lane l, hlane]
      rfl
    · rw [(hend _).lane m, State.weighingBegun_lane_ne hm]
      rfl
    · exact (State.taken_same (ps := [.lanes, .bridges, .visits, .reports, .checkWord])
        (((State.weighingBegun_same _ l b n).mono (by decide)).then (State.seal_same _)) _)
  case backout =>
    obtain ⟨t, hex, hans, rfl⟩ := State.receive_taken hs (r := .laneBackout x) (by simp)
      (actLaneBackout_accepted (s := s.hunting) hx hp hl)
    have hend := fun r => ((s.hunting.backoutBegun l).setReply_same r).transmit
    have hlane := State.backoutBegun_lane (s := s.hunting) hl
    refine ⟨_, hex, hans, ?_, ?_, fun b hb => ⟨?_, ?_⟩, fun b hb => ?_, fun m hm => ?_, ?_⟩
    · rw [(hend _).lane l, hlane]
      rfl
    · rw [(hend _).lane l, hlane]
      rfl
    · rw [(hend _).barrier b, State.backoutBegun_barrier, State.raiseFront_barrier (by exact hb)]
      rfl
    · rw [(hend _).lane l, hlane]
      exact State.raiseFront_mark (s := s.hunting) hb
    · rw [(hend _).barrier b, State.backoutBegun_barrier, State.raiseFront_barrier_ne (by exact hb)]
      rfl
    · rw [(hend _).lane m, State.backoutBegun_lane_ne hm]
      rfl
    · exact State.taken_same (State.backoutBegun_same _ l) _
  case retryBusy =>
    exact State.receive_turned hs (r := .laneRetry x) (by simp) (actLaneRetry_busy (s := s.hunting) hx hp hl)
  case backoutBusy =>
    exact State.receive_turned hs (r := .laneBackout x) (by simp) (actLaneBackout_busy (s := s.hunting) hx hp hl)

end

-- ==== Proofs of family 03: the completion of an inbound capture ====
section
/-! The completion of an inbound capture by an evaluation (O51): the record, the visit, and the lane's way to LEAVING. -/

namespace Sys2Proof.Machine

section
variable {s : State} {l : LaneNo} {b : BridgeNo} {k : Capture} {v : Visit} {r : BarrierNo}

/-! ### The departure (R88) -/

/-- The rear crossing mark starts at a raise as its loop stands (R78). -/
theorem State.raiseRear_some (h : (s.config l).rear = some r) :
    s.raiseRear l = (s.commandRaise r).onLane l (fun n => { n with rearMark := .atRaise (s.barrier r).occupied }) := by
  simp [State.raiseRear, h]

theorem State.raiseRear_same (s : State) (l : LaneNo) : SameBut [.barriers, .lanes] s (s.raiseRear l) := by
  unfold State.raiseRear
  split
  · exact .refl s _
  · exact ((s.onBarrier_same _ _).mono (by decide)).then (State.onLane_same _ _ _)

theorem State.exitVisit_inbound (h : (s.config l).role = .inbound) : s.exitVisit l = s := by
  unfold State.exitVisit
  split
  · rfl
  · rw [if_neg (by rw [h]; decide)]

/-- An inbound visit stays as it is at its lane's departure. -/
theorem State.enterLeaving_inbound (h : (s.config l).role = .inbound) :
    s.enterLeaving l = (s.raiseRear l).enterState l .leaving none := by
  have hc : ((s.raiseRear l).config l).role = .inbound := by rw [(s.raiseRear_same l).config l]; exact h
  rw [State.enterLeaving_eq, State.exitVisit_inbound hc]

theorem State.enterLeaving_same (h : (s.config l).role = .inbound) :
    SameBut [.barriers, .lanes, .reports] s (s.enterLeaving l) := by
  rw [State.enterLeaving_inbound h]
  exact ((s.raiseRear_same l).mono (by decide)).then (State.enterState_same _ l _ _)

/-- The lane in LEAVING: its signal is RED, its rear mark as the loop stands; it keeps the rest. -/
theorem State.enterLeaving_lane (h : (s.config l).role = .inbound) (hr : (s.config l).rear = some r)
    (hl : (s.lane l).state = .weighing) :
    (s.enterLeaving l).lane l =
      { s.lane l with
        state := .leaving, signal := .red, rearMark := if (s.barrier r).occupied then .seen else .none } := by
  have hx : (s.raiseRear l).lane l = { s.lane l with rearMark := .atRaise (s.barrier r).occupied } := by
    rw [State.raiseRear_some hr]
    simp [State.commandRaise]
  rw [State.enterLeaving_inbound h, State.enterState_lane (by rw [hx]; simp [hl]), hx]
  simp [Lane.entering, signalFor, hl, CrossingMark.atRaise]

theorem State.enterLeaving_lane_ne (h : (s.config l).role = .inbound) {m : LaneNo} (hm : m ≠ l) :
    (s.enterLeaving l).lane m = s.lane m := by
  rw [State.enterLeaving_inbound h, State.enterState_others _ hm]
  unfold State.raiseRear
  split
  · rfl
  · simp [State.commandRaise, State.onLane_lane_ne _ _ (Ne.symm hm)]

theorem State.enterLeaving_barrier (h : (s.config l).role = .inbound) (hr : (s.config l).rear = some r) (o : BarrierNo) :
    (s.enterLeaving l).barrier o = if o = r then (s.barrier r).raise s.motionTime else s.barrier o := by
  rw [State.enterLeaving_inbound h, (State.enterState_same _ l _ _).barrier o, State.raiseRear_some hr,
    (State.onLane_same _ _ _).barrier o]
  by_cases ho : o = r
  · simp [ho, State.commandRaise]
  · simp [ho, State.commandRaise, State.onBarrier_barrier_ne _ _ (Ne.symm ho)]

/-- A lane that has just left WEIGHING passes nothing at the same event: its rear mark is not yet at passed. -/
theorem State.testLane_departed (hl : (s.lane l).state = .leaving) (hm : (s.lane l).rearMark ≠ .passed) :
    s.testLane l = s := by
  simp [State.testLane, hl, hm]

/-! ### The completion (R45 to R49) -/

/-- With every condition of R45 met nothing blocks the capture. -/
theorem State.blocking_none {f : BarrierNo} (hst : (s.bridge b).state = .stable)
    (hrun : (s.timing b).hold ≤ (s.bridge b).run) (h1 : (s.beam ⟨2 * b.val, by omega⟩).broken = false)
    (h2 : (s.beam ⟨2 * b.val + 1, by omega⟩).broken = false) (hf : (s.config l).front = some f)
    (hd : (s.barrier f).state = .down) : s.blocking b l = none := by
  have hrun' : ¬ (s.bridge b).run < (s.timing b).hold := by omega
  simp [State.blocking, hst, hrun', State.beamsClear, h1, h2, hf, State.barrierIs, hd]

/-- The capture is done: its record is gone and CAPTURE_DONE is queued (R46, R49). -/
def State.captureDone (s : State) (b : BridgeNo) (k : Capture) : State :=
  (s.dropCapture b).report
    (.captureDone { bridge := b, lane := k.lane, visit := k.visit, start := k.start, record := s.weighingRecord b })

/-- The visit holds its first weighing and is ON_SITE (R148). -/
def State.firstWeighed (s : State) (b : BridgeNo) (k : Capture) : State :=
  (s.captureDone b k).onVisit k.visit (fun x => { x with state := .onSite, first := some (s.weighingRecord b) })

theorem State.firstWeighed_same (s : State) (b : BridgeNo) (k : Capture) :
    SameBut [.bridges, .reports, .visits] s (s.firstWeighed b k) :=
  (((s.onBridge_same b _).mono (by decide)).then (State.report_same _ _)).then (State.onVisits_same _ _)

theorem State.firstWeighed_bridge (s : State) (b o : BridgeNo) (k : Capture) :
    (s.firstWeighed b k).bridge o = if b = o then { s.bridge o with capture := none } else s.bridge o :=
  s.onBridge_bridge_at b o (fun x => { x with capture := none })

theorem State.firstWeighed_visitOf (hv : s.visitOf k.visit = some v) :
    (s.firstWeighed b k).visitOf k.visit =
      some { v with state := .onSite, first := some (s.weighingRecord b) } :=
  State.onVisit_visitOf (s := s.captureDone b k)
    (f := fun x => { x with state := .onSite, first := some (s.weighingRecord b) }) (fun _ => rfl) hv

theorem State.captureDone_voiced (h : s.link.reports.length < 32) :
    .captureDone { bridge := b, lane := k.lane, visit := k.visit, start := k.start, record := s.weighingRecord b } ∈
      (s.captureDone b k).voiced := by
  unfold State.captureDone
  rw [State.report_voiced (s.dropCapture b) _ h]
  exact List.mem_append_right _ List.mem_cons_self

theorem State.completeCapture_inbound (hv : s.visitOf k.visit = some v) (hst : v.state = .weighingIn)
    (ht : v.storedTare = false) (hl : (s.lane k.lane).state = .weighing) :
    s.completeCapture b k = (s.firstWeighed b k).enterLeaving k.lane := by
  have hn := State.visitOf_number hv
  have hfound : (s.captureDone b k).visitOf k.visit = some v := hv
  have htare : (s.captureDone b k).singlePassTare v = none := by simp [State.singlePassTare, ht]
  have hx : s.completeCapture b k = (s.captureDone b k).settleWeighing k.lane v (s.weighingRecord b) := by
    unfold State.captureDone at hfound ⊢
    simp only [State.completeCapture, hfound]
  rw [hx]
  simp only [State.settleWeighing, hst, htare, hn]
  exact if_pos hl

/-- The inbound capture is complete: the visit weighed, the lane on its way out (R88, R148). -/
def State.completed (s : State) (b : BridgeNo) (k : Capture) : State := (s.firstWeighed b k).enterLeaving k.lane

section
variable (hr : (s.config k.lane).role = .inbound)
include hr

theorem State.firstWeighed_inbound : ((s.firstWeighed b k).config k.lane).role = .inbound := by
  rw [(s.firstWeighed_same b k).config]
  exact hr

theorem State.completed_same :
    SameBut [.bridges, .reports, .visits, .barriers, .lanes] s (s.completed b k) :=
  ((s.firstWeighed_same b k).mono (by decide)).then (State.enterLeaving_same (State.firstWeighed_inbound hr))

theorem State.completed_bridge : (s.completed b k).bridge b = { s.bridge b with capture := none } := by
  unfold State.completed
  rw [(State.enterLeaving_same (State.firstWeighed_inbound hr)).bridge b, State.firstWeighed_bridge, if_pos rfl]

theorem State.completed_visitOf (hv : s.visitOf k.visit = some v) :
    (s.completed b k).visitOf k.visit =
      some { v with state := .onSite, first := some (s.weighingRecord b) } := by
  unfold State.completed
  rw [(State.enterLeaving_same (State.firstWeighed_inbound hr)).visitOf, State.firstWeighed_visitOf hv]

theorem State.completed_lane_ne {m : LaneNo} (hm : m ≠ k.lane) : (s.completed b k).lane m = s.lane m := by
  unfold State.completed
  rw [State.enterLeaving_lane_ne (State.firstWeighed_inbound hr) hm, (s.firstWeighed_same b k).lane m]

variable (hrear : (s.config k.lane).rear = some r)
include hrear

theorem State.completed_lane (hl : (s.lane k.lane).state = .weighing) :
    (s.completed b k).lane k.lane =
      { s.lane k.lane with
        state := .leaving, signal := .red, rearMark := if (s.barrier r).occupied then .seen else .none } := by
  have hsame := s.firstWeighed_same b k
  have h := State.enterLeaving_lane (State.firstWeighed_inbound (b := b) hr) (by rw [hsame.config]; exact hrear)
    (by rw [hsame.lane]; exact hl)
  rw [hsame.lane, hsame.barrier] at h
  exact h

theorem State.completed_barrier (o : BarrierNo) :
    (s.completed b k).barrier o = if o = r then (s.barrier r).raise s.motionTime else s.barrier o := by
  have hsame := s.firstWeighed_same b k
  have htime : (s.firstWeighed b k).motionTime = s.motionTime :=
    congrArg (fun x => x.timers.motion * 1000) (hsame .site (by decide))
  have h := State.enterLeaving_barrier (State.firstWeighed_inbound (b := b) hr) (by rw [hsame.config]; exact hrear) o
  rw [htime, hsame.barrier, hsame.barrier] at h
  exact h

end

/-- The report of the completion is among those not yet sent. -/
theorem State.completed_voiced (h : s.link.reports.length < 32) :
    .captureDone { bridge := b, lane := k.lane, visit := k.visit, start := k.start, record := s.weighingRecord b } ∈
      (s.completed b k).voiced :=
  (Moves.enterLeaving (s.firstWeighed b k) k.lane).reportsStay _ (State.captureDone_voiced h)

/-! ### What follows at the evaluation -/

/-- The lanes of the bridge rest when the capture's lane has gone to LEAVING and the others wait or are idle. -/
theorem State.testLanes_departed (hl : (s.lane l).state = .leaving) (hm : (s.lane l).rearMark ≠ .passed)
    (ho : ∀ m ∈ s.listing b, m ≠ l → (s.lane m).state = .awaitBridge ∨ (s.lane m).state = .idle) :
    forEach (s.listing b) (fun l s => s.testLane l) s = s := by
  refine forEach_eq_self (fun m h => ?_)
  by_cases hml : m = l
  · subst hml
    exact State.testLane_departed hl hm
  · rcases ho m h hml with hst | hst
    · simp [State.testLane, hst]
    · simp [State.testLane, hst]

theorem State.afterDecision_completes (hc : (s.bridge b).capture = some k) (hn : s.blocking b k.lane = none)
    (hv : s.visitOf k.visit = some v) (hst : v.state = .weighingIn) (ht : v.storedTare = false)
    (hl : (s.lane k.lane).state = .weighing) (hr : (s.config k.lane).role = .inbound)
    (hrear : (s.config k.lane).rear = some r)
    (ho : ∀ m ∈ s.listing b, m ≠ k.lane → (s.lane m).state = .awaitBridge ∨ (s.lane m).state = .idle) :
    s.afterDecision b = s.completed b k := by
  have htest : s.testCapture b = s.completed b k := by
    simp only [State.testCapture, hc, hn]
    exact State.completeCapture_inbound hv hst ht hl
  have hlane := State.completed_lane (b := b) hr hrear hl
  have hlist : (s.completed b k).listing b = s.listing b := by
    simp only [State.listing, (State.completed_same (b := b) hr).config]
  unfold State.afterDecision
  rw [htest]
  refine State.testLanes_departed (l := k.lane) (by rw [hlane]) ?_ (fun m hm hne => ?_)
  · rw [hlane]
    simp only
    split
    · decide
    · decide
  · rw [State.completed_lane_ne hr hne]
    exact ho m (hlist ▸ hm) hne

/-- The record that a completing evaluation with the weight `w` makes (R47). -/
def State.completionRecord (s : State) (b : BridgeNo) (w : Int) : WeighingRecord :=
  { weight := w, interval := (s.bridgeCal b).interval, bridge := b, decks := (s.bridgeCal b).members,
    time := s.ret.clock, calCounter := s.ret.calCounter,
    belowMin := decide (w.natAbs < 20 * (s.bridgeCal b).interval), zeroWaived := (s.bridge b).waived }

theorem State.EvaluatedBy.weighingRecord {u : State} {c : ChannelNo} {counts : BitVec 24} {d : DeckNo} {w : Int}
    {e : Evaluation} (hu : s.EvaluatedBy u c counts d b) (hw : e.weight = some w) :
    (u.evaluatedAlone b e).weighingRecord b = s.completionRecord b w := by
  have hsame := hu.alone_same (e := e)
  have hclock : (u.evaluatedAlone b e).ret.clock = s.ret.clock := (hsame .clock (by decide)).1
  have hcount : (u.evaluatedAlone b e).ret.calCounter = s.ret.calCounter := hsame .calCounter (by decide)
  have hweight : ((u.evaluatedAlone b e).bridge b).weight = some w := by rw [hu.alone_bridge]; exact hw
  have hwaived : ((u.evaluatedAlone b e).bridge b).waived = (s.bridge b).waived := by rw [hu.alone_bridge]; rfl
  simp [State.weighingRecord, State.completionRecord, hsame.bridgeCal b, hclock, hcount, hweight, hwaived]

/-- While a lane holds the bridge, the evaluation comes to its results and what follows from them. -/
theorem State.applyEvaluation_held {e : Evaluation} (h : (s.grant b).holder.isSome = true) :
    s.applyEvaluation b e = (s.evaluatedAlone b e).afterDecision b := by
  rw [State.applyEvaluation_afterDecision]
  exact congrArg (fun x => State.afterDecision x b)
    (State.zeroAndGrant_held (s := s.onBridge b (fun x => x.evaluated e)) h)

end

end Sys2Proof.Machine

open Sys2Proof Sys2Proof.Machine

/-- Settles O51: while the lane holds the bridge the evaluation takes no zero and grants nothing, so all that follows it is
the completion, and every lane of the bridge rests after it. -/
theorem captureCompletionWeighsTheVisit : Obligations.CaptureCompletionWeighsTheVisit := by
  unfold Obligations.CaptureCompletionWeighsTheVisit
  intro c counts d b l k v f r w s u hp hfail hd hlead hb hc hkl hg hl hlv hv hst htare hrole hfront hrear hdown hothers
    h1 h2 hu hstable hhold hw
  subst hkl
  have he : s.EvaluatedBy u c counts d b := ⟨hp, hd, hlead, hb, hu⟩
  have hsame := he.alone_same (e := u.evaluation b)
  have hbridge := he.alone_bridge (e := u.evaluation b)
  generalize hu' : u.evaluatedAlone b (u.evaluation b) = a at hsame hbridge
  have hrecord : a.weighingRecord b = s.completionRecord b w := hu' ▸ he.weighingRecord hw
  have hlink : a.link = s.link := hu' ▸ he.alone_link
  have hlane : ∀ m, a.lane m = s.lane m := fun m => hsame.lane m
  have hconfig : ∀ m, a.config m = s.config m := fun m => hsame.config m
  have hcap : (a.bridge b).capture = some k := by rw [hbridge]; exact hc
  have hbeam : ∀ m, a.beam m = s.beam m := fun m =>
    congrArg (fun x => x.read m) (show a.beams = s.beams from hsame .beams (by decide))
  have hblock : a.blocking b k.lane = none :=
    State.blocking_none (by rw [hbridge]; exact hstable) (by rw [hbridge, hsame.timing b]; exact hhold)
      (by rw [hbeam]; exact h1) (by rw [hbeam]; exact h2) (by rw [hconfig]; exact hfront)
      (by rw [hsame.barrier f]; exact hdown)
  have hrole' : (a.config k.lane).role = .inbound := by rw [hconfig]; exact hrole
  have hrear' : (a.config k.lane).rear = some r := by rw [hconfig]; exact hrear
  have hl' : (a.lane k.lane).state = .weighing := by rw [hlane]; exact hl
  have hv' : a.visitOf k.visit = some v := by rw [hsame.visitOf]; exact hv
  have hafter : a.afterDecision b = a.completed b k :=
    State.afterDecision_completes hcap hblock hv' hst htare hl' hrole' hrear' (fun m hm hne => by
      have hlist : a.listing b = s.listing b := by simp only [State.listing, hconfig]
      rw [hlane]
      exact hothers m (hlist ▸ hm) hne)
  have hexec : exec (.sampleArrival c counts .ok) s = .next ((a.completed b k).seal).transmit := by
    rw [he.exec, State.applyEvaluation_held (by rw [he.valued.grant b, hg]; rfl), hu', hafter]
  have hend := ((a.completed b k).seal_same).transmit
  have hleft := State.completed_lane (b := b) hrole' hrear' hl'
  rw [hlane, hsame.barrier] at hleft
  have hbar : ∀ o, ((a.completed b k).seal.transmit).barrier o =
      if o = r then (s.barrier r).raise s.motionTime else s.barrier o := fun o => by
    have htime : a.motionTime = s.motionTime := congrArg (fun x => x.timers.motion * 1000) (hsame .site (by decide))
    rw [hend.barrier o, State.completed_barrier hrole' hrear', hsame.barrier, hsame.barrier, htime]
  have hown : ((a.completed b k).seal.transmit).bridge b =
      { (s.bridge b).evaluated (u.evaluation b) with capture := none } := by
    rw [hend.bridge b, State.completed_bridge hrole', hbridge]
  refine ⟨_, s.completionRecord b w, hexec, rfl, ?visit, ?capture, ?zero, ?state, ?signal, ?serves, ?mark, ?rear,
    fun o ho => ?barriers, fun m hm => ?lanes, fun hr => ?report, ?frame⟩
  case visit => rw [hend.visitOf, State.completed_visitOf hrole' hv', hrecord]
  case capture => rw [hown]
  case zero => rw [hown]; rfl
  case state => rw [hend.lane, hleft]
  case signal => rw [hend.lane, hleft]
  case serves => rw [hend.lane, hleft]; exact hlv
  case mark => rw [hend.lane, hleft]
  case rear => rw [hbar, if_pos rfl]
  case barriers => rw [hbar, if_neg ho]
  case lanes => rw [hend.lane, State.completed_lane_ne hrole' hm, hlane]
  case report =>
    rw [State.transmit_voiced, State.seal_voiced, ← hrecord]
    exact State.completed_voiced (by rw [hlink]; omega)
  case frame =>
    have h := (hsame.trans (State.completed_same (b := b) hrole')).trans hend
    exact h.mono (by decide)

end

-- ==== Proofs of family 04: the lower drive over an occupied safety loop ====
section
/-! Every change of a command leaves the lower drive off over an OCCUPIED safety loop (R62, O6). -/

namespace Sys2Proof.Machine

theorem State.lowerSafe_iff {s : State} : s.LowerSafe ↔ ∀ b : BarrierNo, (s.barrier b).lowerOk := Iff.rfl

theorem Move.lowerSafe {s t : State} (h : Move s t) (hs : s.LowerSafe) : t.LowerSafe := by
  cases h with
  | barrier b f h =>
    refine State.lowerSafe_iff.mpr (fun o => ?_)
    rw [State.onBarrier_barrier_at]
    split
    · exact h _ (hs o)
    · exact hs o
  | _ => exact hs

theorem Change.lowerSafe {s t : State} (h : Change s t) (hs : s.LowerSafe) : t.LowerSafe := by
  cases h with
  | move h => exact h.lowerSafe hs
  | barriers x h => exact fun b => h b (hs b)
  | _ => exact hs

/-- The switches never show a barrier that moves (R72). -/
theorem Pins.barrierAtRelease_lowerOk (p : Pins) (b : BarrierNo) : (p.barrierAtRelease b).lowerOk := by
  intro _
  have := positionOf_not_lowering (p.upSwitch.read b) (p.downSwitch.read b)
  simpa [Pins.barrierAtRelease, Barrier.atRelease, Barrier.lowerDrive] using this

theorem Special.lowerSafe {s t : State} (h : Special s t) (hs : s.LowerSafe) : t.LowerSafe := by
  refine h.keep (P := State.LowerSafe) (fun m => m.lowerSafe) ?switch ?calibration ?powerFail ?bare hs
  case switch => exact fun _ _ hs => hs
  case calibration =>
    intro s u b f hs _ hc
    exact hc.keep (P := State.LowerSafe) (fun m => m.lowerSafe) hs
  case powerFail => exact fun _ _ hs => hs
  case bare =>
    intro s r _ _ powered
    refine State.lowerSafe_iff.mpr (fun b => ?_)
    change ((s.bare r).barrier b).lowerOk
    rw [State.bare_barrier]
    exact Pins.barrierAtRelease_lowerOk _ b

end Sys2Proof.Machine

open Sys2Proof Sys2Proof.Machine

/-- Settles O6: a step is a sequence of changes, and each keeps every lower drive off over its OCCUPIED loop. -/
theorem lowerDriveStaysOffOverAnOccupiedLoop : Obligations.LowerDriveStaysOffOverAnOccupiedLoop := by
  unfold Obligations.LowerDriveStaysOffOverAnOccupiedLoop
  exact fun s t hs h =>
    (Shape.step s t h).keep (P := State.LowerSafe) (fun m => m.lowerSafe) (fun m => m.lowerSafe) hs

end

-- ==== Proofs of family 04: BARRIER_COMMAND and BARRIER_RESET ====
section
/-! The tables of RAISE, LOWER and BARRIER_RESET, and the two requests that give them (O37, O38). -/

namespace Sys2Proof.Machine

/- One proof after another: the check compiles the whole text in one process, whose threads are limited. -/
set_option Elab.async false

/-! ### One barrier (R60, R61, R66) -/

section
variable {x : Barrier} {time : Nat}

theorem Barrier.raise_down (h : x.state = .down) :
    x.raise time = { x with state := .raising, motionTimer := some time } := by
  simp [Barrier.raise, h]

theorem Barrier.raise_lowering (h : x.state = .lowering) :
    x.raise time = { x with state := .raising, motionTimer := some time, pendingLower := false } := by
  simp [Barrier.raise, h]

theorem Barrier.raise_up (h : x.state = .up) : x.raise time = { x with pendingLower := false } := by
  simp [Barrier.raise, h]

theorem Barrier.raise_stands (h : x.state = .raising ∨ x.state = .fault) : x.raise time = x := by
  rcases h with h | h
  · simp [Barrier.raise, h]
  · simp [Barrier.raise, h]

theorem Barrier.lower_up_clear (h : x.state = .up) (ho : x.occupied = false) :
    x.lower time = { x with state := .lowering, motionTimer := some time, pendingLower := false } := by
  simp [Barrier.lower, h, ho, Barrier.startLowering]

theorem Barrier.lower_up_occupied (h : x.state = .up) (ho : x.occupied = true) :
    x.lower time = { x with pendingLower := true } := by
  simp [Barrier.lower, h, ho]

theorem Barrier.lower_raising (h : x.state = .raising) : x.lower time = { x with pendingLower := true } := by
  simp [Barrier.lower, h]

theorem Barrier.lower_stands (h : x.state = .down ∨ x.state = .lowering ∨ x.state = .fault) : x.lower time = x := by
  rcases h with h | h | h
  · simp [Barrier.lower, h]
  · simp [Barrier.lower, h]
  · simp [Barrier.lower, h]

/-- Two switches alike show no position: the barrier stays in FAULT with their reason (R66). -/
theorem Barrier.reset_alike (h : x.state = .fault) (hs : x.upActive = x.downActive) :
    x.reset =
      { x with pendingLower := false, reason := if x.upActive then .switchConflict else .unknownPosition } := by
  cases hu : x.upActive with
  | true => simp [Barrier.reset, h, positionOf, ← hs, hu]
  | false => simp [Barrier.reset, h, positionOf, ← hs, hu]

/-- One active switch shows the position (R66). -/
theorem Barrier.reset_apart (h : x.state = .fault) (hs : x.upActive ≠ x.downActive) :
    x.reset = { x with state := if x.upActive then .up else .down, pendingLower := false, reason := .none } := by
  cases hu : x.upActive with
  | true =>
    have hd : x.downActive = false := by simpa [hu] using hs.symm
    simp [Barrier.reset, h, positionOf, hu, hd]
  | false =>
    have hd : x.downActive = true := by simpa [hu] using hs.symm
    simp [Barrier.reset, h, positionOf, hu, hd]

end

/-! ### BARRIER_COMMAND (R67) -/

section
variable {s : State} {x y c : Byte} {l : LaneNo} {b : BarrierNo}

theorem actBarrierCommand_accepted {give : State → BarrierNo → State} (hg : barrierCommandOf c = some give)
    (hl : ofByte 4 x = some l) (hb : ofByte 8 y = some b)
    (hn : (s.config l).front = some b ∨ (s.config l).rear = some b) (hm : (s.lane l).state = .manual)
    (hp : s.failing = false) (hh : s.heldByOther l b = false) :
    actBarrierCommand x y c s = (give s b).accepted (.barrier ((give s b).barrierEntry b)) := by
  have hnames : (s.config l).names b = true := by simpa [LaneConfig.names] using hn
  simp [actBarrierCommand, hg, hl, hb, hnames, hm, hp, hh]

theorem actBarrierCommand_shared (hc : c.toNat ≤ 1) (hl : ofByte 4 x = some l) (hb : ofByte 8 y = some b)
    (hn : (s.config l).front = some b ∨ (s.config l).rear = some b) (hm : (s.lane l).state = .manual)
    (hp : s.failing = false) (hh : s.heldByOther l b = true) :
    actBarrierCommand x y c s = s.refused .sharedBarrier := by
  obtain ⟨give, hg⟩ := barrierCommandOf_isSome hc
  have hnames : (s.config l).names b = true := by simpa [LaneConfig.names] using hn
  simp [actBarrierCommand, hg, hl, hb, hnames, hm, hp, hh]

/-- An accepted BARRIER_COMMAND changes the one barrier by its command's table, and replies with it. -/
theorem barrierCommand_given {f : Nat → Barrier → Barrier}
    (hg : barrierCommandOf c = some (fun s b => s.onBarrier b (f s.motionTime))) (hs : s.Ready)
    (hl : ofByte 4 x = some l) (hb : ofByte 8 y = some b)
    (hn : (s.config l).front = some b ∨ (s.config l).rear = some b) (hm : (s.lane l).state = .manual)
    (hp : s.failing = false) (hh : s.heldByOther l b = false) :
    ∃ t e, exec (.barrierCommand x y c) s = .next t ∧ t.Answers 0x1E .ok (.barrier e) ∧ e.barrier = b ∧
      e.state = (t.barrier b).state ∧ t.barrier b = f (s.timers.motion * 1000) (s.barrier b) ∧
      (∀ o : BarrierNo, o ≠ b → t.barrier o = s.barrier o) ∧ SameBut [.receiver, .reply, .barriers] s t := by
  obtain ⟨t, hex, hans, rfl⟩ := State.receive_taken hs (r := .barrierCommand x y c) (by simp)
    (actBarrierCommand_accepted (s := s.hunting) hg hl hb hn hm hp hh)
  have hend := fun r => ((s.hunting.onBarrier b (f s.motionTime)).setReply_same r).transmit
  have hbar : (s.hunting.onBarrier b (f s.motionTime)).barrier b = f (s.timers.motion * 1000) (s.barrier b) :=
    State.onBarrier_barrier _ _ _
  refine ⟨_, _, hex, hans, rfl, ?_, ?_, fun o ho => ?_, State.taken_same (State.onBarrier_same _ b _) _⟩
  · exact congrArg Barrier.state ((hend _).barrier b).symm
  · exact ((hend _).barrier b).trans hbar
  · exact ((hend _).barrier o).trans (State.onBarrier_barrier_ne _ _ (Ne.symm ho))

end

/-! ### BARRIER_RESET (R66, R68) -/

section
variable {s : State} {y : Byte} {b : BarrierNo}

theorem actBarrierReset_accepted (hb : ofByte 8 y = some b) :
    actBarrierReset y s = (s.resetBarrier b).accepted (.barrier ((s.resetBarrier b).barrierEntry b)) := by
  simp [actBarrierReset, hb]

/-- A lane whose state no settled barrier moves on: it makes no test of its own and awaits no takeover (R64, R68). -/
def LaneState.settles (st : LaneState) : Prop :=
  st ≠ .entering ∧ st ≠ .leaving ∧ st ≠ .backingOut ∧ st ≠ .passing ∧ st ≠ .takeoverPending

theorem State.testTakeover_other {l : LaneNo} (h : (s.lane l).state ≠ .takeoverPending) : s.testTakeover l = s :=
  if_neg (fun k => h k.1)

theorem State.barrierSettled_resting (h : ∀ l ∈ s.lanesNaming b, (s.lane l).state.settles) :
    s.barrierSettled b = s := by
  refine forEach_eq_self (fun l hl => ?_)
  obtain ⟨he, hv, ho, hp, ht⟩ := h l hl
  simp only [State.testLane_resting ⟨he, hv, ho, hp⟩]
  exact State.testTakeover_other ht

theorem State.resetBarrier_sound (h : (s.barrier b).state ≠ .fault) : s.resetBarrier b = s := if_neg h

theorem State.resetBarrier_alike (h : (s.barrier b).state = .fault)
    (hs : (s.barrier b).upActive = (s.barrier b).downActive) : s.resetBarrier b = s.onBarrier b Barrier.reset := by
  have hf : ((s.onBarrier b Barrier.reset).barrier b).state = .fault := by
    rw [State.onBarrier_barrier, Barrier.reset_alike h hs]
    exact h
  exact (if_pos h).trans (if_pos hf)

theorem State.resetBarrier_apart (h : (s.barrier b).state = .fault)
    (hs : (s.barrier b).upActive ≠ (s.barrier b).downActive)
    (hl : ∀ l ∈ s.lanesNaming b, (s.lane l).state.settles) :
    s.resetBarrier b = (s.onBarrier b Barrier.reset).seal := by
  have hf : ((s.onBarrier b Barrier.reset).barrier b).state ≠ .fault := by
    rw [State.onBarrier_barrier, Barrier.reset_apart h hs]
    cases (s.barrier b).upActive with
    | true => simp
    | false => simp
  have hrest : (s.onBarrier b Barrier.reset).barrierSettled b = s.onBarrier b Barrier.reset :=
    State.barrierSettled_resting hl
  exact ((if_pos h).trans (if_neg hf)).trans (congrArg State.seal hrest)

end

end Sys2Proof.Machine

open Sys2Proof Sys2Proof.Machine

/-- Settles O37: each command is one update of the barrier, by the table of RAISE or of LOWER. -/
theorem barrierCommandsMoveTheArm : Obligations.BarrierCommandsMoveTheArm := by
  unfold Obligations.BarrierCommandsMoveTheArm
  intro x y l b s hs hl hb hn hm hp
  refine ⟨fun hh => ⟨?raise, ?lower⟩, fun hh c hc => ?shared⟩
  case raise =>
    obtain ⟨t, e, hex, hans, hbar, hst, ht, hframe⟩ :=
      barrierCommand_given (c := 0) (f := Barrier.raise) rfl hs hl hb hn hm hp hh
    exact ⟨t, e, hex, hans, hbar, hst, fun h => ht.trans (Barrier.raise_down h),
      fun h => ht.trans (Barrier.raise_lowering h), fun h => ht.trans (Barrier.raise_up h),
      fun h => ht.trans (Barrier.raise_stands h), hframe⟩
  case lower =>
    obtain ⟨t, e, hex, hans, hbar, hst, ht, hframe⟩ :=
      barrierCommand_given (c := 1) (f := Barrier.lower) rfl hs hl hb hn hm hp hh
    exact ⟨t, e, hex, hans, hbar, hst, fun h ho => ht.trans (Barrier.lower_up_clear h ho),
      fun h ho => ht.trans (Barrier.lower_up_occupied h ho), fun h => ht.trans (Barrier.lower_raising h),
      fun h => ht.trans (Barrier.lower_stands h), hframe⟩
  case shared =>
    exact State.receive_turned hs (r := .barrierCommand x y c) (by simp)
      (actBarrierCommand_shared (s := s.hunting) hc hl hb hn hm hp hh)

/-- Settles O38: the reset of a barrier is one update by its two switches, and the lanes in LANE_FAULT or MANUAL make
nothing of it. -/
theorem barrierResetReadsTheSwitches : Obligations.BarrierResetReadsTheSwitches := by
  unfold Obligations.BarrierResetReadsTheSwitches
  intro y b s hs hb
  obtain ⟨t, hex, hans, rfl⟩ := State.receive_taken hs (r := .barrierReset y) (by simp)
    (actBarrierReset_accepted (s := s.hunting) hb)
  have hend := fun r => ((s.hunting.resetBarrier b).setReply_same r).transmit
  refine ⟨fun h => ?sound, fun h hsw => ?alike, fun h hsw hl => ?apart⟩
  case sound =>
    have hreset : s.hunting.resetBarrier b = s.hunting := State.resetBarrier_sound (by exact h)
    refine ⟨_, _, hex, hans, rfl, ?_, ?_⟩
    · rw [hreset]
      rfl
    · exact State.taken_same (ps := []) (by rw [hreset]; exact .refl _ _) _
  case alike =>
    have hreset := State.resetBarrier_alike (s := s.hunting) h hsw
    have hbar : (s.hunting.resetBarrier b).barrier b = (s.barrier b).reset := by
      rw [hreset, State.onBarrier_barrier]
      rfl
    rw [Barrier.reset_alike h hsw] at hbar
    refine ⟨_, _, hex, hans, ?_, ((hend _).barrier b).trans hbar, fun o ho => ?_, ?_⟩
    · exact (congrArg Barrier.state hbar).trans h
    · rw [(hend _).barrier o, hreset, State.onBarrier_barrier_ne _ _ (Ne.symm ho)]
      rfl
    · exact State.taken_same (by rw [hreset]; exact State.onBarrier_same _ b _) _
  case apart =>
    have hsettles : ∀ l ∈ s.lanesNaming b, (s.lane l).state.settles := fun l hm => by
      rcases hl l hm with k | k
      · simp [LaneState.settles, k]
      · simp [LaneState.settles, k]
    have hreset := State.resetBarrier_apart (s := s.hunting) h hsw hsettles
    have hbar : (s.hunting.resetBarrier b).barrier b = (s.barrier b).reset := by
      rw [hreset, State.seal_barrier', State.onBarrier_barrier]
      rfl
    rw [Barrier.reset_apart h hsw] at hbar
    refine ⟨_, _, hex, hans, congrArg Barrier.state ((hend _).barrier b).symm, ((hend _).barrier b).trans hbar,
      fun o ho => ?_, ?_⟩
    · rw [(hend _).barrier o, hreset, State.seal_barrier', State.onBarrier_barrier_ne _ _ (Ne.symm ho)]
      rfl
    · exact State.taken_same (ps := [.barriers, .checkWord]) (by
        rw [hreset]
        exact ((State.onBarrier_same _ b _).mono (by decide)).then (State.seal_same _)) _

end

-- ==== Proofs of family 04: approach loops ====
section
/-! What an approach loop does at its becoming OCCUPIED and CLEAR, and the lanes' part in it (O57). -/

namespace Sys2Proof.Machine

/- One proof after another: the check compiles the whole text in one process, whose threads are limited. -/
set_option Elab.async false

/-! ### The commands -/

section
variable {s : State} {a : LoopNo}

theorem exec_approachLoopOccupied (h : s.powered = true) (inputs : LoopInputs) :
    exec (.approachLoopOccupied a inputs) s =
      .next ((s.onPins (fun p => p.setApproach a inputs.hasPresence inputs.hasFault)).approachActive a).transmit := by
  simp [exec, execApproachLoopOccupied, State.runPins_powered h]

theorem exec_approachLoopInputInactive (h : s.powered = true) :
    exec (.approachLoopInputInactive a) s =
      .next ((s.onPins (fun p => p.setApproach a false false)).onLoop a ApproachLoop.inputsInactive).transmit := by
  simp [exec, execApproachLoopInputInactive, State.runPins_powered h]

theorem exec_approachLoopClear (h : s.powered = true) :
    exec (.approachLoopClear a) s = .next (s.approachClear a).transmit := by
  simp [exec, execApproachLoopClear, State.run_powered h]

end

/-! ### Frames -/

theorem SameBut.loop {ps : List Part} {s t : State} (h : SameBut ps s t) (a : LoopNo)
    (hp : Part.loops ∉ ps := by decide) : t.loop a = s.loop a :=
  congrArg (fun x => x.read a) (show t.loops = s.loops from h _ hp)

theorem SameBut.failing {ps : List Part} {s t : State} (h : SameBut ps s t)
    (hp : Part.powerFail ∉ ps := by decide) : t.failing = s.failing :=
  congrArg PowerFail.asserted (show t.powerFail = s.powerFail from h _ hp)

theorem SameBut.identityTime {ps : List Part} {s t : State} (h : SameBut ps s t)
    (hp : Part.site ∉ ps := by decide) : t.identityTime = s.identityTime :=
  congrArg (fun x => x.timers.identity * 1000) (show t.ret.site = s.ret.site from h _ hp)

theorem SameBut.approachOccupied {ps : List Part} {s t : State} (h : SameBut ps s t) (l : LaneNo)
    (hp : Part.site ∉ ps := by decide) (hq : Part.loops ∉ ps := by decide) :
    t.approachOccupied l = s.approachOccupied l := by
  unfold State.approachOccupied
  rw [h.config l hp]
  split
  · rfl
  · rw [h.loop _ hq]

theorem State.lanesAtLoop_nodup (s : State) (a : LoopNo) : (s.lanesAtLoop a).Nodup := allFour_nodup.filter _

theorem State.mem_lanesAtLoop {s : State} {a : LoopNo} {l : LaneNo} :
    l ∈ s.lanesAtLoop a ↔ (s.config l).loop = some a := by
  simp [State.lanesAtLoop, mem_allFour]

theorem State.approachOccupied_at {s : State} {a : LoopNo} {l : LaneNo} (h : (s.config l).loop = some a) :
    s.approachOccupied l = (s.loop a).occupied := by
  simp [State.approachOccupied, h]

/-! ### An approach loop becomes OCCUPIED (R69, R79) -/

section
variable {s : State} {l m : LaneNo} {a : LoopNo}

/-- A lane at an OCCUPIED approach loop: IDLE with a role goes to AWAIT_ID, and any other lane stays as it is (R79). -/
def Lane.reached (role : Role) (identityTime : Nat) (n : Lane) : Lane :=
  if n.state = .idle ∧ role ≠ .none then n.entering .awaitId identityTime else n

theorem State.comeToIdle_same (s : State) (l : LaneNo) : SameBut [.lanes, .reports] s (s.comeToIdle l) := by
  unfold State.comeToIdle
  split
  · exact State.enterState_same s l _ _
  · exact State.enterState_same s l _ _

theorem State.comeToIdle_others (s : State) (h : m ≠ l) : (s.comeToIdle l).lane m = s.lane m := by
  unfold State.comeToIdle
  split
  · exact State.enterState_others s h _ _
  · exact State.enterState_others s h _ _

theorem State.approachReached_same (s : State) (l : LaneNo) : SameBut [.lanes, .reports] s (s.approachReached l) := by
  unfold State.approachReached
  split
  · exact s.comeToIdle_same l
  · exact .refl s _

theorem State.approachReached_others (s : State) (h : m ≠ l) : (s.approachReached l).lane m = s.lane m := by
  unfold State.approachReached
  split
  · exact s.comeToIdle_others h
  · rfl

theorem State.approachReached_lane (hf : s.failing = false) (ho : s.approachOccupied l = true) :
    (s.approachReached l).lane l = (s.lane l).reached (s.config l).role s.identityTime := by
  by_cases hi : (s.lane l).state = .idle
  · by_cases hr : (s.config l).role = .none
    · simp [State.approachReached, State.comeToIdle, Lane.reached, hi, hf, hr, State.enterState_stays]
    · have hne : (s.lane l).state ≠ .awaitId := by simp [hi]
      simp [State.approachReached, State.comeToIdle, Lane.reached, hi, hf, hr, ho, State.enterState_lane hne]
  · simp [State.approachReached, Lane.reached, hi]

/-- The lanes at the loop are reached, each by its own role, and no other lane is. -/
theorem State.handReached_lane {xs : List LaneNo} (hxs : xs.Nodup) (hf : s.failing = false)
    (ho : ∀ m ∈ xs, s.approachOccupied m = true) (l : LaneNo) :
    (forEach xs (fun l s => s.approachReached l) s).lane l =
      if l ∈ xs then (s.lane l).reached (s.config l).role s.identityTime else s.lane l := by
  refine forEach_reads (read := State.lane) (F := fun m n => n.reached (s.config m).role s.identityTime)
    (P := fun u => SameBut [.lanes, .reports] s u) ?keep ?here ?there hxs (.refl s _) l
  case keep => exact fun m _ u hu => hu.then (u.approachReached_same m)
  case here =>
    intro m hm u hu
    have hocc : u.approachOccupied m = true := (hu.approachOccupied m).trans (ho m hm)
    rw [State.approachReached_lane (hu.failing.trans hf) hocc, hu.config m, hu.identityTime]
  case there => exact fun m _ k u _ hk => u.approachReached_others hk

end

section
variable {s : State} {a : LoopNo} {l m : LaneNo}

theorem State.approachActive_again (h : (s.loop a).occupied = true) :
    s.approachActive a = s.onLoop a (fun x => { x with clearFilter := none }) := if_pos h

/-- The loop becomes OCCUPIED, and the lanes at it are reached (R69, R79). -/
def State.reachedAt (s : State) (a : LoopNo) : State :=
  forEach (s.lanesAtLoop a) (fun l s => s.approachReached l)
    (s.onLoop a (fun _ => { occupied := true, clearFilter := none }))

theorem State.approachActive_first (h : (s.loop a).occupied = false) : s.approachActive a = s.reachedAt a := by
  simp only [State.approachActive, h]
  rfl

theorem State.reachedAt_loopsAlone (s : State) (a : LoopNo) :
    SameBut [.lanes, .reports] (s.onLoop a (fun _ => { occupied := true, clearFilter := none })) (s.reachedAt a) :=
  .forEach (fun l u => u.approachReached_same l) _ _

theorem State.reachedAt_same (s : State) (a : LoopNo) : SameBut [.loops, .lanes, .reports] s (s.reachedAt a) :=
  ((s.onLoop_same a _).mono (by decide)).then (s.reachedAt_loopsAlone a)

theorem State.reachedAt_loop (s : State) (a : LoopNo) :
    (s.reachedAt a).loop a = { occupied := true, clearFilter := none } :=
  ((s.reachedAt_loopsAlone a).loop a).trans (State.onLoop_loop _ _ _)

theorem State.reachedAt_loop_ne (s : State) {o : LoopNo} (h : o ≠ a) : (s.reachedAt a).loop o = s.loop o :=
  ((s.reachedAt_loopsAlone a).loop o).trans (State.onLoop_loop_ne _ _ (Ne.symm h))

theorem State.reachedAt_lane (hf : s.failing = false) (l : LaneNo) :
    (s.reachedAt a).lane l =
      if (s.config l).loop = some a then (s.lane l).reached (s.config l).role s.identityTime else s.lane l := by
  have hocc : ∀ m ∈ s.lanesAtLoop a,
      (s.onLoop a (fun _ => { occupied := true, clearFilter := none })).approachOccupied m = true := fun m hm => by
    have hc : ((s.onLoop a (fun _ => { occupied := true, clearFilter := none })).config m).loop = some a :=
      State.mem_lanesAtLoop.mp hm
    rw [State.approachOccupied_at hc, State.onLoop_loop]
  have h := State.handReached_lane (s.lanesAtLoop_nodup a) (by exact hf) hocc l
  simp only [State.mem_lanesAtLoop] at h
  exact h

theorem Lane.reached_idle {n : Lane} {role : Role} {time : Nat} (h : n.state = .idle) (hr : role ≠ .none) :
    n.reached role time = { n with state := .awaitId, signal := .red, identityTimer := .running time } := by
  simp [Lane.reached, h, hr, Lane.entering, signalFor]

theorem Lane.reached_other {n : Lane} {role : Role} {time : Nat} (h : n.state ≠ .idle ∨ role = .none) :
    n.reached role time = n := by
  refine if_neg (fun k => ?_)
  obtain ⟨hi, hr⟩ := k
  exact h.elim (fun g => g hi) hr

end

theorem ApproachLoop.inputsInactive_starts {x : ApproachLoop} (h : x.occupied = true) (hf : x.clearFilter = none) :
    x.inputsInactive = { x with clearFilter := some 500 } := if_pos ⟨h, hf⟩

theorem ApproachLoop.inputsInactive_stays {x : ApproachLoop} (h : x.occupied = false ∨ x.clearFilter ≠ none) :
    x.inputsInactive = x := by
  refine if_neg (fun k => ?_)
  obtain ⟨ho, hf⟩ := k
  rcases h with h | h
  · simp [h] at ho
  · exact h hf

/-! ### An approach loop becomes CLEAR (R69, R80, R86) -/

section
variable {s : State} {a : LoopNo} {l m : LaneNo} {b : BridgeNo} {n : Nat} {v : Visit}

/-- The loop is CLEAR with no filter running. -/
def State.loopCleared (s : State) (a : LoopNo) : State :=
  s.onLoop a (fun _ => { occupied := false, clearFilter := none })

theorem State.loopCleared_same (s : State) (a : LoopNo) : SameBut [.loops] s (s.loopCleared a) := s.onLoop_same a _

theorem State.approachClear_stopped (h : (s.loop a).clearFilter = none) : s.approachClear a = s := by
  simp [State.approachClear, h]

/-- With one lane at the loop its end of the filter is that lane's part alone. -/
theorem State.approachClear_alone (h : (s.loop a).clearFilter.isSome = true) (hl : s.lanesAtLoop a = [l])
    (hf : s.failing = false) : s.approachClear a = (((s.loopCleared a).leaveBeforeEntry l).testLane l).seal := by
  have hx : s.approachClear a =
      (forEach (s.lanesAtLoop a) (fun l s => s.approachLeft l) (s.loopCleared a)).seal := if_pos h
  have hp : (s.loopCleared a).approachLeft l = ((s.loopCleared a).leaveBeforeEntry l).testLane l :=
    if_neg (by simp [(s.loopCleared_same a).failing, hf])
  rw [hx, hl]
  exact congrArg State.seal hp

/-- The lane has forgotten its vehicle and is IDLE (R80). -/
def State.forgotten (s : State) (l : LaneNo) : State := (s.clearVehicle l).enterState l .idle none

theorem State.forgotten_same (s : State) (l : LaneNo) : SameBut [.lanes, .reports] s (s.forgotten l) :=
  ((s.onLane_same l _).mono (by decide)).then (State.enterState_same _ l _ _)

theorem State.forgotten_others (s : State) (h : m ≠ l) : (s.forgotten l).lane m = s.lane m :=
  (State.enterState_others _ h _ _).trans (State.onLane_lane_ne _ _ (Ne.symm h))

theorem State.forgotten_lane (h : (s.lane l).state ≠ .idle) :
    (s.forgotten l).lane l =
      { s.lane l with
        state := .idle, signal := .red, identity := none, visit := none,
        identityTimer := if (s.lane l).state = .awaitId then .stopped else (s.lane l).identityTimer } := by
  have hl : (s.clearVehicle l).lane l = { s.lane l with identity := none, visit := none } := State.onLane_lane _ _ _
  have hne : ((s.clearVehicle l).lane l).state ≠ .idle := by simpa [hl] using h
  rw [State.forgotten, State.enterState_lane hne, hl]
  simp [Lane.entering, signalFor]

theorem State.forgotten_resting (s : State) (l : LaneNo) : (s.forgotten l).testLane l = s.forgotten l := by
  have h : ((s.forgotten l).lane l).state = .idle := State.enterState_state _ l _ _
  exact State.testLane_resting (by simp [h])

/-- A lane that holds no grant and asks nobody forgets its vehicle at once (R80). -/
theorem State.leaveBeforeEntry_asking
    (h : (s.lane l).state = .awaitId ∨ (s.lane l).state = .noId ∨ (s.lane l).state = .refused) :
    s.leaveBeforeEntry l = s.forgotten l := by
  rcases h with h | h | h
  · simp [State.leaveBeforeEntry, h, State.forgotten]
  · simp [State.leaveBeforeEntry, h, State.forgotten]
  · simp [State.leaveBeforeEntry, h, State.forgotten]

theorem State.leaveBeforeEntry_admitting (h : (s.lane l).state = .admitting) :
    s.leaveBeforeEntry l = (s.abandonQuery l).forgotten l := by
  simp [State.leaveBeforeEntry, h, State.forgotten]

theorem State.leaveBeforeEntry_siteFull (h : (s.lane l).state = .siteFull) :
    s.leaveBeforeEntry l = (s.leaveSiteFull l).forgotten l := by
  simp [State.leaveBeforeEntry, h, State.forgotten]

theorem State.leaveBeforeEntry_awaitBridge (h : (s.lane l).state = .awaitBridge) :
    s.leaveBeforeEntry l = (((s.withdrawRequest l).releaseGrant l).giveUpVisit l).forgotten l := by
  simp [State.leaveBeforeEntry, h, State.forgotten]

theorem State.leaveBeforeEntry_entering (h : (s.lane l).state = .entering) : s.leaveBeforeEntry l = s := by
  simp [State.leaveBeforeEntry, h]

/-- What the end of the filter leaves, where the lane has forgotten its vehicle after the rest of its part. -/
theorem State.approachClear_forgets {u : State} (h : (s.loop a).clearFilter.isSome = true) (hl : s.lanesAtLoop a = [l])
    (hf : s.failing = false) (hu : (s.loopCleared a).leaveBeforeEntry l = u.forgotten l) :
    s.approachClear a = (u.forgotten l).seal := by
  rw [State.approachClear_alone h hl hf, hu, State.forgotten_resting]

theorem State.withdrawRequest_at (h : (s.config l).bridge = some b) :
    s.withdrawRequest l = s.onGrant b (fun g => { g with waiting := g.waiting.filter (· ≠ l) }) := by
  simp [State.withdrawRequest, h]

theorem State.releaseGrant_unheld (h : (s.config l).bridge = some b) (hh : (s.grant b).holder ≠ some l) :
    s.releaseGrant l = s := by
  simp [State.releaseGrant, h, hh]

theorem State.serveFreed_unasked (h : s.siteFull = []) : s.serveFreed = s := by
  simp [State.serveFreed, h, State.serveSiteFull]

/-- With nobody in the SITE_FULL list a removal is the record's alone (R153). -/
theorem State.removeVisit_unasked (h : s.siteFull = []) (hv : (s.visitOf n).isSome = true) :
    s.removeVisit n = s.onVisits (fun t => t.without n) :=
  (if_pos hv).trans (State.serveFreed_unasked (s := s.onVisits _) h)

theorem State.giveUpVisit_inbound (hn : (s.lane l).visit = some n) (hr : (s.config l).role = .inbound) :
    s.giveUpVisit l = s.removeVisit n := by
  simp [State.giveUpVisit, hn, hr]

theorem State.giveUpVisit_kept (hn : (s.lane l).visit = some n) (hr : (s.config l).role ≠ .inbound) :
    s.giveUpVisit l = s.clearCurrentLane n := by
  simp [State.giveUpVisit, hn, hr]

end

section
variable {s : State} {a : LoopNo} {l m : LaneNo} {b : BridgeNo} {f : BarrierNo} {n : Nat} {v : Visit}

theorem State.loopCleared_loop (s : State) (a : LoopNo) :
    (s.loopCleared a).loop a = { occupied := false, clearFilter := none } := State.onLoop_loop _ _ _

theorem State.loopCleared_loop_ne (s : State) {o : LoopNo} (h : o ≠ a) : (s.loopCleared a).loop o = s.loop o :=
  State.onLoop_loop_ne _ _ (Ne.symm h)

/-- A lane that does not stand in AWAIT_ID keeps its identity timer as it forgets its vehicle. -/
theorem State.forgotten_lane_of {st : LaneState} (h : (s.lane l).state = st) (hi : st ≠ .idle := by decide)
    (ha : st ≠ .awaitId := by decide) :
    (s.forgotten l).lane l = { s.lane l with state := .idle, signal := .red, identity := none, visit := none } := by
  rw [State.forgotten_lane (by rwa [h]), if_neg (by rwa [h])]

/-! #### A lane in ADMITTING or SITE_FULL -/

/-- A query's slot as its lane abandons it: the answer is no longer awaited (R135). -/
def QuerySlot.abandoned (q : QuerySlot) : QuerySlot :=
  { q with state := .late, deadline := .stopped, held := none, provisional := none }

theorem State.abandonQuery_active (h : (s.slot l).state = .active) :
    s.abandonQuery l = s.queryEnded l QuerySlot.abandoned := by
  simp only [State.abandonQuery, h]
  rfl

theorem State.queryEnded_others (s : State) (f : QuerySlot → QuerySlot) (h : m ≠ l) :
    (s.queryEnded l f).lane m = s.lane m :=
  State.onLane_lane_ne (s.onSlot l f) (fun n => { n with query := none }) (Ne.symm h)

theorem State.approachClear_admitting (h : (s.loop a).clearFilter.isSome = true) (hl : s.lanesAtLoop a = [l])
    (hf : s.failing = false) (hst : (s.lane l).state = .admitting) (hq : (s.slot l).state = .active) :
    s.approachClear a =
      (((s.loopCleared a).queryEnded l QuerySlot.abandoned).forgotten l).seal := by
  refine State.approachClear_forgets h hl hf ?_
  rw [State.leaveBeforeEntry_admitting (s := s.loopCleared a) hst, State.abandonQuery_active (s := s.loopCleared a) hq]

theorem State.approachClear_siteFull (h : (s.loop a).clearFilter.isSome = true) (hl : s.lanesAtLoop a = [l])
    (hf : s.failing = false) (hst : (s.lane l).state = .siteFull) :
    s.approachClear a = (((s.loopCleared a).leaveSiteFull l).forgotten l).seal :=
  State.approachClear_forgets h hl hf (State.leaveBeforeEntry_siteFull hst)

/-! #### A lane in AWAIT_BRIDGE that holds no grant -/

/-- The lane's request for its bridge is given up. -/
def State.requestGivenUp (s : State) (l : LaneNo) (b : BridgeNo) : State :=
  s.onGrant b (fun g => { g with waiting := g.waiting.filter (· ≠ l) })

theorem State.requestGivenUp_same (s : State) (l : LaneNo) (b : BridgeNo) :
    SameBut [.grants] s (s.requestGivenUp l b) := s.onGrant_same b _

theorem State.requestGivenUp_grant (s : State) (l : LaneNo) (b : BridgeNo) :
    (s.requestGivenUp l b).grant b = { s.grant b with waiting := (s.grant b).waiting.filter (· ≠ l) } :=
  State.onGrant_grant s b (fun g => { g with waiting := g.waiting.filter (· ≠ l) })

theorem State.approachClear_awaitBridge (h : (s.loop a).clearFilter.isSome = true) (hl : s.lanesAtLoop a = [l])
    (hf : s.failing = false) (hst : (s.lane l).state = .awaitBridge) (hb : (s.config l).bridge = some b)
    (hh : (s.grant b).holder ≠ some l) :
    s.approachClear a = ((((s.loopCleared a).requestGivenUp l b).giveUpVisit l).forgotten l).seal := by
  refine State.approachClear_forgets h hl hf ?_
  have hw : (s.loopCleared a).withdrawRequest l = (s.loopCleared a).requestGivenUp l b := State.withdrawRequest_at hb
  have hheld : (((s.loopCleared a).requestGivenUp l b).grant b).holder ≠ some l := by
    rw [State.requestGivenUp_grant]
    exact hh
  have hr : ((s.loopCleared a).requestGivenUp l b).releaseGrant l = (s.loopCleared a).requestGivenUp l b :=
    State.releaseGrant_unheld hb hheld
  rw [State.leaveBeforeEntry_awaitBridge (s := s.loopCleared a) hst, hw, hr]

/-- A visit given up while nobody waits for its record: removed on an inbound lane, without a lane on any other. -/
theorem State.giveUpVisit_unasked (hl : s.siteFull = []) (hn : (s.lane l).visit = some n) (hv : s.visitOf n = some v) :
    SameBut [.visits] s (s.giveUpVisit l) ∧
      ((s.config l).role = .inbound →
        (s.giveUpVisit l).ret.visits.records = s.ret.visits.records.filter (fun w => w.number ≠ n)) ∧
      ((s.config l).role ≠ .inbound → (s.giveUpVisit l).visitOf n = some { v with currentLane := none }) := by
  by_cases hr : (s.config l).role = .inbound
  · rw [State.giveUpVisit_inbound hn hr, State.removeVisit_unasked hl (by simp [hv])]
    exact ⟨State.onVisits_same _ _, fun _ => rfl, fun k => absurd hr k⟩
  · rw [State.giveUpVisit_kept hn hr]
    exact ⟨State.onVisits_same _ _, fun k => absurd k hr,
      fun _ => State.onVisit_visitOf (f := fun v => { v with currentLane := none }) (fun _ => rfl) hv⟩

/-! #### A lane in ENTERING -/

/-- The lane's vehicle is on its bridge: the entry timer is stopped and LOWER given to the front barrier (R86). -/
def State.entryEnded (s : State) (l : LaneNo) (f : BarrierNo) : State :=
  (s.onLane l (fun n => { n with entryTimer := .stopped })).commandLower f

theorem State.entryEnded_same (s : State) (l : LaneNo) (f : BarrierNo) :
    SameBut [.lanes, .barriers] s (s.entryEnded l f) :=
  ((s.onLane_same l _).mono (by decide)).then (State.onBarrier_same _ f _)

theorem State.entryEnded_lane (s : State) (l : LaneNo) (f : BarrierNo) :
    (s.entryEnded l f).lane l = { s.lane l with entryTimer := .stopped } :=
  State.onLane_lane s l (fun n => { n with entryTimer := .stopped })

theorem State.entryEnded_others (s : State) (f : BarrierNo) (h : m ≠ l) : (s.entryEnded l f).lane m = s.lane m :=
  State.onLane_lane_ne s (fun n => { n with entryTimer := .stopped }) (Ne.symm h)

theorem State.entryEnded_barrier (s : State) (l : LaneNo) (f : BarrierNo) :
    (s.entryEnded l f).barrier f = (s.barrier f).lower s.motionTime := State.onBarrier_barrier _ _ _

theorem State.entryEnded_barrier_ne (s : State) (l : LaneNo) {o : BarrierNo} (h : o ≠ f) :
    (s.entryEnded l f).barrier o = s.barrier o :=
  State.onBarrier_barrier_ne (s.onLane l (fun n => { n with entryTimer := .stopped })) _ (Ne.symm h)

/-- The vehicle of a visit to be weighed has entered: its capture has begun and the lane is WEIGHING (R43, R86). -/
def State.entryWeighs (s : State) (l : LaneNo) (b : BridgeNo) (f : BarrierNo) (n : Nat) : State :=
  ((s.entryEnded l f).captureBegun l b n).enterState l .weighing none

theorem State.entryWeighs_same (s : State) (l : LaneNo) (b : BridgeNo) (f : BarrierNo) (n : Nat) :
    SameBut [.lanes, .barriers, .bridges, .visits, .reports] s (s.entryWeighs l b f n) :=
  (((s.entryEnded_same l f).mono (by decide)).then (State.captureBegun_same _ l b n)).then
    (State.enterState_same _ l _ _)

theorem State.completeEntry_weighs (hn : (s.lane l).visit = some n) (hv : s.visitOf n = some v)
    (hst : v.state ≠ .ticketed) (hf : (s.config l).front = some f) (hb : (s.config l).bridge = some b)
    (hc : s.canStartCapture l b = true) : s.completeEntry l = s.entryWeighs l b f n := by
  have hlow : (s.onLane l (fun n => { n with entryTimer := .stopped })).lowerFront l = s.entryEnded l f := by
    have h : (s.onLane l (fun n => { n with entryTimer := .stopped })).config l = s.config l := rfl
    rw [State.lowerFront, h, hf]
    rfl
  have hlane : ((s.entryEnded l f).lane l).visit = some n := by
    rw [State.entryEnded_lane]
    exact hn
  have hvis : (s.entryEnded l f).visitOf n = some v := hv
  have hstart : (s.entryEnded l f).startOwnCapture l = (s.entryEnded l f).captureBegun l b n :=
    State.startOwnCapture_begun hb hlane hc
  rw [State.completeEntry, hlow]
  simp only [hlane, Option.bind_some, hvis, hst, if_false, hstart]
  rfl

theorem State.testLane_entered (hf : s.failing = false) (hst : (s.lane l).state = .entering)
    (he : (s.lane l).entered = false) (hm : s.entryMet l = true) : s.testLane l = s.completeEntry l := by
  simp [State.testLane, hf, hst, he, hm]

theorem State.entryMet_of (hm : (s.lane l).frontMark = .passed) (ho : s.approachOccupied l = false)
    (hb : (s.config l).bridge = some b) (hg : s.bridgeLoaded b = true) : s.entryMet l = true := by
  simp [State.entryMet, hm, ho, State.ownBridgeLoaded, hb, hg]

/-- The loop's end of filter over a vehicle that has passed the front barrier onto the bridge (R86). -/
theorem State.approachClear_entering (h : (s.loop a).clearFilter.isSome = true) (hl : s.lanesAtLoop a = [l])
    (hf : s.failing = false) (hst : (s.lane l).state = .entering) (he : (s.lane l).entered = false)
    (hm : (s.lane l).frontMark = .passed) (hb : (s.config l).bridge = some b) (hfr : (s.config l).front = some f)
    (hg : s.bridgeLoaded b = true) (hn : (s.lane l).visit = some n) (hv : s.visitOf n = some v)
    (hvs : v.state ≠ .ticketed) (hc : s.canStartCapture l b = true) :
    s.approachClear a = ((s.loopCleared a).entryWeighs l b f n).seal := by
  have hclear : (s.loopCleared a).approachOccupied l = false := by
    have hloop : ((s.loopCleared a).config l).loop = some a :=
      State.mem_lanesAtLoop.mp (show l ∈ s.lanesAtLoop a by simp [hl])
    rw [State.approachOccupied_at hloop, State.loopCleared_loop]
  have hmet : (s.loopCleared a).entryMet l = true := State.entryMet_of hm hclear hb hg
  rw [State.approachClear_alone h hl hf, State.leaveBeforeEntry_entering (s := s.loopCleared a) hst,
    State.testLane_entered (s := s.loopCleared a) hf hst he hmet,
    State.completeEntry_weighs (s := s.loopCleared a) hn hv hvs hfr hb hc]

theorem State.entryWeighs_lane (b : BridgeNo) (f : BarrierNo) (n : Nat) (h : (s.lane l).state = .entering) :
    (s.entryWeighs l b f n).lane l = { s.lane l with entryTimer := .stopped, state := .weighing, signal := .red } := by
  have hl : ((s.entryEnded l f).captureBegun l b n).lane l = { s.lane l with entryTimer := .stopped } :=
    ((State.captureBegun_same _ l b n).lane l).trans (s.entryEnded_lane l f)
  have hne : (((s.entryEnded l f).captureBegun l b n).lane l).state ≠ .weighing := by simp [hl, h]
  rw [State.entryWeighs, State.enterState_lane hne, hl]
  simp [Lane.entering, signalFor, h]

theorem State.entryWeighs_others (b : BridgeNo) (f : BarrierNo) (n : Nat) (h : m ≠ l) :
    (s.entryWeighs l b f n).lane m = s.lane m :=
  ((State.enterState_others _ h _ _).trans ((State.captureBegun_same _ l b n).lane m)).trans (s.entryEnded_others f h)

theorem State.entryWeighs_barrier (l : LaneNo) (b : BridgeNo) (f : BarrierNo) (n : Nat) (o : BarrierNo) :
    (s.entryWeighs l b f n).barrier o = (s.entryEnded l f).barrier o :=
  (((State.captureBegun_same _ l b n).mono (by decide)).then
    (State.enterState_same _ l _ _) : SameBut [.bridges, .visits, .lanes, .reports] _ _).barrier o

theorem State.entryWeighs_capture (l : LaneNo) (b : BridgeNo) (f : BarrierNo) (n : Nat) :
    ((s.entryWeighs l b f n).bridge b).capture = some
      { visit := n, lane := l, start := s.ret.clock, timeout := (s.timing b).captureTimeout,
        deadline := (s.timing b).captureTimeout * 1000, blocking := .notReady } := by
  have h : (s.entryWeighs l b f n).bridge b = ((s.entryEnded l f).captureBegun l b n).bridge b :=
    (State.enterState_same _ l _ _).bridge b
  rw [h, State.captureBegun_bridge]
  rfl

theorem State.entryWeighs_visitOf (l : LaneNo) (b : BridgeNo) (f : BarrierNo) (hv : s.visitOf n = some v) :
    (s.entryWeighs l b f n).visitOf n = some { v with state := v.state.weighing } :=
  ((State.enterState_same _ l _ _).visitOf n).trans (State.captureBegun_visitOf (s := s.entryEnded l f) hv l b)

end

section
variable {s : State} {a : LoopNo}

theorem approachLoopOccupied_again (hp : s.powered = true) (inputs : LoopInputs) (h : (s.loop a).occupied = true) :
    ∃ t, exec (.approachLoopOccupied a inputs) s = .next t ∧ t.loop a = { s.loop a with clearFilter := none } ∧
      (∀ o : LoopNo, o ≠ a → t.loop o = s.loop o) ∧ SameBut [.pins, .loops] s t := by
  refine ⟨_, exec_approachLoopOccupied hp inputs, ?_⟩
  rw [State.approachActive_again (s := s.onPins _) h]
  refine ⟨?_, fun o ho => ?_, ?_⟩
  · exact (State.transmit_loop _ _).trans (State.onLoop_loop _ _ _)
  · exact (State.transmit_loop _ _).trans (State.onLoop_loop_ne _ _ (Ne.symm ho))
  · exact (((s.onPins_same _).mono (by decide)).then (State.onLoop_same _ a _)).transmit

theorem approachLoopOccupied_first (hp : s.powered = true) (hf : s.failing = false) (inputs : LoopInputs)
    (h : (s.loop a).occupied = false) :
    ∃ t, exec (.approachLoopOccupied a inputs) s = .next t ∧ t.loop a = { occupied := true, clearFilter := none } ∧
      t.pins = s.pins.setApproach a inputs.hasPresence inputs.hasFault ∧
      (∀ l : LaneNo, t.lane l =
        if (s.config l).loop = some a then (s.lane l).reached (s.config l).role s.identityTime else s.lane l) ∧
      (∀ o : LoopNo, o ≠ a → t.loop o = s.loop o) ∧ SameBut [.pins, .loops, .lanes, .reports] s t := by
  refine ⟨_, exec_approachLoopOccupied hp inputs, ?_⟩
  rw [State.approachActive_first (s := s.onPins _) h]
  refine ⟨?_, ?_, fun l => ?_, fun o ho => ?_, ?_⟩
  · exact (State.transmit_loop _ _).trans (State.reachedAt_loop _ a)
  · exact ((State.reachedAt_same _ a).transmit : SameBut _ (s.onPins _) _) .pins (by decide)
  · exact (State.transmit_lane _ _).trans (State.reachedAt_lane (s := s.onPins _) hf l)
  · exact (State.transmit_loop _ _).trans (State.reachedAt_loop_ne _ ho)
  · exact (((s.onPins_same _).mono (by decide)).then (State.reachedAt_same _ a)).transmit

theorem approachLoopInputInactive_starts (hp : s.powered = true) :
    ∃ t, exec (.approachLoopInputInactive a) s = .next t ∧ t.loop a = (s.loop a).inputsInactive ∧
      (∀ o : LoopNo, o ≠ a → t.loop o = s.loop o) ∧ SameBut [.pins, .loops] s t := by
  refine ⟨_, exec_approachLoopInputInactive hp, ?_, fun o ho => ?_, ?_⟩
  · exact (State.transmit_loop _ _).trans (State.onLoop_loop _ _ _)
  · exact (State.transmit_loop _ _).trans (State.onLoop_loop_ne _ _ (Ne.symm ho))
  · exact (((s.onPins_same _).mono (by decide)).then (State.onLoop_same _ a _)).transmit

/-- The clear filter has ended in a state `u` that has the loop CLEAR and differs from `s` there in the parts listed. -/
theorem approachLoopClear_ends {u : State} {ps : List Part} (hp : s.powered = true) (hc : s.approachClear a = u.seal)
    (hu : SameBut ps (s.loopCleared a) u) (hl : Part.loops ∉ ps := by decide) :
    ∃ t, exec (.approachLoopClear a) s = .next t ∧ SameBut [.checkWord] u t ∧
      t.loop a = { occupied := false, clearFilter := none } ∧ (∀ o : LoopNo, o ≠ a → t.loop o = s.loop o) ∧
      SameBut ([.loops] ++ ps ++ [.checkWord]) s t := by
  have hend : SameBut [.checkWord] u u.seal.transmit := (State.seal_same u).transmit
  have hloop : ∀ o, u.seal.transmit.loop o = (s.loopCleared a).loop o := fun o => (hend.loop o).trans (hu.loop o hl)
  exact ⟨_, by rw [exec_approachLoopClear hp, hc], hend, (hloop a).trans (s.loopCleared_loop a),
    fun o ho => (hloop o).trans (s.loopCleared_loop_ne ho), ((s.loopCleared_same a).trans hu).trans hend⟩

end

end Sys2Proof.Machine

open Sys2Proof Sys2Proof.Machine

/-- Settles O57: the loop's own changes by its filter; the lanes at it by their states, each through the state that its
part leaves (`reachedAt`, `forgotten`, `entryWeighs`). -/
theorem approachLoopsBringAndLoseVehicles : Obligations.ApproachLoopsBringAndLoseVehicles := by
  intro a s hp hf
  refine ⟨fun inputs h => approachLoopOccupied_again hp inputs h, fun inputs h => ?occupied, ?inactive,
    fun h => ?stopped, fun l h hl hst => ?asking, fun l b f n v h hl hst he hm hb hfr hg hn hv hvs hh hc => ?entering,
    fun l h hl => ⟨fun hst hq => ?admitting, fun hst => ?siteFull, fun b n v hst hb hh hn hv hsf => ?awaitBridge⟩⟩
  case occupied =>
    obtain ⟨t, hex, hloop, hpins, hlane, hloops, hsame⟩ := approachLoopOccupied_first hp hf inputs h
    refine ⟨t, hex, hloop, hpins, fun l hl hst hr => ?_, fun l hl => ?_, hloops, hsame⟩
    · rw [hlane l, if_pos hl, Lane.reached_idle hst hr]
      rfl
    · rw [hlane l]
      split
      case isTrue ha => exact Lane.reached_other (hl.resolve_left (fun k => k ha))
      case isFalse => rfl
  case inactive =>
    obtain ⟨t, hex, hloop, hloops, hsame⟩ := approachLoopInputInactive_starts (a := a) hp
    exact ⟨t, hex, fun ho hn => hloop.trans (ApproachLoop.inputsInactive_starts ho hn),
      fun h => hloop.trans (ApproachLoop.inputsInactive_stays h), hloops, hsame⟩
  case stopped =>
    refine ⟨_, exec_approachLoopClear hp, ?_⟩
    rw [State.approachClear_stopped h]
    exact (SameBut.refl s []).transmit
  case asking =>
    have hi : (s.lane l).state ≠ .idle := fun k => by simp [k] at hst
    obtain ⟨t, hex, hend, hloop, hloops, hsame⟩ := approachLoopClear_ends hp
      (State.approachClear_forgets h hl hf (State.leaveBeforeEntry_asking hst)) (State.forgotten_same _ l)
    have hlane := (hend.lane l).trans (State.forgotten_lane (s := s.loopCleared a) hi)
    refine ⟨t, hex, hloop, ?_⟩
    simp only [hlane, true_and]
    exact ⟨fun ha => if_pos ha, fun m hm => (hend.lane m).trans (State.forgotten_others _ hm), hloops, hsame⟩
  case entering =>
    have hvt : v.state ≠ .ticketed := by simp [hvs]
    have hstart : s.canStartCapture l b = true := State.canStartCapture_iff.mpr ⟨hh, hc, hf⟩
    obtain ⟨t, hex, hend, -, -, hsame⟩ := approachLoopClear_ends hp
      (State.approachClear_entering h hl hf hst he hm hb hfr hg hn hv hvt hstart) (State.entryWeighs_same _ l b f n)
    have hlane := (hend.lane l).trans (State.entryWeighs_lane (s := s.loopCleared a) b f n hst)
    have hvisit := (hend.visitOf n).trans (State.entryWeighs_visitOf (s := s.loopCleared a) l b f hv)
    rw [hvs] at hvisit
    have hbar : ∀ o, t.barrier o = ((s.loopCleared a).entryEnded l f).barrier o := fun o =>
      (hend.barrier o).trans (State.entryWeighs_barrier l b f n o)
    refine ⟨t, hex, ?_⟩
    simp only [hlane, true_and]
    refine ⟨(hbar f).trans (State.entryEnded_barrier _ l f), ?_, hvisit,
      fun m hm => (hend.lane m).trans (State.entryWeighs_others b f n hm),
      fun o ho => (hbar o).trans (State.entryEnded_barrier_ne _ l ho), hsame⟩
    exact (congrArg Bridge.capture (hend.bridge b)).trans (State.entryWeighs_capture l b f n)
  case admitting =>
    obtain ⟨t, hex, hend, -, -, hsame⟩ := approachLoopClear_ends hp (State.approachClear_admitting h hl hf hst hq)
      (((State.queryEnded_same _ l _).mono (by decide)).then (State.forgotten_same _ l) :
        SameBut [.queries, .lanes, .reports] _ _)
    have hquery := State.queryEnded_lane (s.loopCleared a) l QuerySlot.abandoned
    have hlane := (hend.lane l).trans (State.forgotten_lane_of ((congrArg Lane.state hquery).trans hst))
    have hslot : ∀ m, t.slot m = if l = m then (s.slot m).abandoned else s.slot m := fun m =>
      ((hend.slot m).trans ((State.forgotten_same _ l).slot m)).trans (State.queryEnded_slot _ l m _)
    rw [hquery] at hlane
    refine ⟨t, hex, hlane, (hslot l).trans (if_pos rfl), fun m hm => ⟨?_, (hslot m).trans (if_neg (Ne.symm hm))⟩, ?_,
      hsame.mono (by decide)⟩
    · exact ((hend.lane m).trans (State.forgotten_others _ hm)).trans (State.queryEnded_others _ _ hm)
    · obtain ⟨-, hcount⟩ := ((State.forgotten_same _ l).trans hend) .queries (by decide)
      exact hcount
  case siteFull =>
    obtain ⟨t, hex, hend, -, -, hsame⟩ := approachLoopClear_ends hp (State.approachClear_siteFull h hl hf hst)
      (((State.siteFull_same _ _).mono (by decide)).then (State.forgotten_same _ l) :
        SameBut [.siteFull, .lanes, .reports] _ _)
    have hlane := (hend.lane l).trans
      (State.forgotten_lane_of (s := (s.loopCleared a).leaveSiteFull l) hst)
    refine ⟨t, hex, hlane, ?_, fun m hm => (hend.lane m).trans (State.forgotten_others _ hm), hsame.mono (by decide)⟩
    exact (hend .siteFull (by decide)).trans ((State.forgotten_same _ l) .siteFull (by decide))
  case awaitBridge =>
    obtain ⟨hvisits, hremoved, hkept⟩ := State.giveUpVisit_unasked (s := (s.loopCleared a).requestGivenUp l b) hsf hn hv
    obtain ⟨t, hex, hend, -, -, hsame⟩ := approachLoopClear_ends hp
      (State.approachClear_awaitBridge h hl hf hst hb hh)
      ((((State.requestGivenUp_same _ l b).mono (by decide)).then hvisits).then (State.forgotten_same _ l) :
        SameBut [.grants, .visits, .lanes, .reports] _ _)
    have hlane : ∀ m, (((s.loopCleared a).requestGivenUp l b).giveUpVisit l).lane m = s.lane m :=
      fun m => hvisits.lane m
    have hforgot := (State.forgotten_same (((s.loopCleared a).requestGivenUp l b).giveUpVisit l) l).trans hend
    have hgrant : ∀ o, t.grant o = ((s.loopCleared a).requestGivenUp l b).grant o := fun o =>
      (hforgot.grant o).trans (hvisits.grant o)
    have hgone := (hend.lane l).trans (State.forgotten_lane_of ((congrArg Lane.state (hlane l)).trans hst))
    rw [hlane l] at hgone
    refine ⟨t, hex, hgone, (hgrant b).trans (State.requestGivenUp_grant _ l b), fun o ho => (hgrant o).trans
      (State.onGrant_grant_ne _ _ (Ne.symm ho)), fun hr => ?_, fun hr => ?_, fun m hm => ?_, hsame.mono (by decide)⟩
    · exact (congrArg VisitStore.records (hforgot .visits (by decide))).trans (hremoved hr)
    · exact (hforgot.visitOf n).trans (hkept hr)
    · exact ((hend.lane m).trans (State.forgotten_others _ hm)).trans (hlane m)

end

-- ==== Proofs of family 04: safety loops ====
section
/-! What a safety loop does at its becoming OCCUPIED and CLEAR: its barrier, the crossing marks of the lanes that watch
it, and the rear passage that ends a lane's hold of its vehicle (O56). -/

namespace Sys2Proof.Machine

/- One proof after another: the check compiles the whole text in one process, whose threads are limited. -/
set_option Elab.async false

/-! ### The commands -/

section
variable {s : State} {b : BarrierNo}

theorem exec_safetyLoopOccupied (h : s.powered = true) (inputs : LoopInputs) :
    exec (.safetyLoopOccupied b inputs) s =
      .next ((s.onPins (fun p => p.setSafety b inputs.hasPresence inputs.hasFault)).safetyActive b).transmit := by
  simp [exec, execSafetyLoopOccupied, State.runPins_powered h]

theorem exec_safetyLoopInputInactive (h : s.powered = true) :
    exec (.safetyLoopInputInactive b) s =
      .next ((s.onPins (fun p => p.setSafety b false false)).onBarrier b Barrier.inputsInactive).transmit := by
  simp [exec, execSafetyLoopInputInactive, State.runPins_powered h]

theorem exec_safetyLoopClear (h : s.powered = true) :
    exec (.safetyLoopClear b) s = .next (s.safetyClear b).transmit := by
  simp [exec, execSafetyLoopClear, State.run_powered h]

end

/-! ### The barrier of the loop (R59, R62, R63) -/

section
variable {x : Barrier} {time : Nat}

theorem Barrier.loopOccupied_lowering (h : x.state = .lowering) :
    x.loopOccupied time =
      { x with
        occupied := true, clearFilter := none, state := .raising, pendingLower := true, motionTimer := some time,
        reversals := countTo 65535 x.reversals } := by
  simp [Barrier.loopOccupied, h]

theorem Barrier.loopOccupied_other (h : x.state ≠ .lowering) :
    x.loopOccupied time = { x with occupied := true, clearFilter := none } := by
  cases hst : x.state with
  | lowering => exact absurd hst h
  | down => simp [Barrier.loopOccupied, hst]
  | raising => simp [Barrier.loopOccupied, hst]
  | up => simp [Barrier.loopOccupied, hst]
  | fault => simp [Barrier.loopOccupied, hst]

theorem Barrier.loopClear_pending (h : x.state = .up) (hp : x.pendingLower = true) :
    x.loopClear time =
      { x with
        occupied := false, clearFilter := none, state := .lowering, pendingLower := false,
        motionTimer := some time } := by
  simp [Barrier.loopClear, h, hp, Barrier.startLowering]

theorem Barrier.loopClear_other (h : x.state ≠ .up ∨ x.pendingLower = false) :
    x.loopClear time = { x with occupied := false, clearFilter := none } := by
  refine if_neg (fun k => ?_)
  obtain ⟨hu, hp⟩ := k
  rcases h with h | h
  · exact h hu
  · exact Bool.false_ne_true (h.symm.trans hp)

/-- An UP barrier lowers once its loop is CLEAR and LOWER given, whether LOWER was pending or not. -/
theorem Barrier.loopClear_lower (h : x.state = .up) :
    (x.loopClear time).lower time =
      { x with
        occupied := false, clearFilter := none, state := .lowering, pendingLower := false,
        motionTimer := some time } := by
  cases hp : x.pendingLower with
  | true =>
    rw [Barrier.loopClear_pending h hp, Barrier.lower_stands (.inr (.inl rfl))]
  | false =>
    rw [Barrier.loopClear_other (.inr hp), Barrier.lower_up_clear (by exact h) rfl]

/-- An UP barrier is not DOWN as its loop becomes CLEAR: it stays UP or goes to LOWERING. -/
theorem Barrier.loopClear_notDown (h : x.state = .up) : (x.loopClear time).state ≠ .down := by
  cases hp : x.pendingLower with
  | true => simp [Barrier.loopClear_pending h hp]
  | false => simp [Barrier.loopClear_other (.inr hp), h]

theorem Barrier.inputsInactive_starts (h : x.occupied = true) (hf : x.clearFilter = none) :
    x.inputsInactive = { x with clearFilter := some 500 } := if_pos ⟨h, hf⟩

theorem Barrier.inputsInactive_stays (h : x.occupied = false ∨ x.clearFilter ≠ none) : x.inputsInactive = x := by
  refine if_neg (fun k => ?_)
  obtain ⟨ho, hf⟩ := k
  rcases h with h | h
  · exact Bool.false_ne_true (h.symm.trans ho)
  · exact h hf

end

theorem SameBut.motionTime {ps : List Part} {s t : State} (h : SameBut ps s t)
    (hp : Part.site ∉ ps := by decide) : t.motionTime = s.motionTime :=
  congrArg (fun x => x.timers.motion * 1000) (show t.ret.site = s.ret.site from h _ hp)

/-! ### Crossing marks (R78) -/

theorem LaneState.watches_iff {st : LaneState} : st.watches = true ↔ WatchesMarks st := by
  cases st <;> simp [LaneState.watches, WatchesMarks]

/-- A lane with the configuration `c` as the marks of the barrier move by one function. -/
def Lane.marked (c : LaneConfig) (b : BarrierNo) (f : CrossingMark → CrossingMark) (n : Lane) : Lane :=
  if n.state.watches then
    { n with
      frontMark := if c.front = some b then f n.frontMark else n.frontMark
      rearMark := if c.rear = some b then f n.rearMark else n.rearMark }
  else n

theorem Lane.marked_state (c : LaneConfig) (b : BarrierNo) (f : CrossingMark → CrossingMark) (n : Lane) :
    (n.marked c b f).state = n.state := by
  unfold Lane.marked
  split
  · rfl
  · rfl

theorem Lane.marked_unnamed {c : LaneConfig} {b : BarrierNo} (hf : c.front ≠ some b) (hr : c.rear ≠ some b)
    (f : CrossingMark → CrossingMark) (n : Lane) : n.marked c b f = n := by
  simp [Lane.marked, hf, hr]

/-- A lane that names the barrier as its rear one only: its rear mark alone moves. -/
theorem Lane.marked_rear {c : LaneConfig} {b : BarrierNo} {n : Lane} (hf : c.front ≠ some b) (hr : c.rear = some b)
    (hw : n.state.watches = true) (f : CrossingMark → CrossingMark) :
    n.marked c b f = { n with rearMark := f n.rearMark } := by
  simp [Lane.marked, hf, hr, hw]

theorem CrossingMark.loopOccupied_eq (m : CrossingMark) : m.loopOccupied = if m = .none then .seen else m := by
  cases m with
  | none => rfl
  | seen => rfl
  | passed => rfl

theorem CrossingMark.loopClear_eq (m : CrossingMark) : m.loopClear = if m = .seen then .passed else m := by
  cases m with
  | none => rfl
  | seen => rfl
  | passed => rfl

/-- A lane marked by a function that takes `before` to `after`, and any other mark to itself, has moved its marks. -/
theorem MarksMove.of_marked {s t : State} {b : BarrierNo} {before after : CrossingMark}
    {f : CrossingMark → CrossingMark} {l : LaneNo} (hf : ∀ m, f m = if m = before then after else m)
    (h : t.lane l = (s.lane l).marked (s.config l) b f) : MarksMove s t b before after l := by
  refine ⟨fun hw => ?_, fun hw => ?_⟩
  · rw [h, Lane.marked, if_pos (LaneState.watches_iff.mpr hw)]
    simp only [hf, ite_and]
  · rw [h, Lane.marked, if_neg (fun k => hw (LaneState.watches_iff.mp k))]

section
variable {s v : State} {l m : LaneNo} {b : BarrierNo} {f : CrossingMark → CrossingMark}

theorem State.moveMark_same (s : State) (l : LaneNo) (b : BarrierNo) (f : CrossingMark → CrossingMark) :
    SameBut [.lanes] s (s.moveMark l b f) := by
  unfold State.moveMark
  split
  · exact s.onLane_same l _
  · exact .refl s _

theorem State.moveMark_lane (s : State) (l : LaneNo) (b : BarrierNo) (f : CrossingMark → CrossingMark) :
    (s.moveMark l b f).lane l = (s.lane l).marked (s.config l) b f := by
  unfold State.moveMark Lane.marked
  split
  · rw [State.onLane_lane]
  · rfl

theorem State.moveMark_others (s : State) (b : BarrierNo) (f : CrossingMark → CrossingMark) (h : m ≠ l) :
    (s.moveMark l b f).lane m = s.lane m := by
  unfold State.moveMark
  split
  · exact State.onLane_lane_ne _ _ (Ne.symm h)
  · rfl

theorem State.moveMark_laneState (s : State) (l : LaneNo) (b : BarrierNo) (f : CrossingMark → CrossingMark)
    (m : LaneNo) : ((s.moveMark l b f).lane m).state = (s.lane m).state := by
  by_cases h : m = l
  · subst h
    rw [s.moveMark_lane m, Lane.marked_state]
  · rw [s.moveMark_others b f h]

theorem State.lanesNaming_nodup (s : State) (b : BarrierNo) : (s.lanesNaming b).Nodup := allFour_nodup.filter _

theorem State.mem_lanesNaming : l ∈ s.lanesNaming b ↔ (s.config l).front = some b ∨ (s.config l).rear = some b := by
  simp [State.lanesNaming, mem_allFour]

/-- The marks of the barrier move at every lane that names it. -/
def State.marksMoved (s : State) (b : BarrierNo) (f : CrossingMark → CrossingMark) : State :=
  forEach (s.lanesNaming b) (fun l s => s.moveMark l b f) s

theorem State.marksMoved_same (s : State) (b : BarrierNo) (f : CrossingMark → CrossingMark) :
    SameBut [.lanes] s (s.marksMoved b f) :=
  .forEach (fun l u => u.moveMark_same l b f) _ _

theorem State.marksMoved_lane (s : State) (b : BarrierNo) (f : CrossingMark → CrossingMark) (l : LaneNo) :
    (s.marksMoved b f).lane l = (s.lane l).marked (s.config l) b f := by
  have h : (s.marksMoved b f).lane l =
      if l ∈ s.lanesNaming b then (s.lane l).marked (s.config l) b f else s.lane l := by
    refine forEach_reads (read := State.lane) (F := fun m n => n.marked (s.config m) b f)
      (P := fun u => SameBut [.lanes] s u) ?keep ?here ?there (s.lanesNaming_nodup b) (.refl s _) l
    case keep => exact fun m _ u hu => hu.then (u.moveMark_same m b f)
    case here =>
      intro m _ u hu
      rw [u.moveMark_lane m, hu.config m]
    case there => exact fun m _ k u _ hk => u.moveMark_others b f hk
  rw [h]
  split
  case isTrue => rfl
  case isFalse hn =>
    rw [State.mem_lanesNaming, not_or] at hn
    exact (Lane.marked_unnamed hn.left hn.right f _).symm

end

/-! ### A safety loop becomes OCCUPIED -/

section
variable {s : State} {b : BarrierNo}

theorem State.safetyActive_again (h : (s.barrier b).occupied = true) :
    s.safetyActive b = s.onBarrier b (fun x => { x with clearFilter := none }) := if_pos h

theorem State.safetyActive_first (h : (s.barrier b).occupied = false) :
    s.safetyActive b = (s.onBarrier b (Barrier.loopOccupied s.motionTime)).marksMoved b .loopOccupied := by
  simp only [State.safetyActive, h]
  rfl

theorem safetyLoopOccupied_again (hp : s.powered = true) (inputs : LoopInputs) (h : (s.barrier b).occupied = true) :
    ∃ t, exec (.safetyLoopOccupied b inputs) s = .next t ∧ t.barrier b = { s.barrier b with clearFilter := none } ∧
      (∀ o : BarrierNo, o ≠ b → t.barrier o = s.barrier o) ∧ SameBut [.pins, .barriers] s t := by
  refine ⟨_, exec_safetyLoopOccupied hp inputs, ?_⟩
  rw [State.safetyActive_again (s := s.onPins _) h]
  refine ⟨?_, fun o ho => ?_, ?_⟩
  · exact (State.transmit_barrier _ _).trans (State.onBarrier_barrier _ _ _)
  · exact (State.transmit_barrier _ _).trans (State.onBarrier_barrier_ne _ _ (Ne.symm ho))
  · exact (((s.onPins_same _).mono (by decide)).then (State.onBarrier_same _ b _)).transmit

theorem safetyLoopOccupied_first (hp : s.powered = true) (inputs : LoopInputs) (h : (s.barrier b).occupied = false) :
    ∃ t, exec (.safetyLoopOccupied b inputs) s = .next t ∧
      t.pins = s.pins.setSafety b inputs.hasPresence inputs.hasFault ∧
      t.barrier b = (s.barrier b).loopOccupied s.motionTime ∧ (∀ o : BarrierNo, o ≠ b → t.barrier o = s.barrier o) ∧
      (∀ l : LaneNo, t.lane l = (s.lane l).marked (s.config l) b .loopOccupied) ∧
      SameBut [.pins, .barriers, .lanes] s t := by
  refine ⟨_, exec_safetyLoopOccupied hp inputs, ?_⟩
  rw [State.safetyActive_first (s := s.onPins _) h]
  have hpins := s.onPins_same (fun p => p.setSafety b inputs.hasPresence inputs.hasFault)
  have hmarks := (State.marksMoved_same
    ((s.onPins (fun p => p.setSafety b inputs.hasPresence inputs.hasFault)).onBarrier b
      (Barrier.loopOccupied s.motionTime)) b .loopOccupied).transmit
  refine ⟨hmarks .pins (by decide), (hmarks.barrier b).trans (State.onBarrier_barrier _ _ _), fun o ho => ?_,
    fun l => ?_, ((hpins.mono (by decide)).then (State.onBarrier_same _ b _)).then hmarks⟩
  · exact (hmarks.barrier o).trans (State.onBarrier_barrier_ne _ _ (Ne.symm ho))
  · exact (State.transmit_lane _ _).trans (State.marksMoved_lane _ b _ l)

theorem safetyLoopInputInactive_starts (hp : s.powered = true) :
    ∃ t, exec (.safetyLoopInputInactive b) s = .next t ∧ t.pins = s.pins.setSafety b false false ∧
      t.barrier b = (s.barrier b).inputsInactive ∧ (∀ o : BarrierNo, o ≠ b → t.barrier o = s.barrier o) ∧
      SameBut [.pins, .barriers] s t := by
  refine ⟨_, exec_safetyLoopInputInactive hp, ?_, ?_, fun o ho => ?_, ?_⟩
  · exact State.transmit_pins _
  · exact (State.transmit_barrier _ _).trans (State.onBarrier_barrier _ _ _)
  · exact (State.transmit_barrier _ _).trans (State.onBarrier_barrier_ne _ _ (Ne.symm ho))
  · exact (((s.onPins_same _).mono (by decide)).then (State.onBarrier_same _ b _)).transmit

end

/-! ### A safety loop becomes CLEAR -/

section
variable {s u v : State} {l m : LaneNo} {b : BarrierNo}

/-- The loop is CLEAR and its barrier has taken its part in that. -/
def State.safetyCleared (s : State) (b : BarrierNo) : State := s.onBarrier b (Barrier.loopClear s.motionTime)

theorem State.safetyClear_stopped (h : (s.barrier b).clearFilter = none) : s.safetyClear b = s := by
  simp [State.safetyClear, h]

theorem State.safetyClear_ends (h : (s.barrier b).clearFilter.isSome = true) :
    s.safetyClear b = ((s.safetyCleared b).handClear b).seal := if_pos h

/-- A lane in this state tests no conditions of its own (R78, R84, R86, R90, R92). -/
def LaneState.untested (st : LaneState) : Prop := st ≠ .entering ∧ st ≠ .leaving ∧ st ≠ .backingOut ∧ st ≠ .passing

/-- The loop's becoming CLEAR does nothing at the lane but move its marks: the lane tests nothing in its state, or it is
LEAVING over a rear barrier that is not DOWN, with a rear mark that is not SEEN. -/
def State.OnlyMarks (s : State) (l : LaneNo) (b : BarrierNo) : Prop :=
  (s.lane l).state.untested ∨
  ((s.lane l).state = .leaving ∧ (s.lane l).rearMark ≠ .seen ∧ (s.config l).front ≠ some b ∧
    (s.config l).rear = some b ∧ (s.barrier b).state ≠ .down)

theorem State.testLane_leaving_waits (hst : (s.lane l).state = .leaving) (hr : (s.config l).rear = some b)
    (hd : (s.barrier b).state ≠ .down) : s.testLane l = s := by
  simp [State.testLane, hst, hr, State.barrierIs, hd]

theorem State.OnlyMarks.laneClear (h : s.OnlyMarks l b) : s.laneClear l b = s.moveMark l b .loopClear := by
  have hmark := s.moveMark_lane l b .loopClear
  have hst := s.moveMark_laneState l b .loopClear l
  rcases h with ⟨he, hl, ho, hp⟩ | ⟨hl, hm, hf, hr, hd⟩
  · have hno : ((s.moveMark l b .loopClear).lane l).state ≠ .leaving := by rwa [hst]
    have hrest : (s.moveMark l b .loopClear).testLane l = s.moveMark l b .loopClear :=
      State.testLane_resting (by rw [hst]; exact ⟨he, hl, ho, hp⟩)
    simp [State.laneClear, hno, hrest]
  · have hw : (s.lane l).state.watches = true := by simp [hl, LaneState.watches]
    have hrear : ((s.moveMark l b .loopClear).lane l).rearMark = (s.lane l).rearMark := by
      rw [hmark, Lane.marked_rear hf hr hw]
      simp [CrossingMark.loopClear_eq, hm]
    have hsame := s.moveMark_same l b .loopClear
    have hrest : (s.moveMark l b .loopClear).testLane l = s.moveMark l b .loopClear :=
      State.testLane_leaving_waits (hst.trans hl) (by rwa [hsame.config l]) (by rwa [hsame.barrier b])
    simp [State.laneClear, hrear, hrest]

/-- The marks of one lane move without the clearing's doing more at any other. -/
theorem State.OnlyMarks.moveMark (h : s.OnlyMarks l b) (m : LaneNo) : (s.moveMark m b .loopClear).OnlyMarks l b := by
  have hst := s.moveMark_laneState m b .loopClear l
  have hsame := s.moveMark_same m b .loopClear
  rcases h with h | ⟨hl, hm, hf, hr, hd⟩
  · exact .inl (by rwa [hst])
  · refine .inr ⟨hst.trans hl, ?_, by rwa [hsame.config l], by rwa [hsame.config l], by rwa [hsame.barrier b]⟩
    by_cases hml : l = m
    · subst hml
      have hw : (s.lane l).state.watches = true := by simp [hl, LaneState.watches]
      rw [s.moveMark_lane l, Lane.marked_rear hf hr hw]
      simp [CrossingMark.loopClear_eq, hm]
    · rwa [s.moveMark_others b _ hml]

theorem forEach_congr {α : Type} {f g : α → State → State} {P : State → Prop} {xs : List α}
    (h : ∀ x ∈ xs, ∀ s, P s → f x s = g x s ∧ P (g x s)) (hs : P s) : forEach xs f s = forEach xs g s := by
  induction xs generalizing s with
  | nil => rfl
  | cons x xs ih =>
    obtain ⟨heq, hP⟩ := h x List.mem_cons_self s hs
    have hrec : forEach (x :: xs) f s = forEach xs f (f x s) := rfl
    rw [hrec, heq]
    exact ih (fun y hy => h y (List.mem_cons_of_mem _ hy)) hP

theorem forEach_invariant {α : Type} {f : α → State → State} {P : State → Prop} {xs : List α}
    (h : ∀ x ∈ xs, ∀ s, P s → P (f x s)) (hs : P s) : P (forEach xs f s) := by
  induction xs generalizing s with
  | nil => exact hs
  | cons x xs ih => exact ih (fun y hy => h y (List.mem_cons_of_mem _ hy)) (h x List.mem_cons_self s hs)

theorem State.handClear_onlyMarks (h : ∀ l ∈ s.lanesNaming b, s.OnlyMarks l b) :
    s.handClear b = s.marksMoved b .loopClear :=
  forEach_congr (P := fun u => ∀ l ∈ s.lanesNaming b, u.OnlyMarks l b)
    (fun m hm _ hu => ⟨(hu m hm).laneClear, fun l hl => (hu l hl).moveMark m⟩) h

/-- The end of the clear filter where the lanes only move their marks. -/
theorem safetyLoopClear_marks (hp : s.powered = true) (h : (s.barrier b).clearFilter.isSome = true)
    (hl : ∀ l ∈ s.lanesNaming b, (s.safetyCleared b).OnlyMarks l b) :
    ∃ t, exec (.safetyLoopClear b) s = .next t ∧ t.barrier b = (s.barrier b).loopClear s.motionTime ∧
      (∀ o : BarrierNo, o ≠ b → t.barrier o = s.barrier o) ∧
      (∀ l : LaneNo, t.lane l = (s.lane l).marked (s.config l) b .loopClear) ∧
      SameBut [.barriers, .lanes, .checkWord] s t := by
  have hmarks := (((State.marksMoved_same (s.safetyCleared b) b .loopClear).mono (by decide)).then
    (State.seal_same _) : SameBut [.lanes, .checkWord] _ _).transmit
  refine ⟨_, by rw [exec_safetyLoopClear hp, State.safetyClear_ends h, State.handClear_onlyMarks hl], ?_,
    fun o ho => ?_, fun l => ?_, ((s.onBarrier_same b _).mono (by decide)).then hmarks⟩
  · exact (hmarks.barrier b).trans (State.onBarrier_barrier _ _ _)
  · exact (hmarks.barrier o).trans (State.onBarrier_barrier_ne _ _ (Ne.symm ho))
  · exact (State.transmit_lane _ _).trans (State.marksMoved_lane _ b _ l)

/-! ### The rear loop of a lane in LEAVING (R90) -/

/-- The lane's vehicle without a visit has passed the rear loop: LOWER is given to the rear barrier, and the lane lets
go of the identity (R90). -/
def State.passedOut (s : State) (l : LaneNo) (b : BarrierNo) : State :=
  ((s.moveMark l b .loopClear).commandLower b).clearVehicle l

theorem State.passedOut_same (s : State) (l : LaneNo) (b : BarrierNo) :
    SameBut [.barriers, .lanes] s (s.passedOut l b) :=
  (((s.moveMark_same l b _).mono (by decide)).then (State.onBarrier_same _ b _)).then (State.onLane_same _ l _)

theorem State.passedOut_barrier (s : State) (l : LaneNo) (b : BarrierNo) :
    (s.passedOut l b).barrier b = (s.barrier b).lower s.motionTime := by
  have hsame := s.moveMark_same l b .loopClear
  have h : (s.passedOut l b).barrier b =
      ((s.moveMark l b .loopClear).barrier b).lower (s.moveMark l b .loopClear).motionTime :=
    State.onBarrier_barrier _ _ _
  rw [h, hsame.barrier b, hsame.motionTime]

theorem State.passedOut_barrier_ne (s : State) (l : LaneNo) {o : BarrierNo} (h : o ≠ b) :
    (s.passedOut l b).barrier o = s.barrier o :=
  (State.onBarrier_barrier_ne (s.moveMark l b .loopClear) _ (Ne.symm h)).trans ((s.moveMark_same l b _).barrier o)

theorem State.passedOut_others (s : State) (b : BarrierNo) (h : m ≠ l) : (s.passedOut l b).lane m = s.lane m :=
  (State.onLane_lane_ne ((s.moveMark l b .loopClear).commandLower b) _ (Ne.symm h)).trans (s.moveMark_others b _ h)

/-- The lane is LEAVING by the barrier `b`, its rear one only, with no visit. -/
structure State.LeavesBy (s : State) (l : LaneNo) (b : BarrierNo) : Prop where
  failing : s.failing = false
  state   : (s.lane l).state = .leaving
  rear    : (s.config l).rear = some b
  front   : (s.config l).front ≠ some b
  visit   : (s.lane l).visit = none

theorem State.LeavesBy.moveMark_lane (h : s.LeavesBy l b) :
    (s.moveMark l b .loopClear).lane l = { s.lane l with rearMark := (s.lane l).rearMark.loopClear } := by
  rw [s.moveMark_lane l, Lane.marked_rear h.front h.rear (by simp [h.state, LaneState.watches])]

theorem State.LeavesBy.passedOut_lane (h : s.LeavesBy l b) (hm : (s.lane l).rearMark = .seen) :
    (s.passedOut l b).lane l = { s.lane l with rearMark := .passed, identity := none, visit := none } := by
  have hlane : ((s.moveMark l b .loopClear).commandLower b).lane l = { s.lane l with rearMark := .passed } := by
    exact h.moveMark_lane.trans (by rw [hm]; rfl)
  rw [State.passedOut, State.clearVehicle, State.onLane_lane, hlane]

theorem State.LeavesBy.laneClear_seen (h : s.LeavesBy l b) (hm : (s.lane l).rearMark = .seen)
    (hd : ((s.barrier b).lower s.motionTime).state ≠ .down) : s.laneClear l b = s.passedOut l b := by
  have hsame := s.moveMark_same l b .loopClear
  have hlane := h.moveMark_lane
  rw [hm] at hlane
  have hlow : (s.moveMark l b .loopClear).lowerRear l = (s.moveMark l b .loopClear).commandLower b := by
    rw [State.lowerRear, hsame.config l, h.rear]
    rfl
  have hvisit : (((s.moveMark l b .loopClear).commandLower b).lane l).visit = none :=
    (congrArg Lane.visit hlane).trans h.visit
  have hpass : (s.moveMark l b .loopClear).passRear l = s.passedOut l b := by
    simp only [State.passRear, hlow, hvisit]
    rfl
  have hrest : (s.passedOut l b).testLane l = s.passedOut l b := by
    refine State.testLane_leaving_waits (b := b) ?_ ?_ (by rwa [s.passedOut_barrier])
    · rw [h.passedOut_lane hm]
      exact h.state
    · rw [(s.passedOut_same l b).config l]
      exact h.rear
  simp [State.laneClear, hlane, hm, CrossingMark.loopClear, h.state, hsame.failing, h.failing, hpass, hrest]

/-- A state that the loop's becoming CLEAR reaches, lane by lane, from `v`, where the lane `l` is LEAVING over it: the
rear barrier has been given LOWER once the lane's rear mark is PASSED. -/
structure RearClearing (v u : State) (l : LaneNo) (b : BarrierNo) : Prop where
  leaves : u.LeavesBy l b
  same   : SameBut [.barriers, .lanes] v u
  states : ∀ m, (u.lane m).state = (v.lane m).state
  others : ∀ o, o ≠ b → u.barrier o = v.barrier o
  rear   : u.barrier b = if (u.lane l).rearMark = .passed then (v.barrier b).lower v.motionTime else v.barrier b

theorem State.LeavesBy.of_same {ps : List Part} (h : s.LeavesBy l b) (k : SameBut ps s u)
    (hst : (u.lane l).state = (s.lane l).state) (hv : (u.lane l).visit = none) (hp : Part.powerFail ∉ ps := by decide)
    (hs : Part.site ∉ ps := by decide) : u.LeavesBy l b :=
  ⟨(k.failing hp).trans h.failing, hst.trans h.state, by rw [k.config l hs]; exact h.rear,
    by rw [k.config l hs]; exact h.front, hv⟩

/-- Another lane's part in the clearing only moves its marks. -/
theorem RearClearing.moveMark (h : RearClearing v u l b) (hm : m ≠ l) :
    RearClearing v (u.moveMark m b .loopClear) l b := by
  have hsame := u.moveMark_same m b .loopClear
  have hlane := u.moveMark_others (l := m) b .loopClear (Ne.symm hm)
  refine ⟨h.leaves.of_same hsame (by rw [hlane]) (by rw [hlane]; exact h.leaves.visit), h.same.then hsame,
    fun k => (u.moveMark_laneState m b _ k).trans (h.states k), fun o ho => (hsame.barrier o).trans (h.others o ho), ?_⟩
  rw [hsame.barrier b, hlane]
  exact h.rear

/-- The part of the leaving lane itself: over a SEEN rear mark it lets its vehicle out, else it does nothing. -/
theorem RearClearing.laneClear_eq (h : RearClearing v u l b) (hx : (v.barrier b).state ≠ .down)
    (hy : ((v.barrier b).lower v.motionTime).state ≠ .down) :
    u.laneClear l b = if (u.lane l).rearMark = .seen then u.passedOut l b else u.moveMark l b .loopClear := by
  split
  case isTrue hm =>
    refine h.leaves.laneClear_seen hm ?_
    rw [h.rear, if_neg (by simp [hm]), h.same.motionTime]
    exact hy
  case isFalse hm =>
    refine State.OnlyMarks.laneClear
      (.inr ⟨h.leaves.state, hm, h.leaves.front, h.leaves.rear, ?_⟩)
    rw [h.rear]
    split
    · exact hy
    · exact hx

theorem RearClearing.laneClear_lane (h : RearClearing v u l b) (hx : (v.barrier b).state ≠ .down)
    (hy : ((v.barrier b).lower v.motionTime).state ≠ .down) :
    (u.laneClear l b).lane l =
      if (u.lane l).rearMark = .seen then { u.lane l with rearMark := .passed, identity := none, visit := none }
      else u.lane l := by
  rw [h.laneClear_eq hx hy]
  split
  case isTrue hm => exact h.leaves.passedOut_lane hm
  case isFalse hm =>
    rw [h.leaves.moveMark_lane, CrossingMark.loopClear_eq, if_neg hm]

theorem RearClearing.laneClear (h : RearClearing v u l b) (hx : (v.barrier b).state ≠ .down)
    (hy : ((v.barrier b).lower v.motionTime).state ≠ .down) : RearClearing v (u.laneClear l b) l b := by
  have hlane := h.laneClear_lane hx hy
  have heq := h.laneClear_eq hx hy
  by_cases hm : (u.lane l).rearMark = .seen
  · rw [if_pos hm] at hlane heq
    rw [heq] at hlane ⊢
    have hsame := u.passedOut_same l b
    refine ⟨h.leaves.of_same hsame (by rw [hlane]) (by rw [hlane]), h.same.then hsame, fun k => ?_,
      fun o ho => (u.passedOut_barrier_ne l ho).trans (h.others o ho), ?_⟩
    · by_cases hk : k = l
      · subst hk
        rw [hlane]
        exact h.states k
      · rw [u.passedOut_others b hk]
        exact h.states k
    · rw [hlane, if_pos rfl, u.passedOut_barrier, h.same.motionTime, h.rear, if_neg (by simp [hm])]
  · rw [if_neg hm] at hlane heq
    rw [heq] at hlane ⊢
    have hsame := u.moveMark_same l b .loopClear
    refine ⟨h.leaves.of_same hsame (by rw [hlane]) (by rw [hlane]; exact h.leaves.visit), h.same.then hsame,
      fun k => (u.moveMark_laneState l b _ k).trans (h.states k),
      fun o ho => (hsame.barrier o).trans (h.others o ho), ?_⟩
    rw [hsame.barrier b, hlane]
    exact h.rear

/-- A lane's part in the clearing changes no other lane. -/
theorem RearClearing.laneClear_others (h : RearClearing v u l b) (hx : (v.barrier b).state ≠ .down)
    (hy : ((v.barrier b).lower v.motionTime).state ≠ .down) (hm : m ≠ l) : (u.laneClear l b).lane m = u.lane m := by
  rw [h.laneClear_eq hx hy]
  split
  · exact u.passedOut_others b hm
  · exact u.moveMark_others b _ hm

/-- A lane that tests nothing in its state only moves its marks at the clearing. -/
theorem RearClearing.resting (h : RearClearing v u l b) (hm : (v.lane m).state.untested) :
    u.laneClear m b = u.moveMark m b .loopClear :=
  State.OnlyMarks.laneClear (.inl (by rw [h.states m]; exact hm))

/-- The lane `m` after the clearing, from its items before, where the lane `l` is LEAVING over the loop. -/
def Lane.cleared (n : Lane) (s : State) (l : LaneNo) (b : BarrierNo) (m : LaneNo) : Lane :=
  if m = l then if n.rearMark = .seen then { n with rearMark := .passed, identity := none, visit := none } else n
  else n.marked (s.config m) b .loopClear

/-- What the clearing leaves where the lane `l` passes out over a SEEN rear mark: the lane without its vehicle, the rear
barrier given LOWER, and the marks of every other lane moved. -/
theorem State.handClear_passesOut (h : s.LeavesBy l b) (hm : (s.lane l).rearMark = .seen)
    (hx : (s.barrier b).state ≠ .down) (hy : ((s.barrier b).lower s.motionTime).state ≠ .down)
    (hl : ∀ m ∈ s.lanesNaming b, m ≠ l → (s.lane m).state.untested) :
    (s.handClear b).lane l = { s.lane l with rearMark := .passed, identity := none, visit := none } ∧
      (∀ m, m ≠ l → (s.handClear b).lane m = (s.lane m).marked (s.config m) b .loopClear) ∧
      RearClearing s (s.handClear b) l b := by
  have hstart : RearClearing s s l b := ⟨h, .refl s _, fun _ => rfl, fun _ _ => rfl, by rw [if_neg (by simp [hm])]⟩
  have hstep : ∀ m ∈ s.lanesNaming b, ∀ u, RearClearing s u l b → RearClearing s (u.laneClear m b) l b := by
    intro m hmem u hu
    by_cases hml : m = l
    · subst hml
      exact hu.laneClear hx hy
    · rw [hu.resting (hl m hmem hml)]
      exact hu.moveMark hml
  have hlane : ∀ m, (s.handClear b).lane m =
      if m ∈ s.lanesNaming b then (s.lane m).cleared s l b m else s.lane m := by
    refine fun m => forEach_reads (read := State.lane) (F := fun m n => n.cleared s l b m)
      (P := fun u => RearClearing s u l b) hstep ?here ?there (s.lanesNaming_nodup b) hstart m
    case here =>
      intro k hk u hu
      by_cases hkl : k = l
      · subst hkl
        rw [hu.laneClear_lane hx hy, Lane.cleared, if_pos rfl]
      · rw [hu.resting (hl k hk hkl), u.moveMark_lane k, hu.same.config k, Lane.cleared, if_neg hkl]
    case there =>
      intro k hk o u hu hok
      by_cases hkl : k = l
      · subst hkl
        exact hu.laneClear_others hx hy hok
      · rw [hu.resting (hl k hk hkl)]
        exact u.moveMark_others b _ hok
  refine ⟨?_, fun m hml => ?_, forEach_invariant (P := fun u => RearClearing s u l b) hstep hstart⟩
  · rw [hlane l, if_pos (State.mem_lanesNaming.mpr (.inr h.rear)), Lane.cleared, if_pos rfl, if_pos hm]
  · rw [hlane m]
    split
    case isTrue => exact if_neg hml
    case isFalse hn =>
      rw [State.mem_lanesNaming, not_or] at hn
      exact (Lane.marked_unnamed hn.left hn.right _ _).symm

/-- The end of the clear filter over the lane `l` that passes out. -/
theorem safetyLoopClear_passesOut (hp : s.powered = true) (h : (s.barrier b).clearFilter.isSome = true)
    (hup : (s.barrier b).state = .up) (hs : s.LeavesBy l b) (hm : (s.lane l).rearMark = .seen)
    (hl : ∀ m ∈ s.lanesNaming b, m ≠ l → (s.lane m).state.untested) :
    ∃ t, exec (.safetyLoopClear b) s = .next t ∧
      t.lane l = { s.lane l with rearMark := .passed, identity := none } ∧
      t.barrier b =
        { s.barrier b with
          occupied := false, clearFilter := none, state := .lowering, pendingLower := false,
          motionTimer := some s.motionTime } ∧
      (∀ o : BarrierNo, o ≠ b → t.barrier o = s.barrier o) ∧
      (∀ m : LaneNo, m ≠ l → t.lane m = (s.lane m).marked (s.config m) b .loopClear) ∧
      SameBut [.barriers, .lanes, .checkWord] s t := by
  have hbar : (s.safetyCleared b).barrier b = (s.barrier b).loopClear s.motionTime := State.onBarrier_barrier _ _ _
  have hlow : ((s.safetyCleared b).barrier b).lower s.motionTime = _ :=
    (congrArg (Barrier.lower s.motionTime) hbar).trans (Barrier.loopClear_lower hup)
  obtain ⟨hlane, hlanes, hend⟩ := State.handClear_passesOut (s := s.safetyCleared b)
    (hs.of_same (s.onBarrier_same b _) rfl hs.visit) hm (by rw [hbar]; exact Barrier.loopClear_notDown hup)
    (by rw [show (s.safetyCleared b).motionTime = s.motionTime from rfl, hlow]; simp) hl
  have hseal := (State.seal_same ((s.safetyCleared b).handClear b)).transmit
  refine ⟨_, by rw [exec_safetyLoopClear hp, State.safetyClear_ends h], ?_, ?_, fun o ho => ?_, fun m hml => ?_, ?_⟩
  · rw [hseal.lane l, hlane, ← hs.visit]
    rfl
  · rw [hseal.barrier b, hend.rear, if_pos (by rw [hlane])]
    exact hlow
  · exact ((hseal.barrier o).trans (hend.others o ho)).trans (State.onBarrier_barrier_ne _ _ (Ne.symm ho))
  · exact (hseal.lane m).trans (hlanes m hml)
  · exact (((s.onBarrier_same b _).mono (by decide)).then hend.same).then hseal

end

end Sys2Proof.Machine

open Sys2Proof Sys2Proof.Machine

/-- Settles O56: the barrier by the tables of its loop; the lanes' marks by `marksMoved`, which is all that the loop's
becoming CLEAR does at a lane unless the lane is LEAVING over a SEEN rear mark (`handClear_passesOut`). -/
theorem safetyLoopsGuardTheArm : Obligations.SafetyLoopsGuardTheArm := by
  intro b s hp
  refine ⟨fun inputs h => safetyLoopOccupied_again hp inputs h, fun inputs h => ?occupied, ?inactive, fun h => ?stopped,
    fun h hl => ?clear, fun l h hup hf hst hr hn hl => ?leaving⟩
  case occupied =>
    obtain ⟨t, hex, hpins, hbar, hbars, hlane, hsame⟩ := safetyLoopOccupied_first hp inputs h
    exact ⟨t, hex, hpins, fun k => hbar.trans (Barrier.loopOccupied_lowering k),
      fun k => hbar.trans (Barrier.loopOccupied_other k), hbars,
      fun l => .of_marked CrossingMark.loopOccupied_eq (hlane l), hsame⟩
  case inactive =>
    obtain ⟨t, hex, hpins, hbar, hbars, hsame⟩ := safetyLoopInputInactive_starts (b := b) hp
    exact ⟨t, hex, hpins, fun ho hn => hbar.trans (Barrier.inputsInactive_starts ho hn),
      fun k => hbar.trans (Barrier.inputsInactive_stays k), hbars, hsame⟩
  case stopped =>
    refine ⟨_, exec_safetyLoopClear hp, ?_⟩
    rw [State.safetyClear_stopped h]
    exact (SameBut.refl s []).transmit
  case clear =>
    obtain ⟨t, hex, hbar, hbars, hlane, hsame⟩ := safetyLoopClear_marks hp h (fun l hm => .inl (hl l hm))
    exact ⟨t, hex, fun hu hw => hbar.trans (Barrier.loopClear_pending hu hw),
      fun k => hbar.trans (Barrier.loopClear_other k), hbars,
      fun l => .of_marked CrossingMark.loopClear_eq (hlane l), hsame⟩
  case leaving =>
    by_cases hm : (s.lane l).rearMark = .seen ∧ (s.lane l).visit = none
    · obtain ⟨hm, hv⟩ := hm
      obtain ⟨t, hex, hlane, hbar, hbars, hlanes, hsame⟩ :=
        safetyLoopClear_passesOut hp h hup ⟨hf, hst, hr, hn, hv⟩ hm hl
      exact ⟨t, hex, fun _ _ => ⟨hlane, hbar, hbars,
        fun m hml => .of_marked CrossingMark.loopClear_eq (hlanes m hml), hsame⟩, fun k => absurd hm k⟩
    · by_cases hs : (s.lane l).rearMark = .seen
      · exact ⟨_, exec_safetyLoopClear hp, fun _ hv => absurd ⟨hs, hv⟩ hm, fun k => absurd hs k⟩
      · have hd : ((s.safetyCleared b).barrier b).state ≠ .down := by
          rw [State.safetyCleared, State.onBarrier_barrier]
          exact Barrier.loopClear_notDown hup
        obtain ⟨t, hex, -, -, hlane, hsame⟩ := safetyLoopClear_marks hp h (fun m hmem => by
          by_cases hml : m = l
          · subst hml
            exact .inr ⟨hst, hs, hn, hr, hd⟩
          · exact .inl (hl m hmem hml))
        refine ⟨t, hex, fun k => absurd k hs, fun _ =>
          ⟨?_, fun m _ => .of_marked CrossingMark.loopClear_eq (hlane m), hsame⟩⟩
        rw [hlane l, Lane.marked_rear hn hr (by simp [hst, LaneState.watches]), CrossingMark.loopClear_eq, if_neg hs]

end

-- ==== Proofs of family 04: what a fault and a takeover reach ====
section
/-! The end of a lane's work by a fault of its barrier or by a takeover, with what follows from it at other lanes (the
service of the SITE_FULL list and a grant decision), stays within some parts of the state, and a barrier in FAULT stays
as it is (R60, R65, R94 to R96). -/

namespace Sys2Proof.Machine

/- One proof after another: the check compiles the whole text in one process, whose threads are limited. -/
set_option Elab.async false

/-- The parts that an entry to MANUAL can change (R96). -/
def takeoverParts : List Part :=
  [.lanes, .queries, .queryFrames, .siteFull, .grants, .barriers, .bridges, .visits, .refusals, .cache, .reports]

/-- A change within those parts that leaves every barrier in FAULT as it is. -/
structure Reassigns (s t : State) : Prop where
  same    : SameBut takeoverParts s t
  faulted : ∀ b, (s.barrier b).state = .fault → t.barrier b = s.barrier b

theorem Reassigns.refl (s : State) : Reassigns s s := ⟨.refl s _, fun _ _ => rfl⟩

theorem Reassigns.trans {s t u : State} (h : Reassigns s t) (k : Reassigns t u) : Reassigns s u :=
  ⟨h.same.then k.same, fun b hb => (k.faulted b (by rwa [h.faulted b hb])).trans (h.faulted b hb)⟩

theorem Reassigns.of {ps : List Part} {s t : State} (h : SameBut ps s t) (hs : ps ⊆ takeoverParts := by decide)
    (hb : Part.barriers ∉ ps := by decide) : Reassigns s t :=
  ⟨h.mono hs, fun b _ => h.barrier b hb⟩

theorem Reassigns.ite {c : Prop} [Decidable c] {s t u : State} (h : Reassigns s t) (k : Reassigns s u) :
    Reassigns s (if c then t else u) := by
  split
  · exact h
  · exact k

theorem Reassigns.forEach {α : Type} {f : α → State → State} (h : ∀ x s, Reassigns s (f x s)) (xs : List α)
    (s : State) : Reassigns s (forEach xs f s) := by
  induction xs generalizing s with
  | nil => exact .refl s
  | cons x xs ih => exact (h x s).trans (ih (f x s))

section
variable (s : State)

theorem Reassigns.onLane (l : LaneNo) (f : Lane → Lane) : Reassigns s (s.onLane l f) := .of (s.onLane_same l f)
theorem Reassigns.onGrant (b : BridgeNo) (f : Grant → Grant) : Reassigns s (s.onGrant b f) := .of (s.onGrant_same b f)
theorem Reassigns.onAdm (f : Admission → Admission) : Reassigns s (s.onAdm f) := .of (s.onAdm_same f)
theorem Reassigns.onSlot (l : LaneNo) (f : QuerySlot → QuerySlot) : Reassigns s (s.onSlot l f) :=
  .of (s.onSlot_same l f)
theorem Reassigns.onVisits (f : VisitStore → VisitStore) : Reassigns s (s.onVisits f) := .of (s.onVisits_same f)
theorem Reassigns.onVisit (n : Nat) (f : Visit → Visit) : Reassigns s (s.onVisit n f) := .onVisits s _
theorem Reassigns.queryFrames (f : Link → Table 4 (Option QueryFrame)) :
    Reassigns s (s.onLink (fun k => { k with queries := f k })) := .of (s.queryFrames_same f)
theorem Reassigns.siteFull (xs : List LaneNo) : Reassigns s { s with siteFull := xs } := .of (s.siteFull_same xs)
theorem Reassigns.enterState (l : LaneNo) (st : LaneState) (r : Option Reason) : Reassigns s (s.enterState l st r) :=
  .of (s.enterState_same l st r)

/-! ### The arbiter -/

/-- RAISE does nothing to a barrier in FAULT (R60). -/
theorem Reassigns.commandRaise (b : BarrierNo) : Reassigns s (s.commandRaise b) := by
  refine ⟨(s.onBarrier_same b _).mono (by decide), fun o ho => ?_⟩
  rw [State.commandRaise, State.onBarrier_barrier_at]
  split
  · exact Barrier.raise_stands (.inr ho)
  · rfl

theorem Reassigns.raiseFront (l : LaneNo) : Reassigns s (s.raiseFront l) := by
  unfold State.raiseFront
  split
  · exact .refl s
  · exact (Reassigns.commandRaise s _).trans (.onLane _ l _)

theorem Reassigns.enterEntering (l : LaneNo) : Reassigns s (s.enterEntering l) :=
  (((Reassigns.onLane s l _).trans (.raiseFront _ l)).trans (.onLane _ l _)).trans (.enterState _ l _ _)

theorem Reassigns.giveGrant (b : BridgeNo) (l : LaneNo) : Reassigns s (s.giveGrant b l) :=
  .ite ((Reassigns.onGrant s b _).trans (.enterEntering _ l)) (.onGrant s b _)

theorem Reassigns.decideGrant (b : BridgeNo) : Reassigns s (s.decideGrant b) := by
  unfold State.decideGrant
  split
  · split
    · exact .refl s
    · exact .giveGrant s b _
  · exact .refl s

theorem Reassigns.requestGrant (l : LaneNo) : Reassigns s (s.requestGrant l) := by
  unfold State.requestGrant
  split
  · exact .refl s
  · exact (Reassigns.onGrant s _ _).trans (.decideGrant _ _)

theorem Reassigns.withdrawRequest (l : LaneNo) : Reassigns s (s.withdrawRequest l) := by
  unfold State.withdrawRequest
  split
  · exact .refl s
  · exact .onGrant s _ _

theorem Reassigns.releaseGrant (l : LaneNo) : Reassigns s (s.releaseGrant l) := by
  unfold State.releaseGrant
  split
  · exact .refl s
  · exact .ite ((Reassigns.onGrant s _ _).trans (.decideGrant _ _)) (.refl s)

theorem Reassigns.enterAwaitBridge (l : LaneNo) (n : Nat) : Reassigns s (s.enterAwaitBridge l n) :=
  ((Reassigns.onLane s l _).trans (.enterState _ l _ _)).trans (.requestGrant _ l)

/-! ### The service of the SITE_FULL list (R117, R153) -/

theorem Reassigns.refuseVehicle (l : LaneNo) (tag : Word) (r : RefusalReason) : Reassigns s (s.refuseVehicle l tag r) :=
  .of (s.refuseVehicle_same l tag r)

theorem Reassigns.forgetLate (l : LaneNo) (n : Nat) : Reassigns s (s.forgetLate l n) := by
  refine .forEach (fun m s => .ite ?_ (.refl s)) _ s
  exact (Reassigns.onSlot s m _).trans (.queryFrames _ _)

theorem Reassigns.sendQuery (l : LaneNo) (tag : Word) (k : StreamNo) : Reassigns s (s.sendQuery l tag k) :=
  (((((Reassigns.onAdm s _).trans (.forgetLate _ l _)).trans (.onSlot _ l _)).trans (.queryFrames _ _)).trans
    (.onLane _ l _)).trans (.enterState _ l _ _)

theorem Reassigns.joinSiteFull (l : LaneNo) : Reassigns s (s.joinSiteFull l) :=
  (Reassigns.ite (.refl s) (.siteFull s _)).trans (.enterState _ l _ _)

theorem Reassigns.createVisit (l : LaneNo) (a : Admitted) : Reassigns s (s.createVisit l a).1 := by
  unfold State.createVisit
  split
  · exact .refuseVehicle s l _ _
  · split
    · exact .joinSiteFull s l
    · exact (Reassigns.onVisits s _).trans (.enterAwaitBridge _ l _)

theorem Reassigns.decideByPermit (l : LaneNo) (tag : Word) (k : StreamNo) (p : Permit) :
    Reassigns s (s.decideByPermit l tag k p).1 := by
  unfold State.decideByPermit
  split
  · exact .refuseVehicle s l tag _
  · exact .createVisit s l _

theorem Reassigns.cacheStep (l : LaneNo) (tag : Word) (k : StreamNo) : Reassigns s (s.cacheStep l tag k).1 := by
  unfold State.cacheStep
  split
  · exact .sendQuery s l tag k
  · split
    · exact .refl s
    · exact (Reassigns.onAdm s _).trans (.decideByPermit _ l tag k _)

theorem Reassigns.streamStep (l : LaneNo) (tag : Word) (k : StreamNo) : Reassigns s (s.streamStep l tag k).1 := by
  unfold State.streamStep
  split
  · exact .cacheStep s l tag k
  · exact .refuseVehicle s l tag _

theorem Reassigns.resume (l : LaneNo) : Reassigns s (s.resume l).1 := by
  unfold State.resume
  split
  · exact .refl s
  · exact .streamStep s l _ _

theorem Reassigns.leaveSiteFull (l : LaneNo) : Reassigns s (s.leaveSiteFull l) := .siteFull s _

end

theorem Reassigns.serveSiteFull (xs : List LaneNo) (s : State) : Reassigns s (s.serveSiteFull xs) := by
  induction xs generalizing s with
  | nil => exact .refl s
  | cons l rest ih =>
    have h : Reassigns s ((s.leaveSiteFull l).resume l).1 := (Reassigns.leaveSiteFull s l).trans (.resume _ l)
    exact .ite h (h.trans (ih _))

section
variable (s : State)

theorem Reassigns.removeVisit (n : Nat) : Reassigns s (s.removeVisit n) :=
  .ite ((Reassigns.onVisits s _).trans (.ite (.refl _) (.serveSiteFull _ _))) (.refl s)

/-! ### The end of a lane's work (R53, R94 to R96) -/

theorem Reassigns.cancelCaptureOn (b : BridgeNo) (why : Cancellation) : Reassigns s (s.cancelCaptureOn b why) := by
  unfold State.cancelCaptureOn
  split
  · exact .refl s
  · have h : ∀ l, Reassigns s ((s.dropCapture b).onLane l (fun n => { n with lastReason := some (.cancelled why) })) :=
      fun l => (Reassigns.of (s.onBridge_same b _)).trans (.onLane _ l _)
    exact .ite (h _) ((h _).trans (.onVisit _ _ _))

theorem Reassigns.cancelCaptureOf (l : LaneNo) (why : Cancellation) : Reassigns s (s.cancelCaptureOf l why) := by
  unfold State.cancelCaptureOf
  split
  · exact .refl s
  · exact .cancelCaptureOn s _ why

theorem Reassigns.treatTakenOver (n : Nat) : Reassigns s (s.treatTakenOver n) := by
  unfold State.treatTakenOver
  split
  · exact .refl s
  · split
    · exact .removeVisit s n
    · exact .onVisits s _

theorem Reassigns.servedNoMore (l : LaneNo) : Reassigns s (s.servedNoMore l) := by
  unfold State.servedNoMore
  split
  · exact .cancelCaptureOf s l _
  · exact (Reassigns.cancelCaptureOf s l _).trans (.treatTakenOver _ _)

theorem Reassigns.enterManual (l : LaneNo) : Reassigns s (s.enterManual l) := by
  obtain ⟨r, hr⟩ := s.enterManual_eq l
  rw [hr]
  exact (((Reassigns.servedNoMore s l).trans (.releaseGrant _ l)).trans (.onLane _ l _)).trans
    (.of (State.report_same _ r))

theorem Reassigns.testTakeover (l : LaneNo) : Reassigns s (s.testTakeover l) := .ite (.enterManual s l) (.refl s)

theorem Reassigns.abandonQuery (l : LaneNo) : Reassigns s (s.abandonQuery l) := by
  unfold State.abandonQuery
  exact Reassigns.trans (.ite (.onSlot s l _) (.refl s)) (.onLane _ l _)

theorem Reassigns.stopSequence (l : LaneNo) : Reassigns s (s.stopSequence l) := by
  unfold State.stopSequence
  refine Reassigns.trans ?_ (.onLane _ l _)
  refine Reassigns.trans ?_ (.ite (.withdrawRequest _ l) (.refl _))
  refine Reassigns.trans ?_ (.ite (.leaveSiteFull _ l) (.refl _))
  exact .ite (.abandonQuery s l) (.refl s)

theorem Reassigns.faultLane (l : LaneNo) : Reassigns s (s.faultLane l) := by
  unfold State.faultLane
  split
  · exact .refl s
  · exact .cancelCaptureOf s l _
  · exact (((Reassigns.cancelCaptureOf s l _).trans (.stopSequence _ l)).trans (.onLane _ l _)).trans
      (.enterState _ l _ _)

theorem Reassigns.takeOver (l : LaneNo) : Reassigns s (s.takeOver l) := by
  have h := (Reassigns.stopSequence s l).trans (.onLane _ l (fun n => { n with takeoverFrom := some n.state }))
  exact .ite (.refl s) (.ite (h.trans (.enterState _ l _ _)) (h.trans (.enterManual _ l)))

end

section
variable {s : State} {l m : LaneNo} {b : BridgeNo}

/-! ### The lane's own capture (R53) -/

theorem State.captureBridge_runs (h : s.captureBridge l = some b) :
    ∃ c, (s.bridge b).capture = some c ∧ c.lane = l := by
  have hf := List.find?_some h
  cases hc : (s.bridge b).capture with
  | none => simp [hc] at hf
  | some c => exact ⟨c, rfl, by simpa [hc] using hf⟩

theorem State.captureBridge_isSome :
    (s.captureBridge l).isSome = true ↔ ∃ (b : BridgeNo) (c : Capture), (s.bridge b).capture = some c ∧ c.lane = l := by
  refine ⟨fun h => ?_, fun ⟨b, c, hc, hl⟩ => ?_⟩
  · obtain ⟨b, hb⟩ := Option.isSome_iff_exists.mp h
    obtain ⟨c, hc⟩ := State.captureBridge_runs hb
    exact ⟨b, c, hc⟩
  · exact List.find?_isSome.mpr ⟨b, mem_allFour b, by simp [hc, hl]⟩

/-- The capture of a lane is dropped with a reason left at the lane; its visit returns unless a takeover treats it. -/
theorem State.cancelCaptureOf_runs {c : Capture} (h : s.captureBridge l = some b) (hc : (s.bridge b).capture = some c)
    (hl : c.lane = l) (why : Cancellation) :
    s.cancelCaptureOf l why =
      if why = .takeover then (s.dropCapture b).onLane l (fun n => { n with lastReason := some (.cancelled why) })
      else
        ((s.dropCapture b).onLane l (fun n => { n with lastReason := some (.cancelled why) })).returnVisit c.visit := by
  simp only [State.cancelCaptureOf, h, State.cancelCaptureOn, hc, hl]

theorem State.cancelCaptureOf_none (h : s.captureBridge l = none) (why : Cancellation) :
    s.cancelCaptureOf l why = s := by
  simp only [State.cancelCaptureOf, h]

/-- What a cancellation leaves of the lanes: a reason at the lane of the capture, if one runs. -/
theorem State.cancelCaptureOf_frame (s : State) (l : LaneNo) (why : Cancellation) :
    SameBut [.bridges, .lanes, .visits] s (s.cancelCaptureOf l why) ∧
      (∀ m, m ≠ l → (s.cancelCaptureOf l why).lane m = s.lane m) ∧
      (s.cancelCaptureOf l why).lane l =
        if (s.captureBridge l).isSome then { s.lane l with lastReason := some (.cancelled why) } else s.lane l := by
  cases hb : s.captureBridge l with
  | none =>
    rw [State.cancelCaptureOf_none hb]
    exact ⟨.refl s _, fun _ _ => rfl, rfl⟩
  | some b =>
    obtain ⟨c, hc, hl⟩ := State.captureBridge_runs hb
    have hdrop : SameBut [.bridges, .lanes, .visits] s
        ((s.dropCapture b).onLane l (fun n => { n with lastReason := some (.cancelled why) })) :=
      ((s.onBridge_same b _).mono (by decide)).then (State.onLane_same _ l _)
    rw [State.cancelCaptureOf_runs hb hc hl]
    split
    · exact ⟨hdrop, fun m hm => State.onLane_lane_ne (s.dropCapture b) _ (Ne.symm hm),
        State.onLane_lane (s.dropCapture b) l (fun n => { n with lastReason := some (.cancelled why) })⟩
    · have hvisit := State.onVisits_same
        ((s.dropCapture b).onLane l (fun n => { n with lastReason := some (.cancelled why) }))
      exact ⟨hdrop.then (hvisit _), fun m hm => ((hvisit _).lane m).trans
        (State.onLane_lane_ne (s.dropCapture b) _ (Ne.symm hm)), ((hvisit _).lane l).trans
        (State.onLane_lane (s.dropCapture b) l (fun n => { n with lastReason := some (.cancelled why) }))⟩

/-! ### The lane's own sequence (R94, R95) -/

theorem State.abandonQuery_same (s : State) (l : LaneNo) : SameBut [.queries, .lanes] s (s.abandonQuery l) := by
  unfold State.abandonQuery
  refine SameBut.then (qs := [.lanes]) ?_ (State.onLane_same _ l _)
  split
  · exact (s.onSlot_same l _).mono (by decide)
  · exact .refl s _

theorem State.abandonQuery_lane (s : State) (l : LaneNo) :
    (s.abandonQuery l).lane l = { s.lane l with query := none } := by
  unfold State.abandonQuery
  rw [State.onLane_lane]
  split
  · rfl
  · rfl

theorem State.abandonQuery_others (s : State) (h : m ≠ l) : (s.abandonQuery l).lane m = s.lane m := by
  unfold State.abandonQuery
  rw [State.onLane_lane_ne _ _ (Ne.symm h)]
  split
  · rfl
  · rfl

theorem State.withdrawRequest_same (s : State) (l : LaneNo) : SameBut [.grants] s (s.withdrawRequest l) := by
  unfold State.withdrawRequest
  split
  · exact .refl s _
  · exact s.onGrant_same _ _

theorem State.withdrawRequest_holder (s : State) (l : LaneNo) (o : BridgeNo) :
    ((s.withdrawRequest l).grant o).holder = (s.grant o).holder := by
  unfold State.withdrawRequest
  split
  · rfl
  · rw [State.onGrant_grant_at]
    split
    · rfl
    · rfl

/-- The lane's query, its place in the SITE_FULL list or its request is given up by its state; its timers still run. -/
def State.asksNoMore (s : State) (l : LaneNo) : State :=
  let s := if (s.lane l).state = .admitting then s.abandonQuery l else s
  let s := if (s.lane l).state = .siteFull then s.leaveSiteFull l else s
  if (s.lane l).state = .awaitBridge then s.withdrawRequest l else s

theorem State.stopSequence_eq (s : State) (l : LaneNo) :
    s.stopSequence l =
      (s.asksNoMore l).onLane l (fun n => { n with identityTimer := .stopped, entryTimer := .stopped }) := by
  simp only [State.stopSequence, State.asksNoMore]

theorem State.asksNoMore_admitting (h : (s.lane l).state = .admitting) : s.asksNoMore l = s.abandonQuery l := by
  simp [State.asksNoMore, h, State.abandonQuery_lane]

theorem State.asksNoMore_siteFull (h : (s.lane l).state = .siteFull) : s.asksNoMore l = s.leaveSiteFull l := by
  have hst : ((s.leaveSiteFull l).lane l).state = .siteFull := h
  simp [State.asksNoMore, h, hst]

theorem State.asksNoMore_awaitBridge (h : (s.lane l).state = .awaitBridge) : s.asksNoMore l = s.withdrawRequest l := by
  simp [State.asksNoMore, h]

theorem State.asksNoMore_other (ha : (s.lane l).state ≠ .admitting) (hs : (s.lane l).state ≠ .siteFull)
    (hb : (s.lane l).state ≠ .awaitBridge) : s.asksNoMore l = s := by
  simp [State.asksNoMore, ha, hs, hb]

/-- What the lane's end of asking leaves: the lanes but for the lane's query, and the holders of the bridges. -/
theorem State.asksNoMore_frame (s : State) (l : LaneNo) :
    SameBut [.lanes, .queries, .siteFull, .grants] s (s.asksNoMore l) ∧
      (∀ m, m ≠ l → (s.asksNoMore l).lane m = s.lane m) ∧
      (s.asksNoMore l).lane l =
        { s.lane l with query := if (s.lane l).state = .admitting then none else (s.lane l).query } ∧
      ∀ o, ((s.asksNoMore l).grant o).holder = (s.grant o).holder := by
  by_cases ha : (s.lane l).state = .admitting
  · have hsame := s.abandonQuery_same l
    rw [State.asksNoMore_admitting ha, if_pos ha]
    exact ⟨hsame.mono (by decide), fun m hm => s.abandonQuery_others hm, s.abandonQuery_lane l,
      fun o => by rw [hsame.grant o]⟩
  · rw [if_neg ha]
    by_cases hs : (s.lane l).state = .siteFull
    · rw [State.asksNoMore_siteFull hs]
      exact ⟨(s.siteFull_same _).mono (by decide), fun _ _ => rfl, rfl, fun _ => rfl⟩
    · by_cases hb : (s.lane l).state = .awaitBridge
      · have hsame := s.withdrawRequest_same l
        rw [State.asksNoMore_awaitBridge hb]
        exact ⟨hsame.mono (by decide), fun m _ => hsame.lane m, hsame.lane l, s.withdrawRequest_holder l⟩
      · rw [State.asksNoMore_other ha hs hb]
        exact ⟨.refl s _, fun _ _ => rfl, rfl, fun _ => rfl⟩

/-- What the stop of a lane's sequence leaves: as its end of asking, with both its timers stopped. -/
theorem State.stopSequence_frame (s : State) (l : LaneNo) :
    SameBut [.lanes, .queries, .siteFull, .grants] s (s.stopSequence l) ∧
      (∀ m, m ≠ l → (s.stopSequence l).lane m = s.lane m) ∧
      (s.stopSequence l).lane l =
        { s.lane l with
          query := if (s.lane l).state = .admitting then none else (s.lane l).query, identityTimer := .stopped,
          entryTimer := .stopped } ∧
      ∀ o, ((s.stopSequence l).grant o).holder = (s.grant o).holder := by
  obtain ⟨hsame, hothers, hlane, hholder⟩ := s.asksNoMore_frame l
  have hstop := State.onLane_same (s.asksNoMore l) l
    (fun n => { n with identityTimer := .stopped, entryTimer := .stopped })
  rw [State.stopSequence_eq]
  refine ⟨hsame.then hstop, fun m hm => ?_, ?_, fun o => ?_⟩
  · rw [State.onLane_lane_ne _ _ (Ne.symm hm), hothers m hm]
  · rw [State.onLane_lane, hlane]
  · rw [hstop.grant o, hholder o]

end

end Sys2Proof.Machine
end

-- ==== Proofs of family 04: end switches and the motion timer ====
section
/-! What an end switch and the motion timer do to a barrier and to the lanes that name it (O55). -/

namespace Sys2Proof.Machine

/- One proof after another: the check compiles the whole text in one process, whose threads are limited. -/
set_option Elab.async false

/-! ### The barrier at a switch (R58, R64, R65) -/

/-- The resting state that an end switch shows. -/
def switchPosition : EndSwitch → BarrierState
  | .up   => .up
  | .down => .down

/-- The filtered state of the other end switch. -/
def Barrier.oppositeActive (x : Barrier) : EndSwitch → Bool
  | .up   => x.downActive
  | .down => x.upActive

section
variable {x : Barrier} {w : EndSwitch} {time : Nat}

/-- A switch released from the position it shows: the arm was forced (R65). -/
theorem Barrier.switchEffect_forced (h : x.state = switchPosition w) : x.switchEffect w false = .fault .forced := by
  cases w with
  | up => simp [Barrier.switchEffect, show x.state = .up from h]
  | down => simp [Barrier.switchEffect, show x.state = .down from h]

/-- A switch released from any other state asks nothing. -/
theorem Barrier.switchEffect_released (h : x.state ≠ switchPosition w) : x.switchEffect w false = .nothing := by
  cases w with
  | up => cases hst : x.state <;> simp_all [Barrier.switchEffect, switchPosition]
  | down => cases hst : x.state <;> simp_all [Barrier.switchEffect, switchPosition]

/-- A second active switch is a conflict, but in FAULT (R65). -/
theorem Barrier.switchEffect_conflict (hs : x.state ≠ .fault) (h : x.oppositeActive w = true) :
    x.switchEffect w true = .fault .switchConflict := by
  cases w with
  | up => cases hst : x.state <;> simp_all [Barrier.switchEffect, Barrier.oppositeActive]
  | down => cases hst : x.state <;> simp_all [Barrier.switchEffect, Barrier.oppositeActive]

theorem Barrier.switchEffect_arriveUp (hs : x.state = .raising) (h : x.downActive = false) :
    x.switchEffect .up true = .arriveUp := by
  simp [Barrier.switchEffect, hs, h]

theorem Barrier.switchEffect_arriveDown (hs : x.state = .lowering) (h : x.upActive = false) :
    x.switchEffect .down true = .arriveDown := by
  simp [Barrier.switchEffect, hs, h]

theorem Barrier.arriveUp_stays (h : x.pendingLower = false ∨ x.occupied = true) :
    x.arriveUp time = { x with state := .up, motionTimer := none } := by
  refine if_neg (fun k => ?_)
  obtain ⟨hp, ho⟩ := k
  rcases h with h | h
  · exact Bool.false_ne_true (h.symm.trans hp)
  · exact Bool.false_ne_true (ho.symm.trans h)

theorem Barrier.arriveUp_lowers (hp : x.pendingLower = true) (ho : x.occupied = false) :
    x.arriveUp time = { x with state := .lowering, motionTimer := some time, pendingLower := false } :=
  if_pos ⟨hp, ho⟩

end

/-! ### The commands -/

section
variable {s : State} {b : BarrierNo} {w : EndSwitch} {level : Bool}

theorem exec_endSwitchInputChange_new (hp : s.powered = true) (h : s.pins.switchLevel b w ≠ level) :
    exec (.endSwitchInputChange b w level) s =
      .next ((s.onPins (fun p => p.setSwitch b w level)).onBarrier b (fun x => x.switchInput w level)).transmit := by
  simp [exec, execEndSwitchInputChange, State.runPins_powered hp, h]

theorem exec_endSwitchChange (hp : s.powered = true) :
    exec (.endSwitchChange b w) s = .next (s.switchHeld b w).transmit := by
  simp [exec, execEndSwitchChange, State.run_powered hp]

theorem exec_motionTimerExpiry (hp : s.powered = true) :
    exec (.motionTimerExpiry b) s = .next (s.motionExpired b).transmit := by
  simp [exec, execMotionTimerExpiry, State.run_powered hp]

/-- An end switch input takes a new level: its filter starts, or stops where the level is the filtered state (R58). -/
theorem endSwitchInputChange_new (hp : s.powered = true) (h : s.pins.switchLevel b w ≠ level) :
    ∃ t, exec (.endSwitchInputChange b w level) s = .next t ∧ t.pins = s.pins.setSwitch b w level ∧
      t.barrier b = (s.barrier b).switchInput w level ∧ (∀ o : BarrierNo, o ≠ b → t.barrier o = s.barrier o) ∧
      SameBut [.pins, .barriers] s t := by
  refine ⟨_, exec_endSwitchInputChange_new hp h, State.transmit_pins _, ?_, fun o ho => ?_, ?_⟩
  · exact (State.transmit_barrier _ _).trans (State.onBarrier_barrier _ _ _)
  · exact (State.transmit_barrier _ _).trans (State.onBarrier_barrier_ne _ _ (Ne.symm ho))
  · exact (((s.onPins_same _).mono (by decide)).then (State.onBarrier_same _ b _)).transmit

/-! ### A held level (R64, R65) -/

/-- The barrier's filtered switch state has become the level held. -/
def State.switchTaken (s : State) (b : BarrierNo) (w : EndSwitch) (level : Bool) : State :=
  s.onBarrier b (fun x => x.switchSettled w level)

theorem State.switchTaken_same (s : State) (b : BarrierNo) (w : EndSwitch) (level : Bool) :
    SameBut [.barriers] s (s.switchTaken b w level) := s.onBarrier_same b _

theorem State.switchTaken_barrier (s : State) (b : BarrierNo) (w : EndSwitch) (level : Bool) :
    (s.switchTaken b w level).barrier b = (s.barrier b).switchSettled w level := State.onBarrier_barrier _ _ _

theorem State.switchTaken_barrier_ne (s : State) {o : BarrierNo} (w : EndSwitch) (level : Bool) (h : o ≠ b) :
    (s.switchTaken b w level).barrier o = s.barrier o := State.onBarrier_barrier_ne _ _ (Ne.symm h)

theorem State.switchHeld_stopped (h : (s.barrier b).switchFiltering w = false) : s.switchHeld b w = s := by
  simp [State.switchHeld, h]

theorem State.switchHeld_running (h : (s.barrier b).switchFiltering w = true) (hl : s.pins.switchLevel b w = level) :
    s.switchHeld b w =
      (s.switchTaken b w level).switchChanged b (((s.barrier b).switchSettled w level).switchEffect w level) := by
  rw [← State.switchTaken_barrier]
  simp only [State.switchHeld, h, hl]
  rfl

theorem endSwitchChange_stopped (hp : s.powered = true) (h : (s.barrier b).switchFiltering w = false) :
    ∃ t, exec (.endSwitchChange b w) s = .next t ∧ SameBut [] s t := by
  refine ⟨_, exec_endSwitchChange hp, ?_⟩
  rw [State.switchHeld_stopped h]
  exact (SameBut.refl s []).transmit

theorem Barrier.switchSettled_state (x : Barrier) (w : EndSwitch) (level : Bool) :
    (x.switchSettled w level).state = x.state := by
  cases w with
  | up => rfl
  | down => rfl

theorem Barrier.switchSettled_opposite (x : Barrier) (w : EndSwitch) (level : Bool) :
    (x.switchSettled w level).oppositeActive w = x.oppositeActive w := by
  cases w with
  | up => rfl
  | down => rfl

/-- A switch released in a state it does not show changes its barrier's filtered state alone. -/
theorem endSwitchChange_released (hp : s.powered = true) (h : (s.barrier b).switchFiltering w = true)
    (hl : s.pins.switchLevel b w = false) (hs : (s.barrier b).state ≠ switchPosition w) :
    ∃ t, exec (.endSwitchChange b w) s = .next t ∧ t.barrier b = (s.barrier b).switchSettled w false ∧
      (∀ o : BarrierNo, o ≠ b → t.barrier o = s.barrier o) ∧ SameBut [.barriers] s t := by
  have heffect : ((s.barrier b).switchSettled w false).switchEffect w false = .nothing :=
    Barrier.switchEffect_released (by rwa [Barrier.switchSettled_state])
  have hheld : s.switchHeld b w = s.switchTaken b w false := by
    rw [State.switchHeld_running h hl, heffect]
    rfl
  refine ⟨(s.switchTaken b w false).transmit, by rw [exec_endSwitchChange hp, hheld], ?_, fun o ho => ?_,
    (s.switchTaken_same b w false).transmit⟩
  · exact (State.transmit_barrier _ _).trans (s.switchTaken_barrier b w false)
  · exact (State.transmit_barrier _ _).trans (s.switchTaken_barrier_ne w false ho)

/-- An arrival among lanes that no settled barrier moves on changes the barrier alone (R64). -/
theorem endSwitchChange_arrives {f : Barrier → Barrier} (hp : s.powered = true)
    (hheld : s.switchHeld b w = (((s.switchTaken b w true).onBarrier b f).barrierSettled b).seal)
    (hr : ∀ l ∈ s.lanesNaming b, (s.lane l).state = .idle ∨ (s.lane l).state = .manual) :
    ∃ t, exec (.endSwitchChange b w) s = .next t ∧ t.barrier b = f ((s.barrier b).switchSettled w true) ∧
      (∀ o : BarrierNo, o ≠ b → t.barrier o = s.barrier o) ∧ SameBut [.barriers, .checkWord] s t := by
  have hsettles : ∀ l ∈ s.lanesNaming b, (s.lane l).state.settles := fun l hl => by
    rcases hr l hl with k | k
    · simp [LaneState.settles, k]
    · simp [LaneState.settles, k]
  have hrest : ((s.switchTaken b w true).onBarrier b f).barrierSettled b = (s.switchTaken b w true).onBarrier b f :=
    State.barrierSettled_resting hsettles
  have hseal := (State.seal_same ((s.switchTaken b w true).onBarrier b f)).transmit
  refine ⟨_, by rw [exec_endSwitchChange hp, hheld, hrest], ?_, fun o ho => ?_, ?_⟩
  · rw [hseal.barrier b, State.onBarrier_barrier, State.switchTaken_barrier]
  · rw [hseal.barrier o, State.onBarrier_barrier_ne _ _ (Ne.symm ho), s.switchTaken_barrier_ne w true ho]
  · exact (((s.onBarrier_same b _).mono (by decide)).then (State.onBarrier_same _ b _)).then hseal

end

/-! ### The entry to FAULT (R65, R94) -/

/-- A lane as a fault of its barrier leaves it (R94): one in MANUAL stays as it is. -/
def Lane.faulted (n : Lane) : Lane :=
  if n.state = .manual then n
  else
    { n with
      state := .laneFault, signal := if n.state = .laneFault then n.signal else .red,
      query := if n.state = .admitting then none else n.query, identityTimer := .stopped, entryTimer := .stopped,
      lastReason := some (.cancelled .barrierFault) }

section
variable {s v u : State} {b : BarrierNo} {l m : LaneNo} {reason : FaultReason}

/-- The parts that a fault changes at a lane that awaits no takeover (R94). -/
def faultParts : List Part := [.lanes, .queries, .siteFull, .grants, .bridges, .visits, .reports]

/-- A change that a lane's fault makes: no other lane's items, no holder of a bridge. -/
structure FaultsAt (l : LaneNo) (s t : State) : Prop where
  same    : SameBut faultParts s t
  others  : ∀ m, m ≠ l → t.lane m = s.lane m
  lane    : t.lane l = (s.lane l).faulted
  holders : ∀ o, (t.grant o).holder = (s.grant o).holder

theorem State.faultLane_manual (h : (s.lane l).state = .manual) : s.faultLane l = s := by
  simp [State.faultLane, h]

/-- The lane's work is ended, and its last reason is the fault (R94). -/
def State.faultStopped (s : State) (l : LaneNo) : State :=
  ((s.cancelCaptureOf l .barrierFault).stopSequence l).onLane l
    (fun n => { n with lastReason := some (.cancelled .barrierFault) })

theorem State.faultLane_works (hm : (s.lane l).state ≠ .manual) (ht : (s.lane l).state ≠ .takeoverPending) :
    ∃ r, s.faultLane l = (s.faultStopped l).enterState l .laneFault r := by
  unfold State.faultLane
  split
  case h_1 h => exact absurd h hm
  case h_2 h => exact absurd h ht
  case h_3 => exact ⟨_, rfl⟩

theorem State.faultStopped_lane (s : State) (l : LaneNo) :
    (s.faultStopped l).lane l =
      { s.lane l with
        query := if (s.lane l).state = .admitting then none else (s.lane l).query, identityTimer := .stopped,
        entryTimer := .stopped, lastReason := some (.cancelled .barrierFault) } := by
  obtain ⟨-, -, hcancel⟩ := s.cancelCaptureOf_frame l .barrierFault
  obtain ⟨-, -, hstop, -⟩ := (s.cancelCaptureOf l .barrierFault).stopSequence_frame l
  rw [State.faultStopped, State.onLane_lane, hstop, hcancel]
  split
  · rfl
  · rfl

theorem FaultsAt.faultLane (ht : (s.lane l).state ≠ .takeoverPending) : FaultsAt l s (s.faultLane l) := by
  by_cases hm : (s.lane l).state = .manual
  · rw [State.faultLane_manual hm]
    exact ⟨.refl s _, fun _ _ => rfl, by rw [Lane.faulted, if_pos hm], fun _ => rfl⟩
  obtain ⟨hcsame, hcothers, -⟩ := s.cancelCaptureOf_frame l .barrierFault
  obtain ⟨hssame, hsothers, -, hsholders⟩ := (s.cancelCaptureOf l .barrierFault).stopSequence_frame l
  have hlane := s.faultStopped_lane l
  obtain ⟨r, hr⟩ := State.faultLane_works hm ht
  have hreason := State.onLane_same ((s.cancelCaptureOf l .barrierFault).stopSequence l) l
    (fun n => { n with lastReason := some (.cancelled .barrierFault) })
  have hstate := State.enterState_same (s.faultStopped l) l .laneFault r
  rw [hr]
  refine ⟨?_, fun m hml => ?_, ?_, fun o => ?_⟩
  · exact (((hcsame.mono (by decide)).then hssame).then hreason).then hstate
  · rw [State.enterState_others _ hml, State.faultStopped, State.onLane_lane_ne _ _ (Ne.symm hml), hsothers m hml,
      hcothers m hml]
  · by_cases hf : (s.lane l).state = .laneFault
    · rw [State.enterState_stays (by rw [hlane]; exact hf), hlane, Lane.faulted, if_neg hm, if_pos hf]
      simp [hf]
    · rw [State.enterState_lane (by rw [hlane]; exact hf), hlane, Lane.faulted, if_neg hm, if_neg hf]
      simp [Lane.entering, signalFor]
  · rw [hstate.grant o, State.faultStopped, hreason.grant o, hsholders o, hcsame.grant o]

theorem Lane.faulted_manual {n : Lane} (h : n.state = .manual) : n.faulted = n := if_pos h

theorem Lane.faulted_state {n : Lane} (h : n.state ≠ .manual) : n.faulted.state = .laneFault := by
  rw [Lane.faulted, if_neg h]

theorem Lane.faulted_notPending {n : Lane} (h : n.state ≠ .takeoverPending) : n.faulted.state ≠ .takeoverPending := by
  by_cases hm : n.state = .manual
  · rwa [Lane.faulted_manual hm]
  · simp [Lane.faulted_state hm]

theorem SameBut.lanesNaming {ps : List Part} (h : SameBut ps s u) (b : BarrierNo) (hp : Part.site ∉ ps := by decide) :
    u.lanesNaming b = s.lanesNaming b := by
  unfold State.lanesNaming
  simp only [h.config _ hp]

theorem SameBut.unpending {ps : List Part} (h : SameBut ps s u)
    (hn : ∀ l ∈ s.lanesNaming b, (s.lane l).state ≠ .takeoverPending) (hp : Part.site ∉ ps := by decide)
    (hl : Part.lanes ∉ ps := by decide) : ∀ l ∈ u.lanesNaming b, (u.lane l).state ≠ .takeoverPending := by
  rw [h.lanesNaming b hp]
  intro l hm
  rw [h.lane l hl]
  exact hn l hm

/-- The barrier is in FAULT, and BARRIER_FAULT says so (R65). -/
def State.barrierFaulted (s : State) (b : BarrierNo) (reason : FaultReason) : State :=
  (s.onBarrier b (Barrier.enterFault reason)).report
    (.barrierFault
      { barrier := b, reason := reason, before := (s.barrier b).state, upActive := (s.barrier b).upActive,
        downActive := (s.barrier b).downActive, occupied := (s.barrier b).occupied,
        reversals := (s.barrier b).reversals, lanes := s.lanesNaming b, clock := s.ret.clock })

theorem State.barrierFaulted_same (s : State) (b : BarrierNo) (reason : FaultReason) :
    SameBut [.barriers, .reports] s (s.barrierFaulted b reason) :=
  ((s.onBarrier_same b _).mono (by decide)).then (State.report_same _ _)

theorem State.barrierFaulted_barrier (s : State) (b : BarrierNo) (reason : FaultReason) :
    (s.barrierFaulted b reason).barrier b = (s.barrier b).enterFault reason :=
  State.onBarrier_barrier s b (Barrier.enterFault reason)

theorem State.barrierFaulted_barrier_ne (s : State) {o : BarrierNo} (reason : FaultReason) (h : o ≠ b) :
    (s.barrierFaulted b reason).barrier o = s.barrier o :=
  State.onBarrier_barrier_ne s (Barrier.enterFault reason) (Ne.symm h)

/-- The lanes that name the barrier take its fault (R94). -/
def State.lanesFaulted (s : State) (b : BarrierNo) : State :=
  forEach (s.lanesNaming b) (fun l s => s.faultLane l) s

theorem State.faultBarrier_eq (s : State) (b : BarrierNo) (reason : FaultReason) :
    s.faultBarrier b reason =
      forEach (((s.barrierFaulted b reason).lanesFaulted b).lanesNaming b) (fun l s => s.testTakeover l)
        ((s.barrierFaulted b reason).lanesFaulted b) := by
  simp only [State.faultBarrier, State.onBarrier_barrier]
  rfl

/-- The barrier's own items as its fault sets them stay, whatever its fault makes of the lanes. -/
theorem State.faultBarrier_barrier (s : State) (b : BarrierNo) (reason : FaultReason) :
    (s.faultBarrier b reason).barrier b = (s.barrier b).enterFault reason := by
  have hfault : ((s.barrierFaulted b reason).barrier b).state = .fault := by
    rw [s.barrierFaulted_barrier]
    rfl
  have hkeep : Reassigns (s.barrierFaulted b reason) (s.faultBarrier b reason) := by
    rw [State.faultBarrier_eq]
    exact (Reassigns.forEach (fun l u => .faultLane u l) _ _).trans (.forEach (fun l u => .testTakeover u l) _ _)
  rw [hkeep.faulted b hfault, s.barrierFaulted_barrier]

/-- A state that the fault's lanes reach, lane by lane, from `v`. -/
structure Faulting (v u : State) : Prop where
  same    : SameBut faultParts v u
  pending : ∀ l, (v.lane l).state ≠ .takeoverPending → (u.lane l).state ≠ .takeoverPending
  holders : ∀ o, (u.grant o).holder = (v.grant o).holder

theorem Faulting.faultLane (h : Faulting v u) (hl : (v.lane l).state ≠ .takeoverPending) :
    Faulting v (u.faultLane l) := by
  have hstep : FaultsAt l u (u.faultLane l) := .faultLane (h.pending l hl)
  refine ⟨h.same.then hstep.same, fun m hm => ?_, fun o => (hstep.holders o).trans (h.holders o)⟩
  by_cases hml : m = l
  · subst hml
    rw [hstep.lane]
    exact Lane.faulted_notPending (h.pending m hm)
  · rw [hstep.others m hml]
    exact h.pending m hm

/-- With no lane that awaits a takeover, each lane that names the barrier takes the fault, and nothing follows. -/
theorem State.lanesFaulted_frame (hn : ∀ l ∈ v.lanesNaming b, (v.lane l).state ≠ .takeoverPending) :
    Faulting v (v.lanesFaulted b) ∧
      ∀ l, (v.lanesFaulted b).lane l = if l ∈ v.lanesNaming b then (v.lane l).faulted else v.lane l := by
  have hstart : Faulting v v := ⟨.refl v _, fun _ h => h, fun _ => rfl⟩
  have hkeep : ∀ l ∈ v.lanesNaming b, ∀ u, Faulting v u → Faulting v (u.faultLane l) := fun l hl u hu =>
    hu.faultLane (hn l hl)
  have hstep : ∀ l ∈ v.lanesNaming b, ∀ u, Faulting v u → FaultsAt l u (u.faultLane l) := fun l hl u hu =>
    .faultLane (hu.pending l (hn l hl))
  exact ⟨forEach_invariant hkeep hstart,
    forEach_reads (read := State.lane) (F := fun _ n => n.faulted) (P := Faulting v) hkeep
      (fun l hl u hu => (hstep l hl u hu).lane) (fun l hl m u hu hml => (hstep l hl u hu).others m hml)
      (v.lanesNaming_nodup b) hstart⟩

theorem State.faultBarrier_settled (hn : ∀ l ∈ s.lanesNaming b, (s.lane l).state ≠ .takeoverPending) :
    s.faultBarrier b reason = (s.barrierFaulted b reason).lanesFaulted b := by
  have hsame := s.barrierFaulted_same b reason
  have hv := hsame.unpending hn
  obtain ⟨hframe, -⟩ := State.lanesFaulted_frame hv
  rw [State.faultBarrier_eq]
  refine forEach_eq_self (fun l hl => State.testTakeover_other (hframe.pending l (hv l ?_)))
  rwa [hframe.same.lanesNaming b] at hl

/-- What a fault makes of the barrier and of the lanes that name it, where none of them awaits a takeover (R65, R94). -/
structure FaultTaken (s t : State) (b : BarrierNo) : Prop where
  named   : ∀ l ∈ s.lanesNaming b, t.lane l = (s.lane l).faulted
  others  : ∀ l, l ∉ s.lanesNaming b → t.lane l = s.lane l
  bars    : ∀ o, o ≠ b → t.barrier o = s.barrier o
  holders : ∀ o, (t.grant o).holder = (s.grant o).holder
  pins    : t.pins = s.pins

theorem State.faultBarrier_taken (hn : ∀ l ∈ s.lanesNaming b, (s.lane l).state ≠ .takeoverPending) :
    FaultTaken s (s.faultBarrier b reason) b := by
  have hsame := s.barrierFaulted_same b reason
  have hv := hsame.unpending hn
  obtain ⟨hframe, hlane⟩ := State.lanesFaulted_frame hv
  simp only [hsame.lanesNaming b, hsame.lane] at hlane
  rw [State.faultBarrier_settled hn]
  refine ⟨fun l hl => (hlane l).trans (if_pos hl), fun l hl => (hlane l).trans (if_neg hl), fun o ho => ?_,
    fun o => ?_, ?_⟩
  · rw [hframe.same.barrier o, s.barrierFaulted_barrier_ne reason ho]
  · rw [hframe.holders o, hsame.grant o]
  · exact (hframe.same .pins (by decide)).trans (hsame .pins (by decide))

/-- The fault of a state `v` that differs from `s` in the barrier `b` alone, as the last part of a command. -/
theorem faulted_ends (hv : SameBut [.barriers] s v) (hb : ∀ o, o ≠ b → v.barrier o = s.barrier o) :
    ((v.faultBarrier b reason).seal.transmit).barrier b = (v.barrier b).enterFault reason ∧
      ((∀ l ∈ s.lanesNaming b, (s.lane l).state ≠ .takeoverPending) →
        FaultTaken s (v.faultBarrier b reason).seal.transmit b) := by
  have hseal := (State.seal_same (v.faultBarrier b reason)).transmit
  refine ⟨(hseal.barrier b).trans (v.faultBarrier_barrier b reason), fun hn => ?_⟩
  obtain ⟨hnamed, hothers, hbars, hholders, hpins⟩ :=
    State.faultBarrier_taken (reason := reason) (hv.unpending hn)
  simp only [hv.lanesNaming b, hv.lane] at hnamed hothers
  exact ⟨fun l hl => (hseal.lane l).trans (hnamed l hl), fun l hl => (hseal.lane l).trans (hothers l hl),
    fun o ho => ((hseal.barrier o).trans (hbars o ho)).trans (hb o ho),
    fun o => by rw [hseal.grant o, hholders o, hv.grant o],
    ((hseal .pins (by decide)).trans hpins).trans (hv .pins (by decide))⟩

theorem FaultTaken.laneFault (h : FaultTaken s u b) : ∀ l ∈ s.lanesNaming b, (s.lane l).state ≠ .manual →
    (u.lane l).state = .laneFault := fun l hl hm => by
  rw [h.named l hl]
  exact Lane.faulted_state hm

/-- A held level that is a fault of the arm (R65). -/
theorem endSwitchChange_faults {w : EndSwitch} {level : Bool} (hp : s.powered = true)
    (h : (s.barrier b).switchFiltering w = true) (hl : s.pins.switchLevel b w = level)
    (he : ((s.barrier b).switchSettled w level).switchEffect w level = .fault reason) :
    ∃ t, exec (.endSwitchChange b w) s = .next t ∧
      t.barrier b = ((s.barrier b).switchSettled w level).enterFault reason ∧
      ((∀ l ∈ s.lanesNaming b, (s.lane l).state ≠ .takeoverPending) → FaultTaken s t b) := by
  have hheld : s.switchHeld b w = ((s.switchTaken b w level).faultBarrier b reason).seal := by
    rw [State.switchHeld_running h hl, he]
    rfl
  obtain ⟨hbar, htaken⟩ := faulted_ends (reason := reason) (s.switchTaken_same b w level)
    (fun o ho => s.switchTaken_barrier_ne w level ho)
  exact ⟨_, by rw [exec_endSwitchChange hp, hheld], hbar.trans (congrArg _ (s.switchTaken_barrier b w level)), htaken⟩

/-- A switch released in the position it shows (R65). -/
theorem endSwitchChange_forced {w : EndSwitch} (hp : s.powered = true) (h : (s.barrier b).switchFiltering w = true)
    (hl : s.pins.switchLevel b w = false) (hs : (s.barrier b).state = switchPosition w) :
    ∃ t, exec (.endSwitchChange b w) s = .next t ∧
      t.barrier b = ((s.barrier b).switchSettled w false).enterFault .forced ∧
      ((∀ l ∈ s.lanesNaming b, (s.lane l).state ≠ .takeoverPending) → FaultTaken s t b) :=
  endSwitchChange_faults hp h hl (Barrier.switchEffect_forced ((Barrier.switchSettled_state _ _ _).trans hs))

/-- A second switch held active (R65). -/
theorem endSwitchChange_conflict {w : EndSwitch} (hp : s.powered = true) (h : (s.barrier b).switchFiltering w = true)
    (hl : s.pins.switchLevel b w = true) (ho : (s.barrier b).oppositeActive w = true)
    (hs : (s.barrier b).state ≠ .fault) :
    ∃ t, exec (.endSwitchChange b w) s = .next t ∧
      t.barrier b = ((s.barrier b).switchSettled w true).enterFault .switchConflict := by
  obtain ⟨t, hex, hbar, -⟩ := endSwitchChange_faults hp h hl (Barrier.switchEffect_conflict
    (by rwa [Barrier.switchSettled_state]) ((Barrier.switchSettled_opposite _ w _).trans ho))
  exact ⟨t, hex, hbar⟩

theorem Barrier.moving_iff {x : Barrier} : x.moving = true ↔ x.state = .raising ∨ x.state = .lowering := by
  simp [Barrier.moving]

theorem motionTimerExpiry_moving (hp : s.powered = true)
    (h : (s.barrier b).state = .raising ∨ (s.barrier b).state = .lowering) :
    ∃ t, exec (.motionTimerExpiry b) s = .next t ∧ t.barrier b = (s.barrier b).enterFault .motionTimeout ∧
      ((∀ l ∈ s.lanesNaming b, (s.lane l).state ≠ .takeoverPending) → FaultTaken s t b) := by
  have hexp : s.motionExpired b = (s.faultBarrier b .motionTimeout).seal := if_pos (Barrier.moving_iff.mpr h)
  obtain ⟨hbar, htaken⟩ := faulted_ends (s := s) (reason := .motionTimeout) (b := b) (.refl s _) (fun _ _ => rfl)
  exact ⟨_, by rw [exec_motionTimerExpiry hp, hexp], hbar, htaken⟩

theorem motionTimerExpiry_still (hp : s.powered = true) (hr : (s.barrier b).state ≠ .raising)
    (hl : (s.barrier b).state ≠ .lowering) : ∃ t, exec (.motionTimerExpiry b) s = .next t ∧ SameBut [] s t := by
  have hexp : s.motionExpired b = s := if_neg (fun k => (Barrier.moving_iff.mp k).elim hr hl)
  refine ⟨_, exec_motionTimerExpiry hp, ?_⟩
  rw [hexp]
  exact (SameBut.refl s []).transmit

end

end Sys2Proof.Machine

open Sys2Proof Sys2Proof.Machine

/-- Settles O55: the barrier by the tables of its switches; an arrival among resting lanes is the barrier's alone, and a
fault stays at the barrier, whatever follows from it at the lanes (`Reassigns`). -/
theorem barriersFollowTheirSwitches : Obligations.BarriersFollowTheirSwitches := by
  intro b s hp
  refine ⟨fun level h => endSwitchInputChange_new (w := .up) hp h,
    fun level h => endSwitchInputChange_new (w := .down) hp h,
    fun h => endSwitchChange_stopped (w := .up) hp (Option.isSome_eq_false_iff.mpr (Option.isNone_iff_eq_none.mpr h)),
    fun hf hl hst hd hr => ?arriveUp, fun hf hl hst hu hr => ?arriveDown,
    fun hf hl => ⟨fun hst => ?forcedDown, fun hst => endSwitchChange_released (w := .down) hp hf hl hst⟩,
    fun hf hl ho hst => endSwitchChange_conflict (w := .up) hp hf hl ho hst,
    fun hf hl ho hst => endSwitchChange_conflict (w := .down) hp hf hl ho hst,
    fun hf hl => ⟨fun hst => ?forcedUp, fun hst => endSwitchChange_released (w := .up) hp hf hl hst⟩,
    fun hr hl => motionTimerExpiry_still hp hr hl, fun h => ?timeout⟩
  case arriveUp =>
    have hheld : s.switchHeld b .up =
        (((s.switchTaken b .up true).onBarrier b (Barrier.arriveUp s.motionTime)).barrierSettled b).seal := by
      rw [State.switchHeld_running (w := .up) hf hl, Barrier.switchEffect_arriveUp (by exact hst) (by exact hd)]
      rfl
    obtain ⟨t, hex, hbar, hbars, hsame⟩ := endSwitchChange_arrives hp hheld hr
    exact ⟨t, hex, fun h => hbar.trans (Barrier.arriveUp_stays h),
      fun hw ho => hbar.trans (Barrier.arriveUp_lowers hw ho), hbars, hsame⟩
  case arriveDown =>
    have hheld : s.switchHeld b .down =
        (((s.switchTaken b .down true).onBarrier b Barrier.arriveDown).barrierSettled b).seal := by
      rw [State.switchHeld_running (w := .down) hf hl, Barrier.switchEffect_arriveDown (by exact hst) (by exact hu)]
      rfl
    exact endSwitchChange_arrives hp hheld hr
  case forcedDown =>
    obtain ⟨t, hex, hbar, htaken⟩ := endSwitchChange_forced (w := .down) hp hf hl hst
    exact ⟨t, hex, hbar, fun hn => (htaken hn).laneFault⟩
  case forcedUp =>
    obtain ⟨t, hex, hbar, htaken⟩ := endSwitchChange_forced (w := .up) hp hf hl hst
    exact ⟨t, hex, hbar, fun hn => (htaken hn).laneFault⟩
  case timeout =>
    obtain ⟨t, hex, hbar, htaken⟩ := motionTimerExpiry_moving hp h
    refine ⟨t, hex, hbar, fun hn => ?_⟩
    obtain ⟨hnamed, hothers, hbars, hholders, hpins⟩ := htaken hn
    refine ⟨fun l hl hm => ?_, fun l hl hm => (hnamed l hl).trans (Lane.faulted_manual hm), hbars, hothers, hholders,
      hpins⟩
    rw [hnamed l hl, Lane.faulted, if_neg hm]
    exact ⟨rfl, rfl, rfl, rfl⟩

end

-- ==== Proofs of family 04: LANE_TAKEOVER and LANE_RELEASE ====
section
/-! A takeover in every lane state, and a lane's release from MANUAL (O35). -/

namespace Sys2Proof.Machine

/- One proof after another: the check compiles the whole text in one process, whose threads are limited. -/
set_option Elab.async false

section
variable {s : State} {l m : LaneNo} {b o : BridgeNo} {n : Nat} {v w : Visit}

/-! ### The parts of a takeover leave the link alone -/

theorem State.cancelCaptureOf_link (s : State) (l : LaneNo) (why : Cancellation) :
    (s.cancelCaptureOf l why).link = s.link := by
  cases hb : s.captureBridge l with
  | none => rw [State.cancelCaptureOf_none hb]
  | some b =>
    obtain ⟨c, hc, hl⟩ := State.captureBridge_runs hb
    rw [State.cancelCaptureOf_runs hb hc hl]
    split
    · rfl
    · rfl

theorem State.asksNoMore_link (s : State) (l : LaneNo) : (s.asksNoMore l).link = s.link := by
  by_cases ha : (s.lane l).state = .admitting
  · rw [State.asksNoMore_admitting ha]
    unfold State.abandonQuery
    split
    · rfl
    · rfl
  · by_cases hs : (s.lane l).state = .siteFull
    · rw [State.asksNoMore_siteFull hs]
      rfl
    · by_cases hb : (s.lane l).state = .awaitBridge
      · rw [State.asksNoMore_awaitBridge hb]
        unfold State.withdrawRequest
        split
        · rfl
        · rfl
      · rw [State.asksNoMore_other ha hs hb]

/-! ### The capture and the visit of a lane taken over (R96, R152) -/

/-- A takeover leaves the visit of a cancelled capture to its own treatment. -/
theorem State.cancelCaptureOf_takeover_same (s : State) (l : LaneNo) :
    SameBut [.bridges, .lanes] s (s.cancelCaptureOf l .takeover) := by
  cases hb : s.captureBridge l with
  | none =>
    rw [State.cancelCaptureOf_none hb]
    exact .refl s _
  | some b =>
    obtain ⟨c, hc, hl⟩ := State.captureBridge_runs hb
    rw [State.cancelCaptureOf_runs hb hc hl, if_pos rfl]
    exact ((s.onBridge_same b _).mono (by decide)).then (State.onLane_same _ l _)

/-- The one capture of the lane is gone. -/
theorem State.cancelCaptureOf_capture {c : Capture} (hc : (s.bridge b).capture = some c) (hl : c.lane = l)
    (hone : ∀ o : BridgeNo, o ≠ b → (s.bridge o).capture.all (fun j => j.lane != l) = true) :
    ((s.cancelCaptureOf l .takeover).bridge b).capture = none := by
  obtain ⟨o, ho⟩ := Option.isSome_iff_exists.mp (State.captureBridge_isSome.mpr ⟨b, c, hc, hl⟩)
  obtain ⟨d, hd, hdl⟩ := State.captureBridge_runs ho
  have hob : o = b := by
    by_contra hne
    have := hone o hne
    simp [hd, hdl] at this
  subst hob
  rw [State.cancelCaptureOf_runs ho hd hdl, if_pos rfl, (State.onLane_same _ l _).bridge o]
  unfold State.dropCapture
  rw [State.onBridge_bridge]

theorem State.onVisit_visitOf_const (hw : w.number = n) (h : s.visitOf n = some v) :
    (s.onVisit n (fun _ => w)).visitOf n = some w := by
  have hf : s.onVisit n (fun _ => w) = s.onVisit n (fun x => if x.number = n then w else x) := by
    unfold State.onVisit
    congr 1
    funext t
    congr 1
    refine List.map_congr_left (fun x _ => ?_)
    split
    case isTrue hx => exact (if_pos hx).symm
    case isFalse => rfl
  have hv := State.visitOf_number h
  rw [hf, State.onVisit_visitOf (fun x => ?_) h, if_pos hv]
  split
  · next hx => rw [hw, hx]
  · rfl

theorem State.treatTakenOver_removed (hl : s.siteFull = []) (hv : s.visitOf n = some v) (hk : v.takenOver = none) :
    s.treatTakenOver n = s.onVisits (fun t => t.without n) := by
  simp only [State.treatTakenOver, hv, hk]
  exact State.removeVisit_unasked hl (by simp [hv])

theorem State.treatTakenOver_kept (hv : s.visitOf n = some v) (hk : v.takenOver = some w) :
    s.treatTakenOver n = s.onVisit n (fun _ => w) := by
  simp only [State.treatTakenOver, hv, hk]

theorem Visit.takenOver_number (h : v.takenOver = some w) : w.number = v.number := by
  unfold Visit.takenOver at h
  split at h
  all_goals cases h
  all_goals rfl

/-- What the treatment leaves of a visit while nobody waits for its record (R152). -/
theorem State.treatTakenOver_frame (hl : s.siteFull = []) (n : Nat) :
    SameBut [.visits] s (s.treatTakenOver n) ∧ (s.treatTakenOver n).link = s.link := by
  cases hv : s.visitOf n with
  | none =>
    have h : s.treatTakenOver n = s := by simp only [State.treatTakenOver, hv]
    rw [h]
    exact ⟨.refl s _, rfl⟩
  | some v =>
    cases hk : v.takenOver with
    | none =>
      rw [State.treatTakenOver_removed hl hv hk]
      exact ⟨State.onVisits_same s _, rfl⟩
    | some w =>
      rw [State.treatTakenOver_kept hv hk]
      exact ⟨State.onVisits_same s _, rfl⟩

/-- What a takeover makes of the visit of a lane: the state that TAKEOVER_GRANTED gives, and the visit in the table. -/
structure VisitTreated (s t : State) (n : Nat) (v : Visit) (after : Option VisitState) : Prop where
  removed : v.takenOver = none →
    after = none ∧ t.ret.visits.records = s.ret.visits.records.filter (fun w => w.number ≠ n)
  kept    : ∀ w, v.takenOver = some w → after = some w.state ∧ t.visitOf n = some w

theorem State.treatTakenOver_treats (hl : s.siteFull = []) (hv : s.visitOf n = some v) :
    VisitTreated s (s.treatTakenOver n) n v (s.takenOverState n) := by
  have hafter : s.takenOverState n = v.takenOver.map (·.state) := by
    rw [State.takenOverState, hv]
    rfl
  refine ⟨fun hk => ?_, fun w hk => ?_⟩
  · rw [State.treatTakenOver_removed hl hv hk, hafter, hk]
    exact ⟨rfl, rfl⟩
  · have hnum := (Visit.takenOver_number hk).trans (State.visitOf_number hv)
    rw [State.treatTakenOver_kept hv hk, hafter, hk]
    exact ⟨rfl, State.onVisit_visitOf_const hnum hv⟩

/-! ### The grant of a lane taken over (R96, R107) -/

/-- A lane's grant given back while no lane waits for its bridge. -/
theorem State.releaseGrant_frame (h : ∀ b, (s.config l).bridge = some b → (s.grant b).waiting = []) :
    SameBut [.grants] s (s.releaseGrant l) ∧ (s.releaseGrant l).link = s.link ∧
      ∀ b, (s.config l).bridge = some b → ((s.releaseGrant l).grant b).holder ≠ some l := by
  cases hb : (s.config l).bridge with
  | none =>
    have hr : s.releaseGrant l = s := by simp [State.releaseGrant, hb]
    rw [hr]
    exact ⟨.refl s _, rfl, fun b k => nomatch k⟩
  | some b =>
    by_cases hh : (s.grant b).holder = some l
    · have hr : s.releaseGrant l = s.released b := by
        rw [State.releaseGrant_holder hb hh, State.decideGrant_withheld]
        rw [State.released_grant]
        exact .inr (h b hb)
      rw [hr]
      refine ⟨s.released_same b, rfl, fun o ho => ?_⟩
      cases ho
      simp [State.released_grant]
    · rw [State.releaseGrant_unheld hb hh]
      refine ⟨.refl s _, rfl, fun o ho => ?_⟩
      cases ho
      exact hh

/-! ### The entry to MANUAL with nobody waiting (R96) -/

/-- The lane's capture, visit and grant are given up. -/
def State.letGo (s : State) (l : LaneNo) : State := (s.servedNoMore l).releaseGrant l

/-- The report of an entry to MANUAL (R96). -/
def State.manualReport (s : State) (l : LaneNo) : Report :=
  .takeoverGranted
    { lane := l, from_ := (s.lane l).takeoverFrom.getD (s.lane l).state, visit := (s.lane l).visit,
      after := (s.lane l).visit.bind (s.cancelCaptureOf l .takeover).takenOverState,
      cancelled := (s.captureBridge l).isSome, clock := (s.letGo l).ret.clock }

theorem State.enterManual_reports (s : State) (l : LaneNo) :
    s.enterManual l = ((s.letGo l).onLane l Lane.manual).report (s.manualReport l) := by
  unfold State.enterManual State.manualReport State.letGo State.servedNoMore
  cases (s.lane l).visit with
  | none => rfl
  | some n => rfl

theorem State.servedNoMore_unvisited (hn : (s.lane l).visit = none) :
    s.servedNoMore l = s.cancelCaptureOf l .takeover := by
  simp only [State.servedNoMore, hn]

theorem State.servedNoMore_visiting (hn : (s.lane l).visit = some n) :
    s.servedNoMore l = (s.cancelCaptureOf l .takeover).treatTakenOver n := by
  simp only [State.servedNoMore, hn]

theorem State.servedNoMore_frame (hl : s.siteFull = []) :
    SameBut [.visits] (s.cancelCaptureOf l .takeover) (s.servedNoMore l) ∧ (s.servedNoMore l).link = s.link := by
  have hsite : (s.cancelCaptureOf l .takeover).siteFull = [] :=
    ((s.cancelCaptureOf_takeover_same l) .siteFull (by decide)).trans hl
  cases hn : (s.lane l).visit with
  | none =>
    have h := State.servedNoMore_unvisited hn
    rw [h]
    exact ⟨.refl _ _, s.cancelCaptureOf_link l _⟩
  | some n =>
    have h := State.servedNoMore_visiting hn
    obtain ⟨hsame, hlink⟩ := State.treatTakenOver_frame hsite n
    rw [h]
    exact ⟨hsame, hlink.trans (s.cancelCaptureOf_link l _)⟩

/-- The entry to MANUAL where no lane waits for a record or for the lane's bridge: its own capture, visit and grant are
given up, and nothing follows. -/
structure TakenAlone (s t : State) (l : LaneNo) : Prop where
  others    : ∀ m, m ≠ l → t.lane m = s.lane m
  capture   : ∀ (b : BridgeNo) (k : Capture), (s.bridge b).capture = some k → k.lane = l →
    (∀ o : BridgeNo, o ≠ b → (s.bridge o).capture.all (fun j => j.lane != l) = true) → (t.bridge b).capture = none
  grant     : ∀ b : BridgeNo, (s.config l).bridge = some b → (t.grant b).holder ≠ some l
  voiced    : s.link.reports.length < 32 → t.voiced = s.voiced ++ [s.manualReport l]
  unvisited : (s.lane l).visit = none → t.ret.visits = s.ret.visits
  treated   : ∀ n v, (s.lane l).visit = some n → s.visitOf n = some v →
    VisitTreated s t n v ((s.cancelCaptureOf l .takeover).takenOverState n)

theorem VisitTreated.of_same {u t : State} {ps qs : List Part} {after : Option VisitState}
    (h : VisitTreated u t n v after) (k : SameBut ps s u) {t' : State} (k' : SameBut qs t t')
    (hp : Part.visits ∉ ps := by decide) (hq : Part.visits ∉ qs := by decide) : VisitTreated s t' n v after := by
  refine ⟨fun hv => ?_, fun w hw => ?_⟩
  · obtain ⟨ha, hr⟩ := h.removed hv
    exact ⟨ha, by rw [show t'.ret.visits = _ from k' .visits hq, hr, show u.ret.visits = _ from k .visits hp]⟩
  · obtain ⟨ha, hr⟩ := h.kept w hw
    exact ⟨ha, (k'.visitOf n hq).trans hr⟩

theorem TakenAlone.enterManual (hl : s.siteFull = [])
    (hw : ∀ b, (s.config l).bridge = some b → (s.grant b).waiting = []) : TakenAlone s (s.enterManual l) l := by
  have hcancel := s.cancelCaptureOf_takeover_same l
  obtain ⟨-, hcothers, -⟩ := s.cancelCaptureOf_frame l .takeover
  obtain ⟨hserved, hslink⟩ := State.servedNoMore_frame (s := s) (l := l) hl
  have hboth : SameBut [.bridges, .lanes, .visits] s (s.servedNoMore l) := (hcancel.mono (by decide)).then hserved
  obtain ⟨hgrant, hglink, hholder⟩ := State.releaseGrant_frame (s := s.servedNoMore l) (l := l) (fun b hb => by
    rw [hboth.config l] at hb
    rw [hboth.grant b]
    exact hw b hb)
  have hend : SameBut [.lanes, .reports] (s.letGo l) (s.enterManual l) := by
    rw [State.enterManual_reports]
    exact ((State.onLane_same _ l _).mono (by decide)).then (State.report_same _ _)
  have hlast : SameBut [.grants, .lanes, .reports] (s.servedNoMore l) (s.enterManual l) :=
    (hgrant.mono (by decide)).then hend
  refine ⟨fun m hm => ?others, fun b k hk hkl hone => ?capture, fun b hb => ?grant, fun hr => ?voiced,
    fun hn => ?unvisited, fun n v hn hv => ?treated⟩
  case others =>
    rw [State.enterManual_reports, (State.report_same _ _).lane m, State.onLane_lane_ne _ _ (Ne.symm hm), State.letGo,
      hgrant.lane m, hserved.lane m, hcothers m hm]
  case capture =>
    rw [hlast.bridge b, hserved.bridge b]
    exact State.cancelCaptureOf_capture hk hkl hone
  case grant =>
    rw [hend.grant b]
    exact hholder b (by rwa [hboth.config l])
  case voiced =>
    have hlink : ((s.letGo l).onLane l Lane.manual).link = s.link := hglink.trans hslink
    rw [State.enterManual_reports, State.report_voiced _ _ (by rwa [hlink])]
    unfold State.voiced
    rw [hlink]
  case unvisited =>
    have h := State.servedNoMore_unvisited hn
    rw [show (s.enterManual l).ret.visits = _ from hlast .visits (by decide), h]
    exact hcancel .visits (by decide)
  case treated =>
    have h := State.servedNoMore_visiting hn
    have hsite : (s.cancelCaptureOf l .takeover).siteFull = [] := (hcancel .siteFull (by decide)).trans hl
    have htreat := State.treatTakenOver_treats hsite ((hcancel.visitOf n).trans hv)
    rw [← h] at htreat
    exact htreat.of_same hcancel hlast

/-! ### The takeover accepted (R95) -/

/-- The lane's own sequence is stopped, and the state it was taken over from is kept. -/
def State.yielded (s : State) (l : LaneNo) : State :=
  (s.stopSequence l).onLane l (fun n => { n with takeoverFrom := some n.state })

/-- What the acceptance of a takeover leaves, before the lane's change of state. -/
structure Yielded (s t : State) (l : LaneNo) : Prop where
  same    : SameBut [.lanes, .queries, .siteFull, .grants] s t
  others  : ∀ m, m ≠ l → t.lane m = s.lane m
  lane    : t.lane l =
    { s.lane l with
      query := if (s.lane l).state = .admitting then none else (s.lane l).query, identityTimer := .stopped,
      entryTimer := .stopped, takeoverFrom := some (s.lane l).state }
  holders : ∀ o, (t.grant o).holder = (s.grant o).holder
  link    : t.link = s.link

theorem Yielded.yielded (s : State) (l : LaneNo) : Yielded s (s.yielded l) l := by
  obtain ⟨hsame, hothers, hlane, hholders⟩ := s.stopSequence_frame l
  have hfrom := State.onLane_same (s.stopSequence l) l (fun n => { n with takeoverFrom := some n.state })
  refine ⟨hsame.then hfrom, fun m hm => ?_, ?_, fun o => ?_, ?_⟩
  · rw [State.yielded, State.onLane_lane_ne _ _ (Ne.symm hm), hothers m hm]
  · rw [State.yielded, State.onLane_lane, hlane]
  · rw [State.yielded, hfrom.grant o, hholders o]
  · rw [State.yielded, State.onLane_link, State.stopSequence_eq, State.onLane_link, s.asksNoMore_link l]

theorem SameBut.laneMoving {t : State} {ps : List Part} (h : SameBut ps s t) (l : LaneNo)
    (hp : Part.site ∉ ps := by decide) (hb : Part.barriers ∉ ps := by decide) : t.laneMoving l = s.laneMoving l := by
  unfold State.laneMoving
  simp only [h.config l hp, h.barrier _ hb]

theorem SameBut.captureBridge {t : State} {ps : List Part} (h : SameBut ps s t) (l : LaneNo)
    (hb : Part.bridges ∉ ps := by decide) : t.captureBridge l = s.captureBridge l := by
  unfold State.captureBridge
  simp only [h.bridge _ hb]

theorem State.takeOver_already (h : (s.lane l).state = .manual ∨ (s.lane l).state = .takeoverPending) :
    s.takeOver l = s := if_pos h

theorem State.takeOver_moving (hm : (s.lane l).state ≠ .manual) (hp : (s.lane l).state ≠ .takeoverPending)
    (h : s.laneMoving l = true) : s.takeOver l = (s.yielded l).enterState l .takeoverPending none := by
  have hmove : (s.yielded l).laneMoving l = true := ((Yielded.yielded s l).same.laneMoving l).trans h
  exact (if_neg (fun k => k.elim hm hp)).trans (if_pos hmove)

theorem State.takeOver_still (hm : (s.lane l).state ≠ .manual) (hp : (s.lane l).state ≠ .takeoverPending)
    (h : s.laneMoving l = false) : s.takeOver l = (s.yielded l).enterManual l := by
  have hmove : (s.yielded l).laneMoving l = false := ((Yielded.yielded s l).same.laneMoving l).trans h
  exact (if_neg (fun k => k.elim hm hp)).trans (if_neg (by simp only [State.yielded] at hmove; simp [hmove]))

/-- A lane taken over while a barrier of it moves waits with its timers stopped (R95). -/
theorem State.takeOver_moving_lane (hm : (s.lane l).state ≠ .manual) (hp : (s.lane l).state ≠ .takeoverPending)
    (h : s.laneMoving l = true) :
    (s.takeOver l).lane l =
      { s.lane l with
        state := .takeoverPending, signal := .red,
        query := if (s.lane l).state = .admitting then none else (s.lane l).query, identityTimer := .stopped,
        entryTimer := .stopped, takeoverFrom := some (s.lane l).state } := by
  have hlane := (Yielded.yielded s l).lane
  rw [State.takeOver_moving hm hp h, State.enterState_lane (by rw [hlane]; exact hp), hlane]
  simp [Lane.entering, signalFor]

/-- An entry to MANUAL clears the lane's items (R96). -/
theorem State.enterManual_lane (s : State) (l : LaneNo) : ∃ n : Lane, (s.enterManual l).lane l = n.manual := by
  rw [State.enterManual_reports]
  exact ⟨(s.letGo l).lane l, State.onLane_lane (s.letGo l) l Lane.manual⟩

/-- The request of a lane taken over is withdrawn, so that none is left where the lane alone waited. -/
theorem State.yielded_waiting (hw : ∀ b : BridgeNo, ∀ m ∈ (s.grant b).waiting, m = l ∧ (s.lane l).state = .awaitBridge)
    (hb : (s.config l).bridge = some b) : ((s.yielded l).grant b).waiting = [] := by
  have hgrant : (s.yielded l).grant b = (s.asksNoMore l).grant b := by
    rw [State.yielded, State.stopSequence_eq, State.onLane_onLane]
    exact (State.onLane_same _ l _).grant b
  rw [hgrant]
  by_cases ha : (s.lane l).state = .awaitBridge
  · rw [State.asksNoMore_awaitBridge ha, State.withdrawRequest_at hb, State.onGrant_grant]
    simp only [List.filter_eq_nil_iff]
    intro m hm
    obtain ⟨hml, -⟩ := hw b m hm
    simp [hml]
  · have hnone : (s.grant b).waiting = [] := List.eq_nil_iff_forall_not_mem.mpr (fun m hm => by
      obtain ⟨-, hst⟩ := hw b m hm
      exact ha hst)
    by_cases had : (s.lane l).state = .admitting
    · rw [State.asksNoMore_admitting had, (s.abandonQuery_same l).grant b, hnone]
    · by_cases hsf : (s.lane l).state = .siteFull
      · rw [State.asksNoMore_siteFull hsf]
        exact hnone
      · rw [State.asksNoMore_other had hsf ha, hnone]

/-- The report of a takeover accepted in the lane's state as it was. -/
theorem State.yielded_manualReport (s : State) (l : LaneNo) :
    (s.yielded l).manualReport l =
      .takeoverGranted
        { lane := l, from_ := (s.lane l).state, visit := (s.lane l).visit,
          after := (s.lane l).visit.bind ((s.yielded l).cancelCaptureOf l .takeover).takenOverState,
          cancelled := (s.captureBridge l).isSome, clock := s.ret.clock } := by
  have hy := Yielded.yielded s l
  have hgo : Reassigns (s.yielded l) ((s.yielded l).letGo l) := (Reassigns.servedNoMore _ l).trans (.releaseGrant _ l)
  obtain ⟨hclock, -⟩ := hgo.same .clock (by decide)
  obtain ⟨hyclock, -⟩ := hy.same .clock (by decide)
  simp only [State.manualReport, hy.lane, hy.same.captureBridge l, Option.getD_some, hclock, hyclock]

theorem State.yielded_siteFull (h : s.siteFull = []) : (s.yielded l).siteFull = [] := by
  have hasks : (s.asksNoMore l).siteFull = [] := by
    by_cases ha : (s.lane l).state = .admitting
    · rw [State.asksNoMore_admitting ha]
      exact ((s.abandonQuery_same l) .siteFull (by decide)).trans h
    · by_cases hs : (s.lane l).state = .siteFull
      · rw [State.asksNoMore_siteFull hs]
        simp [State.leaveSiteFull, h]
      · by_cases hb : (s.lane l).state = .awaitBridge
        · rw [State.asksNoMore_awaitBridge hb]
          exact ((s.withdrawRequest_same l) .siteFull (by decide)).trans h
        · rw [State.asksNoMore_other ha hs hb, h]
  rw [State.yielded, State.stopSequence_eq, State.onLane_onLane]
  exact ((State.onLane_same _ l _) .siteFull (by decide)).trans hasks

end

/-! ### LANE_TAKEOVER -/

section
variable {s : State} {x : Byte} {l : LaneNo}

/-- An accepted LANE_TAKEOVER is the takeover with the check word rewritten, and the reply shows the lane's state. -/
theorem laneTakeover_taken (hs : s.Ready) (hl : ofByte 4 x = some l) (hp : s.failing = false) :
    ∃ t, exec (.laneTakeover x) s = .next t ∧ t.Answers 0x19 .ok (.laneState ((s.hunting.takeOver l).lane l).state) ∧
      SameBut [.checkWord, .reply] (s.hunting.takeOver l) t := by
  obtain ⟨t, hex, hans, rfl⟩ := State.receive_taken hs (r := .laneTakeover x) (by simp)
    (actLaneTakeover_accepted (s := s.hunting) hl hp)
  exact ⟨_, hex, hans, (((State.seal_same _).mono (by decide)).then (State.setReply_same _ _)).transmit⟩

theorem laneTakeover_already (hs : s.Ready) (hl : ofByte 4 x = some l) (hp : s.failing = false)
    (h : (s.lane l).state = .manual ∨ (s.lane l).state = .takeoverPending) :
    ∃ t, exec (.laneTakeover x) s = .next t ∧ t.Answers 0x19 .ok (.laneState (s.lane l).state) ∧
      SameBut [.receiver, .reply, .checkWord] s t := by
  obtain ⟨t, hex, hans, hsame⟩ := laneTakeover_taken hs hl hp
  rw [State.takeOver_already (s := s.hunting) h] at hans hsame
  exact ⟨t, hex, hans, (s.hunting_same.mono (by decide)).then hsame⟩

theorem laneTakeover_moving (hs : s.Ready) (hl : ofByte 4 x = some l) (hp : s.failing = false)
    (hm : (s.lane l).state ≠ .manual) (ht : (s.lane l).state ≠ .takeoverPending) (h : s.laneMoving l = true) :
    ∃ t, exec (.laneTakeover x) s = .next t ∧ t.Answers 0x19 .ok (.laneState .takeoverPending) ∧
      t.lane l =
        { s.lane l with
          state := .takeoverPending, signal := .red,
          query := if (s.lane l).state = .admitting then none else (s.lane l).query, identityTimer := .stopped,
          entryTimer := .stopped, takeoverFrom := some (s.lane l).state } ∧
      (∀ m : LaneNo, m ≠ l → t.lane m = s.lane m) ∧
      SameBut [.receiver, .reply, .lanes, .queries, .siteFull, .grants, .reports, .checkWord] s t := by
  obtain ⟨t, hex, hans, hsame⟩ := laneTakeover_taken hs hl hp
  have hlane := State.takeOver_moving_lane (s := s.hunting) hm ht h
  have hy := Yielded.yielded s.hunting l
  have htake := State.takeOver_moving (s := s.hunting) hm ht h
  rw [hlane] at hans
  refine ⟨t, hex, hans, (hsame.lane l).trans hlane, fun m hml => ?_, ?_⟩
  · rw [hsame.lane m, htake, State.enterState_others _ hml, hy.others m hml]
    rfl
  · rw [htake] at hsame
    exact (((s.hunting_same.mono (by decide)).then hy.same).then (State.enterState_same _ l _ _)).then hsame

theorem laneTakeover_still (hs : s.Ready) (hl : ofByte 4 x = some l) (hp : s.failing = false)
    (hm : (s.lane l).state ≠ .manual) (ht : (s.lane l).state ≠ .takeoverPending) (h : s.laneMoving l = false) :
    ∃ t, exec (.laneTakeover x) s = .next t ∧ t.Answers 0x19 .ok (.laneState .manual) ∧
      (∃ n : Lane, t.lane l = n.manual) ∧
      SameBut ([.receiver, .reply] ++ takeoverParts ++ [.checkWord]) s t ∧
      SameBut [.checkWord, .reply] ((s.hunting.yielded l).enterManual l) t := by
  obtain ⟨t, hex, hans, hsame⟩ := laneTakeover_taken hs hl hp
  have hreach : SameBut takeoverParts s.hunting (s.hunting.takeOver l) := (Reassigns.takeOver s.hunting l).same
  have hall := (s.hunting_same.trans hreach).trans hsame
  rw [State.takeOver_still (s := s.hunting) hm ht h] at hans hsame
  obtain ⟨n, hn⟩ := (s.hunting.yielded l).enterManual_lane l
  rw [hn] at hans
  exact ⟨t, hex, hans, ⟨n, (hsame.lane l).trans hn⟩, hall.mono (by decide), hsame⟩

/-- The visit of a lane taken over, by its state (R152). -/
theorem VisitTreated.byState {s t : State} {n : Nat} {v : Visit} {after : Option VisitState}
    (h : VisitTreated s t n v after) :
    (v.state = .admitted ∨ v.state = .weighingIn →
      after = none ∧ t.ret.visits.records = s.ret.visits.records.filter (fun w => w.number ≠ n)) ∧
    (v.state = .weighingOut → after = some .onSite ∧ t.visitOf n = some { v with state := .onSite }) ∧
    (v.state = .onSite ∨ v.state = .ticketPending ∨ v.state = .ticketed →
      after = some v.state ∧ t.visitOf n = some { v with currentLane := none }) ∧
    (v.state = .exiting →
      after = some .ticketed ∧ t.visitOf n = some { v with state := .ticketed, currentLane := none }) := by
  refine ⟨fun hst => h.removed ?_, fun hst => h.kept { v with state := .onSite } ?_,
    fun hst => h.kept { v with currentLane := none } ?_,
    fun hst => h.kept { v with state := .ticketed, currentLane := none } ?_⟩
  · rcases hst with k | k
    · simp [Visit.takenOver, k]
    · simp [Visit.takenOver, k]
  · simp [Visit.takenOver, hst]
  · rcases hst with k | k | k
    · simp [Visit.takenOver, k]
    · simp [Visit.takenOver, k]
    · simp [Visit.takenOver, k]
  · simp [Visit.takenOver, hst]

/-- A takeover that enters MANUAL where no other lane waits: TAKEOVER_GRANTED tells what becomes of its vehicle. -/
theorem laneTakeover_alone {t : State} (hsf : s.siteFull = [])
    (hw : ∀ b : BridgeNo, ∀ m ∈ (s.grant b).waiting, m = l ∧ (s.lane l).state = .awaitBridge)
    (ht : SameBut [.checkWord, .reply] ((s.hunting.yielded l).enterManual l) t) :
    (∀ (b : BridgeNo) (k : Capture), (s.bridge b).capture = some k → k.lane = l →
      (∀ o : BridgeNo, o ≠ b → (s.bridge o).capture.all (fun j => j.lane != l) = true) →
      (t.bridge b).capture = none) ∧
    (∀ b : BridgeNo, (s.config l).bridge = some b → (t.grant b).holder ≠ some l) ∧
    (∀ m : LaneNo, m ≠ l → t.lane m = s.lane m) ∧
    ∃ (after : Option VisitState) (cancelled : Bool),
      (s.link.reports.length < 32 →
        t.voiced = s.voiced ++ [.takeoverGranted
          { lane := l, from_ := (s.lane l).state, visit := (s.lane l).visit, after := after,
            cancelled := cancelled, clock := s.ret.clock }]) ∧
      (cancelled = true ↔ ∃ (b : BridgeNo) (k : Capture), (s.bridge b).capture = some k ∧ k.lane = l) ∧
      ((s.lane l).visit = none → after = none ∧ t.ret.visits = s.ret.visits) ∧
      ∀ (n : Nat) (v : Visit), (s.lane l).visit = some n → s.visitOf n = some v → VisitTreated s t n v after := by
  have hy := Yielded.yielded s.hunting l
  have hsite : (s.hunting.yielded l).siteFull = [] := State.yielded_siteFull hsf
  have hwait : ∀ b, ((s.hunting.yielded l).config l).bridge = some b →
      ((s.hunting.yielded l).grant b).waiting = [] := fun b hb => by
    rw [hy.same.config l] at hb
    exact State.yielded_waiting (s := s.hunting) hw hb
  have hvisit : ((s.hunting.yielded l).lane l).visit = (s.lane l).visit := by
    rw [hy.lane]
    rfl
  obtain ⟨hothers, hcapture, hgrant, hvoiced, hunvisited, htreated⟩ := TakenAlone.enterManual hsite hwait
  simp only [hy.same.bridge, hy.same.config l, hy.link, hvisit,
    hy.same.visitOf] at hcapture hgrant hvoiced hunvisited htreated
  refine ⟨fun b k hk hl hone => ?capture, fun b hb => ?grant, fun m hm => ?others,
    (s.lane l).visit.bind ((s.hunting.yielded l).cancelCaptureOf l .takeover).takenOverState,
    (s.captureBridge l).isSome, fun hr => ?voiced, State.captureBridge_isSome (s := s), fun hn => ?unvisited,
    fun n v hn hv => ?treated⟩
  case capture =>
    rw [ht.bridge b]
    exact hcapture b k hk hl hone
  case grant =>
    rw [ht.grant b]
    exact hgrant b hb
  case others =>
    rw [ht.lane m, hothers m hm, hy.others m hm]
    rfl
  case voiced =>
    obtain ⟨htv, -⟩ := ht .reports (by decide)
    have hyv : (s.hunting.yielded l).voiced = s.voiced := by
      unfold State.voiced
      rw [hy.link]
      rfl
    rw [htv, hvoiced hr, hyv, State.yielded_manualReport]
    rfl
  case unvisited =>
    refine ⟨by rw [hn]; rfl, ?_⟩
    rw [show t.ret.visits = _ from ht .visits (by decide), hunvisited hn]
    exact hy.same .visits (by decide)
  case treated =>
    have hbefore : SameBut [.receiver, .lanes, .queries, .siteFull, .grants] s (s.hunting.yielded l) :=
      (s.hunting_same.mono (by decide)).then hy.same
    rw [hn, Option.bind_some]
    exact (htreated n v hn hv).of_same hbefore ht

end

/-! ### LANE_RELEASE -/

section
variable {s : State} {x : Byte} {l : LaneNo} {b : BarrierNo}

theorem Barrier.lower_lower (time : Nat) (x : Barrier) : (x.lower time).lower time = x.lower time := by
  cases hst : x.state with
  | up =>
    cases ho : x.occupied with
    | false => rw [Barrier.lower_up_clear hst ho, Barrier.lower_stands (.inr (.inl rfl))]
    | true => rw [Barrier.lower_up_occupied hst ho, Barrier.lower_up_occupied (by exact hst) (by exact ho)]
  | raising => rw [Barrier.lower_raising hst, Barrier.lower_raising (by exact hst)]
  | down => rw [Barrier.lower_stands (.inl hst), Barrier.lower_stands (.inl hst)]
  | lowering => rw [Barrier.lower_stands (.inr (.inl hst)), Barrier.lower_stands (.inr (.inl hst))]
  | fault => rw [Barrier.lower_stands (.inr (.inr hst)), Barrier.lower_stands (.inr (.inr hst))]

/-- LOWER neither brings about nor ends a FAULT (R61). -/
theorem Barrier.lower_fault_iff {time : Nat} {x : Barrier} : (x.lower time).state = .fault ↔ x.state = .fault := by
  cases hst : x.state with
  | up =>
    cases ho : x.occupied with
    | false => simp [Barrier.lower_up_clear hst ho]
    | true => simp [Barrier.lower_up_occupied hst ho, hst]
  | raising => simp [Barrier.lower_raising hst, hst]
  | down => simp [Barrier.lower_stands (.inl hst), hst]
  | lowering => simp [Barrier.lower_stands (.inr (.inl hst)), hst]
  | fault => simp [Barrier.lower_stands (.inr (.inr hst)), hst]

/-- LOWER given to each barrier of a list. -/
def State.lowered (s : State) (bs : List BarrierNo) : State := forEach bs (fun b s => s.commandLower b) s

theorem State.lowered_same (s : State) (bs : List BarrierNo) : SameBut [.barriers] s (s.lowered bs) :=
  .forEach (fun b u => u.onBarrier_same b _) _ _

/-- A barrier named twice in the list is lowered as one named once. -/
theorem State.lowered_barrier (s : State) (bs : List BarrierNo) (b : BarrierNo) :
    (s.lowered bs).barrier b = if b ∈ bs then (s.barrier b).lower s.motionTime else s.barrier b := by
  induction bs generalizing s with
  | nil => simp [State.lowered, forEach]
  | cons c cs ih =>
    have hrec : s.lowered (c :: cs) = (s.commandLower c).lowered cs := rfl
    have hbar : (s.commandLower c).barrier b = if c = b then (s.barrier b).lower s.motionTime else s.barrier b :=
      State.onBarrier_barrier_at s c b _
    have htime : (s.commandLower c).motionTime = s.motionTime := rfl
    rw [hrec, ih, hbar, htime]
    by_cases hc : c = b
    · subst hc
      simp [Barrier.lower_lower]
    · simp [hc, Ne.symm hc]

theorem State.mem_barriersOf : b ∈ s.barriersOf l ↔ (s.config l).front = some b ∨ (s.config l).rear = some b := by
  simp [State.barriersOf]

/-- The barriers of the lane that LANE_RELEASE lowers: none shared with a lane that holds a grant. -/
def State.unshared (s : State) (l : LaneNo) : List BarrierNo := (s.barriersOf l).filter (fun b => !s.heldByOther l b)

/-- The barriers of the lane that LANE_RELEASE skips. -/
def State.shared (s : State) (l : LaneNo) : List BarrierNo := (s.barriersOf l).filter (s.heldByOther l)

theorem State.mem_shared :
    b ∈ s.shared l ↔ ((s.config l).front = some b ∨ (s.config l).rear = some b) ∧ s.heldByOther l b = true := by
  rw [State.shared, List.mem_filter, State.mem_barriersOf]

theorem State.mem_unshared :
    b ∈ s.unshared l ↔ ((s.config l).front = some b ∨ (s.config l).rear = some b) ∧ b ∉ s.shared l := by
  rw [State.unshared, List.mem_filter, State.mem_barriersOf, State.mem_shared]
  refine and_congr_right (fun hb => ?_)
  simp [hb]

theorem actLaneRelease_accepted (hl : ofByte 4 x = some l) (hp : s.failing = false) (hm : (s.lane l).state = .manual) :
    actLaneRelease x s =
      ((s.lowered (s.unshared l)).leaveManual l).accepted
        (.laneReleased (((s.lowered (s.unshared l)).leaveManual l).lane l).state (s.shared l)) := by
  simp only [actLaneRelease, hl, hp, hm]
  rfl

theorem actLaneRelease_busy (hl : ofByte 4 x = some l) (hp : s.failing = false) (hm : (s.lane l).state ≠ .manual) :
    actLaneRelease x s = s.refused .laneBusy := by
  simp [actLaneRelease, hl, hp, hm]

theorem State.leaveManual_same (s : State) (l : LaneNo) : SameBut [.lanes, .reports] s (s.leaveManual l) := by
  unfold State.leaveManual
  split
  · exact s.enterState_same l _ _
  · exact s.comeToIdle_same l

theorem State.leaveManual_others {m : LaneNo} (s : State) (h : m ≠ l) : (s.leaveManual l).lane m = s.lane m := by
  unfold State.leaveManual
  split
  · exact s.enterState_others h _ _
  · exact s.comeToIdle_others h

theorem State.leaveManual_fault
    (h : ∃ b, ((s.config l).front = some b ∨ (s.config l).rear = some b) ∧ (s.barrier b).state = .fault) :
    ((s.leaveManual l).lane l).state = .laneFault := by
  obtain ⟨b, hb, hf⟩ := h
  have hany : (s.barriersOf l).any (fun b => (s.barrier b).state == .fault) = true :=
    List.any_eq_true.mpr ⟨b, State.mem_barriersOf.mpr hb, by simp [hf]⟩
  rw [State.leaveManual, if_pos hany]
  exact s.enterState_state l _ _

theorem State.leaveManual_sound
    (h : ∀ b, ((s.config l).front = some b ∨ (s.config l).rear = some b) → (s.barrier b).state ≠ .fault) :
    ((s.leaveManual l).lane l).state =
      if (s.config l).role ≠ .none ∧ s.approachOccupied l = true then .awaitId else .idle := by
  have hany : ¬ (s.barriersOf l).any (fun b => (s.barrier b).state == .fault) = true := fun k => by
    obtain ⟨b, hb, hf⟩ := List.any_eq_true.mp k
    exact h b (State.mem_barriersOf.mp hb) (by simpa using hf)
  rw [State.leaveManual, if_neg hany, State.comeToIdle]
  split
  · exact s.enterState_state l _ _
  · exact s.enterState_state l _ _

/-- LANE_RELEASE of a lane in MANUAL: its barriers lowered, but for those skipped, and the lane out of MANUAL. -/
theorem laneRelease_taken (hs : s.Ready) (hl : ofByte 4 x = some l) (hp : s.failing = false)
    (hm : (s.lane l).state = .manual) :
    ∃ t, exec (.laneRelease x) s = .next t ∧ t.Answers 0x1A .ok (.laneReleased (t.lane l).state (s.shared l)) ∧
      SameBut [.reply] ((s.hunting.lowered (s.unshared l)).leaveManual l) t := by
  obtain ⟨t, hex, hans, rfl⟩ := State.receive_taken hs (r := .laneRelease x) (by simp)
    (actLaneRelease_accepted (s := s.hunting) hl hp hm)
  have hend := fun r => (State.setReply_same ((s.hunting.lowered (s.hunting.unshared l)).leaveManual l) r).transmit
  refine ⟨_, hex, ?_, hend _⟩
  rw [(hend _).lane l]
  exact hans

end

end Sys2Proof.Machine

open Sys2Proof Sys2Proof.Machine

/-- Settles O35: a takeover stops the lane's sequence (`yielded`) and lets it wait or enter MANUAL, where its capture,
visit and grant are given up (`letGo`); a release lowers the barriers that are not shared and leaves MANUAL. -/
theorem takeoverAndReleaseOfALane : Obligations.TakeoverAndReleaseOfALane := by
  refine ⟨fun x l s hs hl hp => ⟨fun h => laneTakeover_already hs hl hp h, fun hm ht hmove => ?moving,
    fun hm ht hmove => ?still⟩, fun x l s hs hl hp => ⟨fun hm => ?released, fun hm => ?busy⟩⟩
  case moving =>
    obtain ⟨t, hex, hans, hlane, hothers, hsame⟩ := laneTakeover_moving hs hl hp hm ht hmove
    refine ⟨t, hex, hans, ?_⟩
    rw [hlane]
    exact ⟨rfl, rfl, rfl, rfl, rfl, rfl, hothers, hsame⟩
  case still =>
    obtain ⟨t, hex, hans, ⟨n, hlane⟩, hsame, hend⟩ := laneTakeover_still hs hl hp hm ht hmove
    refine ⟨t, hex, hans, ?_⟩
    rw [hlane]
    refine ⟨rfl, rfl, rfl, rfl, rfl, rfl, rfl, rfl, hsame, fun hsf hw => ?_⟩
    obtain ⟨hcapture, hgrant, hothers, after, cancelled, hvoiced, hcancelled, hunvisited, htreated⟩ :=
      laneTakeover_alone hsf hw hend
    exact ⟨hcapture, hgrant, hothers, after, cancelled, hvoiced, hcancelled, hunvisited,
      fun n v hn hv => (htreated n v hn hv).byState⟩
  case released =>
    obtain ⟨t, hex, hans, hend⟩ := laneRelease_taken hs hl hp hm
    have hlow := State.lowered_same s.hunting (s.unshared l)
    have hleave := State.leaveManual_same (s.hunting.lowered (s.unshared l)) l
    have hbar : ∀ b, t.barrier b =
        if b ∈ s.unshared l then (s.barrier b).lower s.motionTime else s.barrier b := fun b => by
      rw [hend.barrier b, hleave.barrier b]
      exact State.lowered_barrier s.hunting (s.unshared l) b
    have hfault : ∀ b, ((s.hunting.lowered (s.unshared l)).barrier b).state = .fault ↔ (s.barrier b).state = .fault :=
      fun b => by
        rw [State.lowered_barrier]
        split
        · exact Barrier.lower_fault_iff
        · exact Iff.rfl
    have hconfig : (s.hunting.lowered (s.unshared l)).config l = s.config l := hlow.config l
    refine ⟨t, s.shared l, hex, hans, fun b => State.mem_shared, fun b hb hns => ?_, fun b hb => ?_,
      fun ⟨b, hb, hf⟩ => ?_, fun h => ?_, fun m hml => ?_, ?_⟩
    · rw [hbar b, if_pos (State.mem_unshared.mpr ⟨hb, hns⟩)]
    · rw [hbar b, if_neg (fun k => ?_)]
      obtain ⟨hnamed, hns⟩ := State.mem_unshared.mp k
      rcases hb with hb | ⟨hf, hr⟩
      · exact hns hb
      · exact hnamed.elim hf hr
    · rw [hend.lane l]
      exact State.leaveManual_fault ⟨b, by rwa [hconfig], (hfault b).mpr hf⟩
    · rw [hend.lane l, State.leaveManual_sound (fun b hb k => h b (by rwa [hconfig] at hb) ((hfault b).mp k)), hconfig,
        hlow.approachOccupied l]
      rfl
    · rw [hend.lane m, State.leaveManual_others _ hml, hlow.lane m]
      rfl
    · exact (((s.hunting_same.trans hlow).trans hleave).trans hend).mono (by decide)
  case busy =>
    exact State.receive_turned hs (r := .laneRelease x) (by simp) (actLaneRelease_busy (s := s.hunting) hl hp hm)

end
